-- ==== Sys2Proof/Word.lean ====
section
/-! DEFINITION. The word types of the register and memory spaces, and the names that commands take as operands. -/

namespace Sys2Proof

/-- One byte of a memory, a frame or an image (R4). -/
abbrev Byte := BitVec 8

/-- One 32-bit register or data word (R4). -/
abbrev Word := BitVec 32

/-- The two host ports (R44, R511, R522). -/
inductive Port where
  | pcie
  | qspi
  deriving DecidableEq, Repr

/-- The roles under which settings change (R2). -/
inductive Role where
  | maker
  | installer
  | operator
  deriving DecidableEq, Repr

/-- The straps latched in DRONE.STRAPS (R85). -/
structure Straps where
  twinElder : Bool
  makerEn : Bool
  bootSel : Fin 4
  biasSafe : Fin 4
  deriving DecidableEq, Repr

/-- The post-modify of a load or store: none, by an immediate, or by an m register (class 0x4 of R307). -/
inductive PostMod where
  | none
  | imm (offset : BitVec 15)
  | reg (m : Fin 8)
  deriving DecidableEq, Repr

/-- The COUNT of a REPEAT: an immediate, or a g register (class 0x1 of R307). -/
inductive RepCount where
  | imm (count : BitVec 16)
  | reg (g : Fin 16)
  deriving DecidableEq, Repr

/-- What a calibration pass of one path measured (R429, R432): for each calibration ID from 0 on, its runs in order,
each a list of numbers; and the ID at which a fourth repeat abandoned the pass, if one did (R434). Gains and levels are in 0.01 dB (gains
relative to G_REF), phases in 0.01°, delays in sixteenths of a sample, offsets and β in 2^-15, and leakage and image
levels in steps of 0.25 dB below the carrier. ID 0: gain and phase of OBS_0 to OBS_3 in turn, then the four levels;
1: delay, attenuation; 2: I, Q, leakage; 3 and 5: two parts of β, image; 4, 7 and 8: gain, phase; 6: the corrections
of indices 0 to 31. -/
structure CalMeasure where
  path : Fin 64
  runs : List (List (List Int))
  aborted : Option (Fin 9)
  deriving DecidableEq, Repr

/-- What a running capture takes in: what the coupler, the interpolator or the decimator gives, by the source kind, and
the coupler's samples of a pair, or the DC estimated at each sample (R165). -/
structure CaptureIn where
  main : List (Int × Int)
  other : List (Int × Int)
  deriving DecidableEq, Repr

/-- What precedes the eCPRI payload of a received frame: the addresses, the VID where the frame is tagged, the length from
the destination address through the FCS, and the common header's revision, C bit and payload size (R321, R322, R324). -/
structure FrameHead where
  dst : BitVec 48
  src : BitVec 48
  vid : Option (BitVec 12)
  length : BitVec 16
  revision : BitVec 4
  concat : Bool
  size : BitVec 16
  deriving DecidableEq, Repr

/-- What precedes the body of a received type 2 message: its frame and its SEQ_ID (R326, R336). -/
structure CtlHead where
  frame : FrameHead
  seqId : BitVec 16
  deriving DecidableEq, Repr

/-- What precedes the timestamp of a received type 5 message: its frame and its Measurement ID (R351). -/
structure DelayHead where
  frame : FrameHead
  ident : Byte
  deriving DecidableEq, Repr

/-- What one capture of TX_COUPLER gave for a path (R435): gain in 0.01 dB relative to G_REF, and phase in 0.01°. -/
structure CouplerRun where
  path : Fin 64
  gain : Int
  phase : Int
  deriving DecidableEq, Repr

/-- What the forward and the reverse coupler of a path gave over the 16 µs of their captures, ahead of the input attenuator
(R205). -/
structure CouplerPair where
  forward : List (Int × Int)
  reverse : List (Int × Int)
  deriving DecidableEq, Repr

/-- What a path's receive decimator gave over the samples of one symbol, in units of 2^-40 of its full scale: from the 63rd
path sample before the first that enters the symbol to the last that enters it (R127, R129); and the DC estimated at
each. -/
structure RxRun where
  main : List (Int × Int)
  dc : List (Int × Int)
  deriving DecidableEq, Repr

/-- A path whose self-test ends, and the observation time in µs that its checks 1 and 2 took (R440: the spec gives the
whole test at most 300 µs and no more). -/
structure PathTested where
  path : Fin 64
  micros : Nat
  deriving DecidableEq, Repr

/-- What the filters of a path's transmit chain gave over a stretch of samples that ends with a symbol start. The spec
gives no response of an interpolator, so what comes out of one is the sender's: of each carrier 0 to 3 the samples at
61.44 MS/s, translated to IF + OFFSET (R142); for each crest-reduction stage the 2x interpolated copy of its input, and
then of the result, whose sample 2 n stands at sample n (R146); the samples at 245.76 MS/s from the fifth before the stretch to the first
after it (R149); and the samples at 491.52 MS/s ahead of the DAC (R157). I and Q in units of 2^-15. -/
structure TxRun where
  path : Fin 64
  carriers : List (List (Int × Int))
  doubled : List (List (Int × Int))
  wide : List (Int × Int)
  dac : List (Int × Int)
  deriving DecidableEq, Repr

end Sys2Proof
end

