-- ==== Sys2Proof/Syntax.lean ====
section
/-! DEFINITION. The commands of the ZL6464: one constructor for each row of the opcode table, with its operands. -/

namespace Sys2Proof

/-- A command: what a host port, the air, a pin, a neighbour or the device's own hardware makes happen. -/
inductive Instr where
  /-- POWER_UP (R83): VDD_DRONE rises, or a drone reset is requested; every domain, the drone included, is reset, the
  straps are latched and the journal restarts at SEQ 0. -/
  | powerUp (straps : Straps)
  /-- OSC_READY (R83): The drone oscillator is ready (or the matching start point of another kind of reset is reached)
  and the timed power-up sequence runs to spine release. -/
  | oscReady (refCount : Nat) (selfTestOk : Bool)
  /-- COLD_RESET (R547): RESET_N is held low for at least 1 µs; every domain but DRONE is reset and the straps are
  latched again at the rising edge. -/
  | coldReset (straps : Straps) (lowNs : Nat)
  /-- BROWN_OUT (R537): A rail stays below its brown-out level for 1 µs outside Deep Hold, which causes a cold reset
  that is held while any rail is low. -/
  | brownOut
  /-- BROWN_OUT_HOLD_END (R537): Every rail has been above its brown-out level for 1 ms; the hold ends, the straps are
  latched and power-up starts from OSC_READY. -/
  | brownOutHoldEnd (straps : Straps)
  /-- PLL_UNLOCK (R76): The sampling PLL or the core PLL loses lock, and the device enters FAULT. -/
  | pllUnlock
  /-- PCIE_RESET (R513): A conventional, hot or function-level reset resets the PCIe core, ends the PCIe session and
  releases a PCIe command claim. -/
  | pcieReset
  /-- SERVICE_START (R87): The command checks readiness and twin agreement, then stays RUNNING until its START_BAR
  boundary. -/
  | serviceStart (p : Port)
  /-- SERVICE_STOP (R90): The command ends service at the next fret boundary. -/
  | serviceStop (p : Port)
  /-- HOLD_OFF (R111): The command makes the span up to UNTIL_BAR a need, or cancels such a span, and wakes a dozing
  device. -/
  | holdOff (p : Port)
  /-- LIGHT_HOLD_ENTER (R101): The command arms the hold compare for its wake time and, in a twin pair, proposes entry
  to the follow. -/
  | lightHoldEnter (p : Port)
  /-- LIGHT_HOLD_EXIT (R102): The command is a Light Hold wake source. -/
  | lightHoldExit (p : Port)
  /-- DEEP_HOLD_ENTER (R108): The command announces departure, stops the journal, lowers the domains and loads the
  drone wake compare. -/
  | deepHoldEnter (p : Port)
  /-- WARM_RESET (R550): The command resets every domain but DRONE within 1 µs, keeping the journal, capsule,
  divergence log and margin plan, and reports no completion. -/
  | warmReset (p : Port)
  /-- STATE_INFO (R110): The command returns the present and previous state, the twin role and the SEQ of the last
  FAULT record. -/
  | stateInfo (p : Port)
  /-- TIME_SET (R385): The command loads device time at once or at the next PPS_IN edge. -/
  | timeSet (p : Port)
  /-- TIME_STEP (R385): The command adds a signed offset to device time, subject to the lock rules of R383. -/
  | timeStep (p : Port)
  /-- TIME_LOCK (R383): The command moves time from UNLOCKED to LOCKED and clears STEP_USED. -/
  | timeLock (p : Port)
  /-- TIME_UNLOCK (R383): The command moves time from LOCKED to UNLOCKED. -/
  | timeUnlock (p : Port)
  /-- TIME_SET_NO_PPS (R385): A TIME_SET with WHEN = 1 sees no PPS_IN edge within 1.1 s and completes with FAILED,
  reason NO_PPS. -/
  | timeSetNoPps
  /-- LATH_LOAD (R52): The command reads a lath image and checks it whole; a failure is rejected with a reason and
  applies nothing. -/
  | lathLoad (p : Port)
  /-- LATH_APPLY (R53): A checked image is applied: one LATH_APPLIED record is written per section, EV_2 is raised,
  and in mode 0 the state moves. -/
  | lathApply
  /-- LATH_CANCEL (R56): The command withdraws an accepted live re-lath up to one fret before its boundary. -/
  | lathCancel (p : Port)
  /-- LATH_INFO (R60): The command returns a role digest, DEVICE_UID, the state of the installer slots and the
  RETURNED count. -/
  | lathInfo (p : Port)
  /-- ROLE_CHALLENGE (R44): The command returns a fresh 32-byte nonce for the named role and voids the port's previous
  nonce. -/
  | roleChallenge (p : Port)
  /-- ROLE_PROVE (R45): The command verifies a signature over the nonce message and sets the session role, or counts a
  failure toward lockout. -/
  | roleProve (p : Port)
  /-- ROLE_DROP (R46): The command ends the port's session. -/
  | roleDrop (p : Port)
  /-- NONCE_EXPIRY (R44): 10 s pass after a ROLE_CHALLENGE and its nonce becomes void. -/
  | nonceExpiry (p : Port)
  /-- LOCKOUT_END (R45): The 10 s lockout of a port ends and its failure count returns to 0. -/
  | lockoutEnd (p : Port)
  /-- INSTALLER_ENROL (R43): The command checks an enrolment token and blows the next installer slot's digest and
  VALID fuses. -/
  | installerEnrol (p : Port)
  /-- JOURNAL_COPY (R548): The command copies journal records from FIRST_SEQ onward to capture memory. -/
  | journalCopy (p : Port)
  /-- JOURNAL_ACK (R64): The command frees every journal record up to and including SEQ. -/
  | journalAck (p : Port)
  /-- CAPSULE_COPY (R60): The command copies the failure capsule to capture memory. -/
  | capsuleCopy (p : Port)
  /-- CAPSULE_CLEAR (R66): The command clears the failure capsule. -/
  | capsuleClear (p : Port)
  /-- MAKER_ENTER (R69): The command checks the maker token, blows the RETURNED and REVOKED fuses, erases installer
  and operator material and enters MAKER. -/
  | makerEnter (p : Port)
  /-- CAL_RUN (R452): The command runs the named calibration on the paths of its mask. -/
  | calRun (p : Port)
  /-- PATH_TEST (R440): The command runs the four self-test checks on fenced paths, saving and restoring their
  settings. -/
  | pathTest (p : Port)
  /-- CAL_SAVE (R444): The command writes the calibration image to capture memory. -/
  | calSave (p : Port)
  /-- CAL_RESTORE (R445): The command checks a calibration image and applies its path records. -/
  | calRestore (p : Port)
  /-- MARGIN_REPLAN (R449): The command recomputes the margin plan from the ageing drifts. -/
  | marginReplan (p : Port)
  /-- PATH_PREPARE (R208): The command starts preparation of the paths of its mask. -/
  | pathPrepare (p : Port)
  /-- PATH_FENCE (R190): The command fences paths with reason HOST, muting them and taking them out of A. -/
  | pathFence (p : Port)
  /-- PATH_UNFENCE (R190): The command returns to IDLE the fenced paths whose reason allows it, and their preparation
  follows. -/
  | pathUnfence (p : Port)
  /-- RX_SYNC (R139): The command performs a synchronising reset of the receive decimators of the paths in its mask at
  the next fret boundary. -/
  | rxSync (p : Port)
  /-- DPD_ADAPT (R154): The command starts, repeats or stops DPD adaptation of the paths in its mask. -/
  | dpdAdapt (p : Port)
  /-- CAPTURE_START (R166): The command arms a capture channel with its ring, source, count, mode and trigger. -/
  | captureStart (p : Port)
  /-- CAPTURE_STOP (R171): The command ends a running capture at the next word, discards a waiting trigger and disarms
  the channel. -/
  | captureStop (p : Port)
  /-- SYN_HOP (R179): The command moves the named synthesizers to a channel at a given edge, by hop, fall-back or full
  calibration. -/
  | synHop (p : Port)
  /-- SYN_CAL (R209): The command runs a full calibration of a channel, stores it and optionally pins it. -/
  | synCal (p : Port)
  /-- SYN_STORE_CLEAR (R208): The command clears a calibration slot, or every slot that is not present. -/
  | synStoreClear (p : Port)
  /-- TILE_ENUM (R196): The command queues a tile for enumeration. -/
  | tileEnum (p : Port)
  /-- TILE_RELEASE (R198): The command takes a tile down in an orderly way, fences its paths and makes it RELEASED. -/
  | tileRelease (p : Port)
  /-- AERIAL_TUNE (R207): The command tries tuner codes one per fret and keeps the code with the best return loss. -/
  | aerialTune (p : Port)
  /-- RFFE_XFER (R210): The command performs a raw RFFE transfer to a slave of an UP tile. -/
  | rffeXfer (p : Port)
  /-- STENCIL_SELECT (R228): The command requests a bank change of a host-directed layer, by cut or fade, which waits
  for a symbol start. -/
  | stencilSelect (p : Port)
  /-- GRID_BUILD (R235): The command rebuilds the computed grid rows. -/
  | gridBuild (p : Port)
  /-- REG_WRITE (R276): The command checks an entry image and writes word 0, word 1 or both of one entry. -/
  | regWrite (p : Port)
  /-- REG_BULK (R276): The command writes consecutive entries and stops at the first refused one. -/
  | regBulk (p : Port)
  /-- REG_FREE (R278): The command frees an entry with zero codewords and closes its open window. -/
  | regFree (p : Port)
  /-- REG_FIND (R275): The command returns the index of the entry holding an ENDPOINT_ID. -/
  | regFind (p : Port)
  /-- REG_WINDOW (R277): The command opens a one-off window, or cancels an occurrence, in a named fret. -/
  | regWindow (p : Port)
  /-- TWIN_INFO (R376): The command returns the twin role, Bridge status, EPOCH and divergence count. -/
  | twinInfo (p : Port)
  /-- DIVERGENCE_COPY (R376): The command copies divergence-log records to capture memory. -/
  | divergenceCopy (p : Port)
  /-- DIVERGENCE_CLEAR (R377): The command clears the divergence log, unless arbitration or sync is incomplete. -/
  | divergenceClear (p : Port)
  /-- HOD_START (R494): The command starts a host-owned Hod channel on a descriptor list. -/
  | hodStart (p : Port)
  /-- HOD_STOP (R509): The command stops a Hod channel after its present word. -/
  | hodStop (p : Port)
  /-- HK_START (R455): The command arms a housekeeping sequence for its trigger. -/
  | hkStart (p : Port)
  /-- HK_STOP (R475): The command ends a sequence run at the next round boundary and disarms the sequence. -/
  | hkStop (p : Port)
  /-- HK_CLEAR (R462): The command clears the accumulators or trackers of the selected slots. -/
  | hkClear (p : Port)
  /-- DRONE_READ (R522): A quad-SPI frame reads drone registers in any state. -/
  | droneRead (offset : BitVec 8) (words : Nat)
  /-- SPACE_READ (R523): A quad-SPI frame reads words of a BAR space, each preceded by a status byte. -/
  | spaceRead (addr : Word) (words : Nat)
  /-- SPACE_WRITE (R524): A quad-SPI frame queues words for writing to a BAR space. -/
  | spaceWrite (addr : Word) (data : List Word)
  /-- LATH_STREAM (R525): A quad-SPI frame feeds lath bytes to the stream FIFO for a waiting LATH_LOAD. -/
  | lathStream (bytes : List Byte)
  /-- LATH_STREAM_GAP_TIMEOUT (R525): 100 ms pass between two stream bytes of a load and the load fails with
  BAD_FRAMING. -/
  | lathStreamGapTimeout
  /-- WAKE (R526): The quad-SPI WAKE instruction wakes the device from Light Hold or Deep Hold. -/
  | wake
  /-- RESET_ENABLE (R526): A quad-SPI frame enables a DRONE_RESET in the frame that immediately follows. -/
  | resetEnable
  /-- DRONE_RESET (R526): Immediately after RESET_ENABLE, the instruction causes a power-up, drone included. -/
  | droneReset (straps : Straps)
  /-- REGISTER_WRITE (R515): A host write to a register that has no behaviour of its own is applied field by field
  under the role and domain rules, or refused and logged. -/
  | registerWrite (p : Port) (addr : BitVec 26) (value : Word) (be : BitVec 4)
  /-- SHADOW_WRITE (R417): A host write to an SH field goes to the shadow copy and records the port's WSEQ. -/
  | shadowWrite (p : Port) (addr : BitVec 26) (value : Word) (be : BitVec 4)
  /-- COMMIT_ARM (R415): A write of 1 to COMMIT_CTRL.ARM arms the next commit point. -/
  | commitArm (p : Port)
  /-- COMMIT_DISARM (R416): A write of 1 to COMMIT_CTRL.DISARM clears ARM. -/
  | commitDisarm (p : Port)
  /-- CMD_CLAIM (R528): A write of 1 to CMD_CLAIM.CLAIM takes the command register for the port if it is free. -/
  | cmdClaim (p : Port)
  /-- CMD_RELEASE (R528): A write of 1 to CMD_CLAIM.RELEASE from the owning port releases the claim. -/
  | cmdRelease (p : Port)
  /-- EVENTS_STATUS_CLEAR (R422): A W1C write to EVENTS.STATUS clears event bits and resends MSI-X for vectors whose
  condition stays true. -/
  | eventsStatusClear (p : Port) (w : Fin 4) (mask : Word)
  /-- FA_RUN (R303): A write of RUN = 1 starts a halted operator core from ENTRY with START = 2. -/
  | faRun (p : Port) (core : Fin 24)
  /-- FA_HOST_HALT (R303): A write of RUN = 0 halts a running core with cause HOST. -/
  | faHostHalt (p : Port) (core : Fin 24)
  /-- DOORBELL (R285): A write to FA_n.DOORBELL sets DBELL and makes interrupt line 0 pending on an operator core. -/
  | doorbell (p : Port) (core : Fin 24) (value : Word)
  /-- BIAS_CODE_WRITE (R200): A write to TILE.BIAS_k.CODE stages a code and sets WRITTEN. -/
  | biasCodeWrite (p : Port) (k : Fin 16) (code : BitVec 12)
  /-- BIAS_RANGE_WRITE (R201): A write that changes a BIAS range sends the channel to its safe output for 2 µs. -/
  | biasRangeWrite (p : Port) (k : Fin 16) (range : Bool)
  /-- BIAS_SAFE_HOLD_END (R201): The 2 µs safe output after a range change ends, and a strobe that fell inside it
  takes effect. -/
  | biasSafeHoldEnd (k : Fin 16)
  /-- BIAS_STROBE (R200): A write of 1 to BIAS_LOAD.STROBE loads every staged BIAS code that differs from the active
  one. -/
  | biasStrobe (p : Port)
  /-- REQ_BANK_WRITE (R151): A write to TX_DPD.REQ_BANK requests or cancels a DPD bank switch. -/
  | reqBankWrite (p : Port) (path : Fin 64) (bank : Bool)
  /-- DPD_COEF_WRITE (R152): A coefficient write is applied to an idle bank, or refused and counted for an active or
  pending bank. -/
  | dpdCoefWrite (p : Port) (path : Fin 64) (bank : Bool) (index : Fin 40) (value : Word)
  /-- CAP_LENGTH_WRITE (R169): A write to CAP_k.LENGTH applies at once on an idle channel or is held while the channel
  runs. -/
  | capLengthWrite (p : Port) (k : Fin 8) (length : BitVec 18)
  /-- CAP_LENGTH_APPLY (R169): A held LENGTH takes effect when WPTR reaches the old end; WPTR wraps and RPTR may fold,
  raising EV_58. -/
  | capLengthApply (k : Fin 8)
  /-- INC_HI_WRITE (R387): A write of TIME.INC_HI applies the new increment together with the last INC_LO written. -/
  | incHiWrite (p : Port) (value : Word)
  /-- CMP_ARM (R389): A write of 1 to CMP_k.CTRL.ARM arms a time compare. -/
  | cmpArm (p : Port) (k : Fin 8) (mode : Fin 4)
  /-- TXTS_ID_READ (R399): A read of TXTS_ID latches the head transmit timestamp entry. -/
  | txtsIdRead (p : Port)
  /-- TXTS_POP (R399): A write of 1 to TXTS_CTRL.POP removes the head timestamp entry. -/
  | txtsPop (p : Port)
  /-- LOG_ADDR_READ (R492): A read of MEMINT.LOG_ADDR latches the head error-log record into LOG_INFO and LOG_TIME. -/
  | logAddrRead (p : Port)
  /-- LOG_POP (R492): A write of 1 to LOG_CTRL.POP removes the head error-log record. -/
  | logPop (p : Port)
  /-- ACC_LO_READ (R462): A read of a slot's ACC_LO latches ACC_HI. -/
  | accLoRead (p : Port) (x : Fin 2) (slot : Fin 16)
  /-- OWD_START (R352): A write of 1 to OWD_CTRL.START sends a one-way delay request to the baseband. -/
  | owdStart (p : Port)
  /-- BRIDGE_ENABLE_WRITE (R356): A write of 1 to BRIDGE.CTRL.ENABLE retries a refused pair; a write of 0 leaves the
  pair. -/
  | bridgeEnableWrite (p : Port) (enable : Bool)
  /-- SKIM_EN_WRITE (R489): A write to SKIM_EN stops Skim on a memory at once, or restarts it from word 0. -/
  | skimEnWrite (p : Port) (mask : BitVec 6)
  /-- MUTE_WRITE (R158): A write to TX_CTRL.MUTE opens the mute switch, or releases it at the next timing-carrier
  symbol start. -/
  | muteWrite (p : Port) (path : Fin 64) (mute : Bool)
  /-- STENCIL_HOST_WRITE (R225): A host write to stencil memory is applied to an allowed region or refused and
  counted. -/
  | stencilHostWrite (p : Port) (offset : Nat) (bytes : List Byte)
  /-- REGISTRY_WINDOW_WRITE (R243): A host write to the registry window has no effect and is counted. -/
  | registryWindowWrite (p : Port) (offset : Nat) (bytes : List Byte)
  /-- FAEROR_WINDOW_WRITE (R304): A host write to the Faeror local window is applied to an operator core's memory or
  has no effect. -/
  | faerorWindowWrite (p : Port) (offset : Nat) (bytes : List Byte)
  /-- HOST_WINDOW_READ (R483): A host read through an index-2 window waits for HOSTACC grains and returns data, marked
  when poisoned. -/
  | hostWindowRead (p : Port) (offset : Nat)
  /-- HOST_WINDOW_WRITE (R485): A host write into capture memory through an index-2 window is merged into the word
  under the partial-write rules. -/
  | hostWindowWrite (p : Port) (offset : Nat) (bytes : List Byte)
  /-- FRET_BOUNDARY (R17): At Tc of a fret boundary the device commits armed shadows, activates staging stencils and
  window lists, and reloads budgets. -/
  | fretBoundary (peaks : List (Fin 64 × Byte)) (far : List (Fin 4))
  /-- SYMBOL_START (R18): A carrier symbol starts, under the settings and stencils active at its start. -/
  | symbolStart (d : Fin 2) (c : Fin 4) (runs : List TxRun) (before : List RxRun) (ended : List RxRun)
  /-- UPLINK_SECTION_SEND (R330): The uplink layer data sections of a symbol are sent, or discarded if no baseband is
  found. -/
  | uplinkSectionSend (layer : Fin 48) (runs : List RxRun)
  /-- WINDOW_LIST_CLOSE (R260): 70 µs after a fret boundary the window list of the next fret closes. -/
  | windowListClose
  /-- WINDOW_MAP (R338): The window map of the next fret is sent to the baseband. -/
  | windowMap
  /-- WINDOW_MAP_REVISION (R339): A changed window map is sent again with REVISION + 1. -/
  | windowMapRevision
  /-- FRET_PREPARATION (R259): The scheduler prepares a fret up to 8 ahead: opening occurrences, assigning layers and
  writing staging maps and rows. -/
  | fretPreparation
  /-- RUNAHEAD_REBUILD (R262): After an undo cause, prepared frets are rebuilt in order, with assignments within 4 µs.
  -/
  | runaheadRebuild
  /-- DOZE_WAKE_START (R94): At T_need − L the wake from Doze begins. -/
  | dozeWakeStart
  /-- DOZE_WAKE_COMPLETE (R96): The first valid receive sample of the last waking half arrives and the device returns
  to SERVICE. -/
  | dozeWakeComplete
  /-- HOLD_COMPARE (R101): The hold compare fires and wakes the device from Light Hold. -/
  | holdCompare
  /-- LIGHT_HOLD_WAKE_COMPLETE (R103): The wake from Light Hold completes and the device reads SERVICE or LATHED; EV_0
  is raised. -/
  | lightHoldWakeComplete
  /-- DEEP_HOLD_ENTRY_COMPLETE (R108): Deep Hold entry completes, with only the drone domain powered. -/
  | deepHoldEntryComplete
  /-- DEEP_HOLD_WAKE (R109): The drone wake compare is reached, or another drone wake source arrives, and a reset to
  BARE begins. -/
  | deepHoldWake
  /-- TIME_COMPARE (R388): A time compare fires, raising EV_16 + k and triggering every consumer that names it. -/
  | timeCompare (k : Fin 8)
  /-- PPS_IN_EDGE (R401): A PPS_IN rising edge is accepted and latched, or ignored as too early. -/
  | ppsInEdge
  /-- PPS_MISSING (R401): 1.1 s pass without an accepted PPS_IN edge; EV_26 is raised. -/
  | ppsMissing
  /-- PPS_OUT (R400): Device time reaches a whole second plus offset and PPS_OUT rises for OUT_WIDTH. -/
  | ppsOut
  /-- CIC_OUTPUT (R458): A slot's R-th conversion completes a CIC output, which is accumulated, tracked and compared.
  -/
  | cicOutput (x : Fin 2) (k : Fin 16) (codes : List (BitVec 12))
  /-- HK_RUN_START (R455): A triggered sequence starts a run at the first round boundary, resetting its CICs. -/
  | hkRunStart (x : Fin 2)
  /-- HK_RUN_END (R455): A triggered run ends after ROUNDS rounds. -/
  | hkRunEnd (x : Fin 2)
  /-- THERMAL_READING (R464): The thermal scan completes a reading of one sensor and updates its value. -/
  | thermalReading (t : Fin 17) (v : BitVec 16)
  /-- SAG_N_CHANGE (R470): The filtered SAG_N input goes low or high. -/
  | sagNChange (low : Bool)
  /-- SAG_STAGE_ENTRY (R470): A stage's entry condition is met, so classes are shed, attenuation is raised or service
  is stopped; EV_116 is raised. -/
  | sagStageEntry (codes : List (BitVec 12))
  /-- SAG_STEP_DOWN (R471): The present stage's condition has failed for RECOVER_MS and the stage falls one step. -/
  | sagStepDown (low : BitVec 12)
  /-- SAG_DEEP_HOLD (R470): SAG_N has been low for DEEP_MS and the device enters Deep Hold without the journal check.
  -/
  | sagDeepHold
  /-- AGEING_MEASUREMENT (R446): The 32 ageing monitors are measured and their drifts computed. -/
  | ageingMeasurement (drifts : List Int)
  /-- SYN_LOCK (R179): A synthesizer reaches LOCKED by hop, fall-back or full calibration; EV_33 is raised. -/
  | synLock (x : Fin 4) (found : Bool)
  /-- SYN_UNLOCK (R184): A locked synthesizer loses lock; EV_32 is raised and relock begins. -/
  | synUnlock (x : Fin 4)
  /-- SYN_CAL_FAIL (R184): A relock's full calibration fails; the synthesizer goes OFF and its half's paths are
  fenced. -/
  | synCalFail (x : Fin 4)
  /-- OVERLOAD_BACKOFF (R123): Quantiser saturation for 4 clocks raises the gain index by 6 and marks samples. -/
  | overloadBackoff (p : Fin 64)
  /-- TILE_PRESENT (R195): TILE_PRES_t goes low and the tile enters DEBOUNCE. -/
  | tilePresent (t : Fin 8)
  /-- TILE_DEBOUNCE_END (R195): After 10 ms low, the tile joins its bus's enumeration queue. -/
  | tileDebounceEnd (t : Fin 8)
  /-- TILE_ENUMERATION (R195): The bus enumerates a queued tile: VIO, USID programming, identity check and initial
  writes. -/
  | tileEnumeration (t : Fin 8) (a : Option (Nat × Nat)) (b : Option (Nat × Nat))
  /-- TILE_REMOVED (R197): TILE_PRES_t goes high and within 2 µs drain, bias, VIO and paths are taken down; EV_35 is
  raised. -/
  | tileRemoved (t : Fin 8)
  /-- DRAIN_DELAY_END (R203): DRAIN_DELAY passes after the loading strobe and DRAIN_EN may rise. -/
  | drainDelayEnd (t : Fin 8)
  /-- CAL_PASS_END (R431): A preparation or CAL_RUN pass ends and its results are written together, or the path is
  fenced on failure. -/
  | calPassEnd (run : Bool) (l : List CalMeasure) (grains : Nat)
  /-- AERIAL_CHECK (R205): A periodic return-loss check captures forward and reverse coupler samples of a path. -/
  | aerialCheck (p : Fin 64) (ref : List (Int × Int)) (x : CouplerPair)
  /-- TX_COUPLER_RUN (R435): The periodic TX_COUPLER calibration measures t_p through the PA. -/
  | txCouplerRun (m : CouplerRun) (ref : List (Int × Int))
  /-- DPD_ADAPT_PASS (R155): A DPD adaptation pass fits, writes and requests a bank for each path in turn. -/
  | dpdAdaptPass (ref : List (Int × Int)) (coefs : List Word) (nmse : Byte)
  /-- OBS_GRANT (R162): An observation receiver is granted to the oldest request of the highest class. -/
  | obsGrant (q : Fin 4)
  /-- CAPTURE_RUN (R166): A trigger starts a capture of COUNT words into the ring. -/
  | captureRun (k : Fin 8) (x : CaptureIn)
  /-- CAPTURE_END (R167): A capture ends and a waiting trigger starts the next one. -/
  | captureEnd (k : Fin 8)
  /-- SEAM_MEASUREMENT (R437): The scheduled Seam measurement finds the LO phase against the twin and updates PHASE
  and OK. -/
  | seamMeasurement (mean : Word) (residual : Nat) (seen : Bool)
  /-- SEAM_OK_TIMEOUT (R438): 2 × PERIOD bars pass without a successful measurement and SEAM.OK clears. -/
  | seamOkTimeout
  /-- SIGNATURE_REFRESH (R266): The refresh firmware writes word 1 and the local fields of an entry; EV_51 is raised.
  -/
  | signatureRefresh (index : Fin 262144) (ident : BitVec 40) (paths : BitVec 64)
      (sequence : List (Fin 14 × List (Int × Int))) (timing : BitVec 16) (cfo : BitVec 16) (quality : BitVec 8) (fret : Nat)
  /-- GRID_DETECTION (R267): The firmware reports a preamble detection; EV_50 is raised and a record is written. -/
  | gridDetection (short : Word) (bar : Word) (beam : BitVec 8) (slot : BitVec 8) (sym : BitVec 8)
      (preamble : BitVec 8) (timing : BitVec 16) (cfo : BitVec 16) (metric : BitVec 8) (carrier : Fin 4)
  /-- DETECT_REPORT (R343): Queued detections are reported to the baseband. -/
  | detectReport
  /-- SIG_REPORT (R344): Applied refreshes are reported to the baseband. -/
  | sigReport
  /-- LINK_UP (R320): Lanes and FEC have been aligned without fault for 1 ms; EV_80 is raised. -/
  | linkUp
  /-- LINK_DOWN (R320): Alignment is lost or a fault lasts 100 µs; EV_81 is raised and the baseband is lost. -/
  | linkDown (lanes : BitVec 4) (fec : Bool)
  /-- FRAME_DISCARD (R321): A received frame with a bad FCS, excess length or MAC control type is discarded and
  counted. -/
  | frameDiscard
  /-- LAYER_DATA_SECTION (R332): A received downlink section is checked for state, format, source and timing and
  accepted or discarded. -/
  | layerDataSection (frame : FrameHead) (pcId : BitVec 16) (seqId : BitVec 16) (head : BitVec 128) (blocks : List Byte)
  /-- ANNOUNCE (R346): The device sends ANNOUNCE after a bar boundary and counts unanswered ones. -/
  | announce
  /-- ANNOUNCE_ACK (R347): A received ANNOUNCE_ACK is checked and may record the baseband as found; EV_82 is raised.
  -/
  | announceAck (frame : CtlHead) (uid : BitVec 64) (ident : BitVec 64)
  /-- REG_CMD (R340): A received registry command is queued, checked and executed with operator authority if
  BB_CONTROL is set. -/
  | regCmd (frame : CtlHead) (tag : BitVec 16) (opcode : Byte) (args : List Word) (images : List Byte)
  /-- REG_RESP (R342): The response to a decoded REG_CMD is sent, or a kept response is replayed. -/
  | regResp
  /-- STATUS (R345): A STATUS message is sent after each bar boundary and on a state or role change. -/
  | status
  /-- ONE_WAY_DELAY_REQUEST (R352): A received delay request is answered with a response carrying t2. -/
  | oneWayDelayRequest (frame : FrameHead) (ident : Byte)
  /-- ONE_WAY_DELAY_RESPONSE (R352): A response to the device's own request sets the result and DONE. -/
  | oneWayDelayResponse (frame : DelayHead) (sec : BitVec 48) (ns : Word) (cv : BitVec 64)
  /-- REMOTE_REQUEST (R352): A remote request from the baseband starts a measurement. -/
  | remoteRequest (frame : FrameHead)
  /-- FOLLOW_UP (R352): A received follow-up is ignored. -/
  | followUp
  /-- OWD_TIMEOUT (R352): No response arrives within 1 ms and TIMEOUT is set. -/
  | owdTimeout
  /-- PTP_FRAME (R396): A received PTP frame is timestamped and written to the receive ring, or held or dropped. -/
  | ptpFrame (frame : List Byte)
  /-- PTP_TX_SLOT (R398): A transmit ring slot is sent as a frame, with a timestamp queued if requested. -/
  | ptpTxSlot
  /-- BRIDGE_TRAINING (R355): The chip starts training its Bridge, or retries every 1 ms. -/
  | bridgeTraining
  /-- BRIDGE_TRAINED (R355): Both lanes have been aligned for 100 µs and training completes; EV_88 is raised. -/
  | bridgeTrained (roundTripNs : Nat)
  /-- IDENT (R356): A received IDENT lets the pair form or be refused, with roles decided. -/
  | ident (uid : BitVec 64) (side : Fin 3) (state : Fin 8) (role : Fin 4) (elder : Bool) (instDigest : BitVec 128)
      (opDigest : BitVec 128) (decidedBy : Fin 8) (divergence : Nat) (entries : Nat) (epoch : Word)
  /-- HEARTBEAT_SEND (R360): The chip sends a HEARTBEAT every 10 µs. -/
  | heartbeatSend
  /-- HEARTBEAT (R375): A received heartbeat updates the peer state and skew. -/
  | heartbeat (state : Fin 8) (short : Word) (synced : Bool)
  /-- BRIDGE_LOSS_DECLARE (R360): 50 µs without a valid heartbeat declare the Bridge lost; EPOCH rises and EV_84 is
  raised. -/
  | bridgeLossDeclare
  /-- WITNESS_REQ_REPEAT (R349): WITNESS_REQ is repeated every 50 µs until a vote or 2 frets. -/
  | witnessReqRepeat
  /-- WITNESS_VOTE (R350): A received vote is checked and decides SOLO or ISOLATED, or is ignored. -/
  | witnessVote (frame : CtlHead) (lead : BitVec 64) (other : BitVec 64) (epoch : Word)
  /-- WITNESS_TIMEOUT (R369): 2 frets pass without a vote and the elder rule decides; EV_86 is raised. -/
  | witnessTimeout
  /-- NOTICE (R361): A received NOTICE makes the chip SOLO at once. -/
  | notice
  /-- MIRROR (R363): The follow applies a mirrored word 0 in SEQ order and acknowledges it. -/
  | mirror (seq : BitVec 16) (index : Fin 262144) (word : BitVec 256)
  /-- MIRROR_ACK (R364): The lead records an acknowledged MIRROR and may complete the command that caused it. -/
  | mirrorAck (seq : BitVec 16)
  /-- MIRROR_RESEND (R363): A MIRROR unacknowledged for 4 µs is sent again. -/
  | mirrorResend
  /-- SYNC_MARK (R366): The follow starts a sync map, or ends the sync by freeing unmarked entries and setting SYNCED.
  -/
  | syncMark (last : Bool) (count : Nat)
  /-- FORWARD (R365): The lead executes a command forwarded by the follow. -/
  | forward (seq : BitVec 16) (opcode : Byte) (args : List Word) (images : List Word)
  /-- FORWARD_RESP (R365): The follow completes a forwarded command once the lead's earlier MIRRORs are applied. -/
  | forwardResp (seq : BitVec 16) (code : Fin 7) (r0 : Word) (r1 : Word) (next : BitVec 16)
  /-- REPAIR_REQ (R374): The twin answers a repair request with its word 0 or none. -/
  | repairReq (index : Fin 262144)
  /-- REPAIR_RESP (R270): A received word 0 repairs a suspended entry. -/
  | repairResp (index : Fin 262144) (word : Option (BitVec 256))
  /-- JOURNAL (R65): A journal record from the twin is stored in the twin ring. -/
  | journal (image : BitVec 1024)
  /-- AGREE (R107): A proposal or reply for a re-lath, service start or Light Hold is handled. -/
  | agree (kind : Fin 3) (answer : Fin 3) (at_ : Word) (digest : BitVec 128) (compare : BitVec 64)
  /-- TWIN_AGREEMENT_TIMEOUT (R58): No matching twin agreement arrives in time and the pending operation fails with
  TWIN_MISMATCH. -/
  | twinAgreementTimeout
  /-- BRIDGE_FRAME_DISCARD (R357): A Bridge frame with a bad CRC or wrong kind or size is discarded and counted. -/
  | bridgeFrameDiscard
  /-- SKIM_READ (R487): Skim reads the next word in an idle cycle and corrects or poisons it. -/
  | skimRead (m : Fin 6)
  /-- CE_WRITEBACK (R482): The corrected codeword of a correctable read is written back in an idle cycle. -/
  | ceWriteback (m : Fin 6)
  /-- HOD_DESCRIPTOR_FETCH (R496): A Hod channel fetches its next descriptor. -/
  | hodDescriptorFetch (k : Fin 16) (host : BitVec 512)
  /-- HOD_DESCRIPTOR_END (R504): A descriptor ends; STATUS and then CTRL are written back, and an event may be raised.
  -/
  | hodDescriptorEnd (k : Fin 16) (host : List (Byte × Bool))
  /-- HOD_BUS_FAULT (R508): An access is not completed in time and the descriptor ends with BUS_FAULT. -/
  | hodBusFault (k : Fin 16) (addr : BitVec 64) (done : BitVec 24) (backOk : Bool) (host : List (Byte × Bool))
  /-- FA_INTERRUPT_ENTRY (R285): A core enters the handler of the lowest qualifying interrupt line. -/
  | faInterruptEntry (core : Fin 24)
  /-- WAIT_END (R314): A waiting core resumes when an enabled line becomes pending. -/
  | waitEnd (core : Fin 24)
  /-- FA_TIMER_EXPIRY (R285): A core's TIMER passes from 1 to 0 and line 5 becomes pending. -/
  | faTimerExpiry (core : Fin 24)
  /-- ILLEGAL_INSTRUCTION (R307): An undefined or malformed encoding halts the core with cause ILLEGAL. -/
  | illegalInstruction (core : Fin 24)
  /-- NOP (R312): No operation. -/
  | nop (core : Fin 24)
  /-- HALT (R301): The core halts with cause HALT. -/
  | halt (core : Fin 24)
  /-- B (R312): Branch after two delay slots. -/
  | b (core : Fin 24) (t : BitVec 14)
  /-- BC (R311): Conditional branch on COND after two delay slots. -/
  | bc (core : Fin 24) (cond : Fin 13) (t : BitVec 14)
  /-- CALL (R313): Call, writing the return address into g15. -/
  | call (core : Fin 24) (t : BitVec 14)
  /-- RET (R313): Return to g15. -/
  | ret (core : Fin 24)
  /-- RETI (R312): Return from interrupt, restoring ST from IST. -/
  | reti (core : Fin 24)
  /-- WAIT (R314): The core waits until an enabled line is pending. -/
  | wait (core : Fin 24)
  /-- SIG (R315): Makes the PEER line of a target core pending. -/
  | sig (core : Fin 24) (t : BitVec 14)
  /-- REPEAT (R284): Runs the next N instructions COUNT times. -/
  | repeatBlock (core : Fin 24) (n : Fin 1024) (count : RepCount)
  /-- ADD (R312): Register add. -/
  | add (core : Fin 24) (rd : Fin 16) (rs : Fin 16) (rt : Fin 16)
  /-- SUB (R312): Register subtract. -/
  | sub (core : Fin 24) (rd : Fin 16) (rs : Fin 16) (rt : Fin 16)
  /-- ADDS (R312): Saturating add. -/
  | adds (core : Fin 24) (rd : Fin 16) (rs : Fin 16) (rt : Fin 16)
  /-- SUBS (R312): Saturating subtract. -/
  | subs (core : Fin 24) (rd : Fin 16) (rs : Fin 16) (rt : Fin 16)
  /-- AND (R312): Bitwise AND. -/
  | and (core : Fin 24) (rd : Fin 16) (rs : Fin 16) (rt : Fin 16)
  /-- OR (R312): Bitwise OR. -/
  | or (core : Fin 24) (rd : Fin 16) (rs : Fin 16) (rt : Fin 16)
  /-- XOR (R312): Bitwise XOR. -/
  | xor (core : Fin 24) (rd : Fin 16) (rs : Fin 16) (rt : Fin 16)
  /-- SHL (R312): Shift left by SH. -/
  | shl (core : Fin 24) (rd : Fin 16) (rs : Fin 16) (sh : Fin 32)
  /-- SHR (R312): Logical shift right by SH. -/
  | shr (core : Fin 24) (rd : Fin 16) (rs : Fin 16) (sh : Fin 32)
  /-- SRA (R312): Arithmetic shift right by SH. -/
  | sra (core : Fin 24) (rd : Fin 16) (rs : Fin 16) (sh : Fin 32)
  /-- SHLV (R312): Shift left by rt. -/
  | shlv (core : Fin 24) (rd : Fin 16) (rs : Fin 16) (rt : Fin 16)
  /-- SRAV (R312): Arithmetic shift right by rt. -/
  | srav (core : Fin 24) (rd : Fin 16) (rs : Fin 16) (rt : Fin 16)
  /-- MIN (R312): Signed minimum. -/
  | min (core : Fin 24) (rd : Fin 16) (rs : Fin 16) (rt : Fin 16)
  /-- MAX (R312): Signed maximum. -/
  | max (core : Fin 24) (rd : Fin 16) (rs : Fin 16) (rt : Fin 16)
  /-- ABS (R312): Saturating absolute value. -/
  | abs (core : Fin 24) (rd : Fin 16) (rs : Fin 16)
  /-- NEG (R312): Saturating negation. -/
  | neg (core : Fin 24) (rd : Fin 16) (rs : Fin 16)
  /-- CMP (R312): Compare, setting flags only. -/
  | cmp (core : Fin 24) (rs : Fin 16) (rt : Fin 16)
  /-- CADD (R312): Complex saturating add. -/
  | cadd (core : Fin 24) (rd : Fin 16) (rs : Fin 16) (rt : Fin 16)
  /-- CSUB (R312): Complex saturating subtract. -/
  | csub (core : Fin 24) (rd : Fin 16) (rs : Fin 16) (rt : Fin 16)
  /-- CONJ (R312): Complex conjugate. -/
  | conj (core : Fin 24) (rd : Fin 16) (rs : Fin 16)
  /-- CSWAP (R312): Swap the I and Q halves. -/
  | cswap (core : Fin 24) (rd : Fin 16) (rs : Fin 16)
  /-- MOV (R312): Register move. -/
  | mov (core : Fin 24) (rd : Fin 16) (rs : Fin 16)
  /-- ADDI (R312): Add a sign-extended immediate. -/
  | addi (core : Fin 24) (rd : Fin 16) (rs : Fin 16) (imm : BitVec 16)
  /-- ANDI (R312): AND with an immediate. -/
  | andi (core : Fin 24) (rd : Fin 16) (rs : Fin 16) (imm : BitVec 16)
  /-- ORI (R312): OR with an immediate. -/
  | ori (core : Fin 24) (rd : Fin 16) (rs : Fin 16) (imm : BitVec 16)
  /-- XORI (R312): XOR with an immediate. -/
  | xori (core : Fin 24) (rd : Fin 16) (rs : Fin 16) (imm : BitVec 16)
  /-- MOVI (R312): Load a sign-extended immediate. -/
  | movi (core : Fin 24) (rd : Fin 16) (imm : BitVec 16)
  /-- MOVHI (R312): Load the upper half of a register. -/
  | movhi (core : Fin 24) (rd : Fin 16) (imm : BitVec 16)
  /-- CMPI (R312): Compare with an immediate. -/
  | cmpi (core : Fin 24) (rs : Fin 16) (imm : BitVec 16)
  /-- LDW (R293): Load a word through a pointer, with optional post-modify. -/
  | ldw (core : Fin 24) (g : Fin 16) (p : Fin 8) (pm : PostMod)
  /-- LDH (R312): Load a sign-extended halfword. -/
  | ldh (core : Fin 24) (g : Fin 16) (p : Fin 8) (pm : PostMod)
  /-- STW (R290): Store a word by read-modify-write. -/
  | stw (core : Fin 24) (g : Fin 16) (p : Fin 8) (pm : PostMod)
  /-- STH (R312): Store a saturated halfword. -/
  | sth (core : Fin 24) (g : Fin 16) (p : Fin 8) (pm : PostMod)
  /-- WZERO (R291): Write a zero codeword to the word holding the pointer's address. -/
  | wzero (core : Fin 24) (p : Fin 8) (pm : PostMod)
  /-- LDD (R316): Dual load through two pointers. -/
  | ldd (core : Fin 24) (ga : Fin 16) (gb : Fin 16) (pa : Fin 8) (pb : Fin 8) (ma : Option (Fin 8))
      (mb : Option (Fin 8))
  /-- CMAC (R296): Complex multiply-accumulate into the four accumulators. -/
  | cmac (core : Fin 24) (gx : Fin 16) (gy : Fin 16)
  /-- CMACJ (R312): Conjugate complex multiply-accumulate. -/
  | cmacj (core : Fin 24) (gx : Fin 16) (gy : Fin 16)
  /-- CMSU (R312): Complex multiply-subtract. -/
  | cmsu (core : Fin 24) (gx : Fin 16) (gy : Fin 16)
  /-- CMSUJ (R312): Conjugate complex multiply-subtract. -/
  | cmsuj (core : Fin 24) (gx : Fin 16) (gy : Fin 16)
  /-- CMUL (R312): Complex multiply into the accumulators. -/
  | cmul (core : Fin 24) (gx : Fin 16) (gy : Fin 16)
  /-- CMULJ (R312): Conjugate complex multiply into the accumulators. -/
  | cmulj (core : Fin 24) (gx : Fin 16) (gy : Fin 16)
  /-- RMAC (R312): Real multiply-accumulate of halves. -/
  | rmac (core : Fin 24) (gx : Fin 16) (gy : Fin 16) (acc : Fin 4) (hx : Bool) (hy : Bool)
  /-- RMSU (R312): Real multiply-subtract of halves. -/
  | rmsu (core : Fin 24) (gx : Fin 16) (gy : Fin 16) (acc : Fin 4) (hx : Bool) (hy : Bool)
  /-- RMUL (R312): Real multiply of halves. -/
  | rmul (core : Fin 24) (gx : Fin 16) (gy : Fin 16) (acc : Fin 4) (hx : Bool) (hy : Bool)
  /-- CMACLD (R312): CMAC with dual load. -/
  | cmacld (core : Fin 24) (gx : Fin 16) (gy : Fin 16) (px : Fin 8) (py : Fin 8) (mx : Fin 8) (my : Fin 8)
  /-- CMACJLD (R312): CMACJ with dual load. -/
  | cmacjld (core : Fin 24) (gx : Fin 16) (gy : Fin 16) (px : Fin 8) (py : Fin 8) (mx : Fin 8) (my : Fin 8)
  /-- CMSULD (R312): CMSU with dual load. -/
  | cmsuld (core : Fin 24) (gx : Fin 16) (gy : Fin 16) (px : Fin 8) (py : Fin 8) (mx : Fin 8) (my : Fin 8)
  /-- CMSUJLD (R312): CMSUJ with dual load. -/
  | cmsujld (core : Fin 24) (gx : Fin 16) (gy : Fin 16) (px : Fin 8) (py : Fin 8) (mx : Fin 8) (my : Fin 8)
  /-- CLRA (R317): Clear the masked accumulators. -/
  | clra (core : Fin 24) (mask : BitVec 4)
  /-- MVAG (R312): Move a rounded, saturated accumulator into a g register. -/
  | mvag (core : Fin 24) (g : Fin 16) (acc : Fin 4) (k : Fin 32)
  /-- MVGA (R312): Move a g register into an accumulator. -/
  | mvga (core : Fin 24) (g : Fin 16) (acc : Fin 4)
  /-- ACOPY (R312): Copy one accumulator into another. -/
  | acopy (core : Fin 24) (acc : Fin 4) (acc2 : Fin 4)
  /-- AADD (R312): Add two accumulators. -/
  | aadd (core : Fin 24) (acc : Fin 4) (acc2 : Fin 4)
  /-- ASUB (R312): Subtract two accumulators. -/
  | asub (core : Fin 24) (acc : Fin 4) (acc2 : Fin 4)
  /-- CMBG (R317): Combine the accumulators into a complex g value. -/
  | cmbg (core : Fin 24) (g : Fin 16) (k : Fin 32)
  /-- STAC (R317): Store the combined complex accumulator result. -/
  | stac (core : Fin 24) (p : Fin 8) (pm : Option (Fin 8)) (k : Fin 32)
  /-- STAH (R312): Store a rounded accumulator halfword. -/
  | stah (core : Fin 24) (p : Fin 8) (pm : Option (Fin 8)) (acc : Fin 4) (k : Fin 32)
  /-- MVTP (R309): Move a g register into a pointer. -/
  | mvtp (core : Fin 24) (g : Fin 16) (k : Fin 8)
  /-- MVTM (R312): Move a g register into an offset register. -/
  | mvtm (core : Fin 24) (g : Fin 16) (k : Fin 8)
  /-- MVTL (R295): Move a g register into a circular length. -/
  | mvtl (core : Fin 24) (g : Fin 16) (k : Fin 8)
  /-- MVTB (R295): Move a g register into a circular base. -/
  | mvtb (core : Fin 24) (g : Fin 16) (k : Fin 8)
  /-- MVFP (R312): Move a pointer into a g register. -/
  | mvfp (core : Fin 24) (g : Fin 16) (k : Fin 8)
  /-- MVFM (R312): Move an offset register into a g register. -/
  | mvfm (core : Fin 24) (g : Fin 16) (k : Fin 8)
  /-- MVFL (R312): Move a circular length into a g register. -/
  | mvfl (core : Fin 24) (g : Fin 16) (k : Fin 8)
  /-- MVFB (R312): Move a circular base into a g register. -/
  | mvfb (core : Fin 24) (g : Fin 16) (k : Fin 8)
  /-- MVTS (R318): Move a g register into a special register. -/
  | mvts (core : Fin 24) (g : Fin 16) (k : Fin 10)
  /-- MVFS (R312): Move a special register into a g register. -/
  | mvfs (core : Fin 24) (g : Fin 16) (k : Fin 10)
  /-- LIP (R312): Load a pointer with an immediate. -/
  | lip (core : Fin 24) (k : Fin 8) (imm : BitVec 21)
  /-- LIM (R312): Load an offset register with an immediate. -/
  | lim (core : Fin 24) (k : Fin 8) (imm : BitVec 21)
  /-- LIL (R312): Load a circular length with an immediate. -/
  | lil (core : Fin 24) (k : Fin 8) (imm : BitVec 21)
  /-- LIB (R312): Load a circular base with an immediate. -/
  | lib (core : Fin 24) (k : Fin 8) (imm : BitVec 21)
  /-- PARTICLE_STRIKE (R478): A worn cell or a particle strike corrupts one or more symbols of a stored codeword in a
  coded memory. -/
  | particleStrike (m : Fin 6) (word : BitVec 20) (errs : List (Fin 68 × BitVec 4))
  /-- TWIN_BRIDGE_TRAINING (R102): Bridge training started by the twin arrives on the Bridge lanes of a chip in Light
  Hold and wakes it. -/
  | twinBridgeTraining
  /-- HEARTBEAT_CHECK_RESUME (R107): 2 ms after a chip's own Light Hold wake source, with the Bridge not yet
  retrained, the chip resumes counting missed heartbeats. -/
  | heartbeatCheckResume
  /-- MSIX_UNMASK (R422): The host clears the mask of an MSI-X vector, and a withheld message is sent if the vector's
  condition is still true. -/
  | msixUnmask (vector : Fin 32)
  /-- MAKER_ERASE_COMPLETE (R69): The maker erase finishes within 40 ms: the ERASE_DONE fuse is blown, the MAKER_ENTRY
  record is written, EV_118 is raised and SPINE.STATE becomes MAKER. -/
  | makerEraseComplete
  /-- PATH_TEST_END (R441): A path self-test ends: the saved fields and calibration values are restored with a
  synchronising reset, fence reasons and BIST records are set, and PATH_TEST completes. -/
  | pathTestEnd (p : PathTested) (c1 : List Int) (c2 : List Int) (c3 : List Int) (c4 : List Int)
  /-- LATCHING_READ (R516): A read of a LO register such as TIME.NOW_NS, PPS_IN_NS, OWD_RESULT_LO,
  DRONE.WAKE_COUNT_LO, HOD DESC_LO or FAULT_ADDR_LO latches its partner registers. -/
  | latchingRead (p : Port) (addr : BitVec 26)
  deriving DecidableEq, Repr

end Sys2Proof
end

