-- ==== Sys2Proof/Decode.lean ====
section
/-! DEFINITION. The words of the opcode table: its rows are commands of a block and give no bits, so no word spells one.
The instruction words of the Faeror cores, which the cores fetch from their own program memories, are read in
Machine/Faeror.lean. -/

namespace Sys2Proof

/-- The command that a word spells by the bits of the opcode table. -/
def decodeTableWord (nbits w : Nat) : Option Instr :=
  match nbits, w with
  | _, _ => none

end Sys2Proof
end

