-- ==== Sys2Proof/Config.lean ====
section
/-! DEFINITION. What one part fixes (its fuses) and the free values: constants without a body, of which a claim holds
whatever they are. -/

namespace Sys2Proof.Config

/-- The fused 64-bit die identity DEVICE_UID (R28, R62): fixed by each part. -/
opaque deviceUid : BitVec 64

/-- The SHA-384 digest held in the maker key fuses (R32): fixed by each part. -/
opaque makerKeyDigest : BitVec 384

/-- The fused maker minimum version (R40): fixed by each part. -/
opaque makerMinVersion : Nat

/-- The fused MAC address of the fronthaul port (LINK.MAC): fixed by each part. -/
opaque linkMac : BitVec 48

/-- SHA-384 of a byte string. The model uses no property of the hash (FIPS 180-4 is outside the spec). -/
opaque sha384 : List Byte → BitVec 384

/-- Whether a 96-byte signature verifies under a 97-byte public point over a digest (R30, R44; FIPS 186-5 is outside
the spec). -/
opaque ecdsaVerify : List Byte → BitVec 384 → List Byte → Bool

/-- The 32 bytes of the n-th nonce that ROLE_CHALLENGE draws (R44). -/
opaque freshNonce : Nat → BitVec 256

/-- Whether a TILE_MAP payload marks a tile position fitted (R188, R192): the spec gives no layout for it. -/
opaque tileFitted : List Byte → Nat → Bool

/-- The PRODUCT_ID and MANUFACTURER_ID that a TILE_MAP payload declares for a slot of a tile, none for an empty slot
(R192). -/
opaque tileSlot : List Byte → Nat → Nat → Option (Nat × Nat)

/-- The initial register list that a TILE_MAP payload gives a tile: USID, address and byte (R192, R195). -/
opaque tileInit : List Byte → Nat → List (Nat × Nat × Byte)

/-- The factory USID that a TILE_MAP payload gives a slot of a tile (R192). -/
opaque tileFactoryUsid : List Byte → Nat → Nat → Nat

/-- The register of a tile's aerial tuner that takes a tuner code (R207): the spec names none. -/
opaque tileTunerReg : List Byte → Nat → Nat

/-- The number of tuner codes of a tile, 0 without a tuner (R207). -/
opaque tileTunerCodes : List Byte → Nat → Nat

/-- How a GEOMETRY payload names the chip: 0 single, 1 WEST, otherwise EAST (R25): the spec gives no register for it. -/
opaque geometrySide : List Byte → Nat

/-- The fused temperature coefficients k_rx and k_tx in 0.0001 dB per °C (R469): fixed by each part. -/
opaque kRx : Int
opaque kTx : Int

/-- The spare rows and spare column groups that the fuses map in memory `m` (R490): fixed by each part. -/
opaque spares : Nat → Nat × Nat

/-- The maker's trim of a path's gain table in 0.01 dB, and of its receive calibration row entry, which stand until a
calibration gives a result (R428): fixed by each part. -/
opaque gainTrim : Nat → List Int
opaque rowTrim : Nat → BitVec 32
/-- The cores that the maker firmware names for the SCAN line (R284): fixed by the firmware, which the spec does not
give. -/
opaque scanCore : Nat → Bool

/-- Where the pilot copy of an entry and a slot symbol goes (R264): a maker core, and a word of its data memory. -/
opaque pilotPlace : Nat → Nat → Nat × Nat

/-- The output of the decimator by 2^m for the path samples that enter it, in units of 2^-49: a carrier sample in units of
2^-32 (R128): the spec gives its stages and no taps. -/
opaque decimated : Nat → List (Int × Int) → Int × Int

/-- The n-th free value: a value the spec leaves open, taken from no rule. -/
opaque freeValue : Nat → Nat

/-- A value the spec leaves open as a function of what it depends on: a tag of the use and the operands. -/
opaque freeOf : Nat → List Nat → Nat

end Sys2Proof.Config
end

