-- ==== Sys2Proof/Machine/State.lean ====
section
/-! DEFINITION. The state of the ZL6464 as plain data: its registers, memories, queues, modes, pins and timers, the
queue of waiting commands, and the state right after power-up. -/

namespace Sys2Proof.Machine

/-! ## Registers -/

/-- The access codes of the register tables (00_scope, access codes). -/
inductive Access where
  | rw
  | ro
  | wo
  | w1c
  | w1s
  | sh
  deriving DecidableEq, Repr

/-- One field of a register: where it lies, its width and its reset value. -/
structure Fld where
  addr : Nat
  lo : Nat
  w : Nat
  rst : Nat
  deriving DecidableEq, Repr

/-- One row of a register table: bit range, access, changing roles (empty for hardware only) and reset value. -/
structure FieldRow where
  lo : Nat
  w : Nat
  access : Access
  roles : List Role
  rst : Nat
  deriving DecidableEq, Repr

/-- One register family of a table: its base, the strides of its instances, and its fields. -/
structure RegFam where
  base : Nat
  dims : List (Nat × Nat)
  fields : List FieldRow
  deriving DecidableEq, Repr

/-- Register contents: the fields that differ from their reset value, by field key, in rising order. -/
abbrev FieldMap := List (Nat × Nat)

/-! ## States, resets and power (chapters 01 and 03) -/

/-- The eight device states of SPINE.STATE, in the order of their codes. -/
inductive DevState where
  | bare
  | unlathed
  | lathed
  | service
  | doze
  | lightHold
  | fault
  | maker
  deriving DecidableEq, Repr

/-- The kinds of reset (03, power-up and resets; R537 for the brown-out). -/
inductive ResetKind where
  | powerUp
  | cold
  | warm
  | brownOut
  | deepWake
  deriving DecidableEq, Repr

/-- Whether the spine runs: in a reset from its start to spine release, running, entering Deep Hold, or in it. -/
inductive Phase where
  | reset (k : ResetKind)
  | run
  | deepEntry
  | deepHold
  deriving DecidableEq, Repr

/-- Why the drone last left Deep Hold (DRONE.POWER.WAKE_CAUSE). -/
inductive WakeCause where
  | none
  | timer
  | qspi
  | sagRelease
  | resetPin
  deriving DecidableEq, Repr

/-- The drone domain: its registers, the journal tail latch and the quad-SPI port's own state. -/
structure Drone where
  straps : Straps
  /-- Tick-clock periods since power-up: 7,500 of them make one 32.768 kHz period. -/
  ticks : Nat
  /-- DRONE.WAKE_COUNT_HI as the last read of LO latched it. -/
  countHi : Nat
  wakeCompare : Nat
  /-- WAKE_TICKS of the Deep Hold entry under way (R108). -/
  wakeTicks : Nat
  wakeCause : WakeCause
  refClass : Nat
  refCount : Nat
  writesDropped : Nat
  streamDropped : Nat
  /-- A RESET_ENABLE frame was the last frame (R526). -/
  resetEnabled : Bool
  /-- The tail latch: SEQ and digest of the last record written (R62). -/
  tail : Option (Nat × BitVec 384)
  /-- SAG_N is low after its filter (R470), and whether the sag policy commanded the present Deep Hold (R109). -/
  sagLow : Bool
  sagHold : Bool
  /-- The tick since which SAG_N has been at its present level. -/
  sagTick : Nat
  /-- A wake source of Deep Hold that came during the entry (R109). -/
  wakeHeld : Option WakeCause
  /-- REFCLK was classed since power-up (R13, R14). -/
  refDone : Bool
  deriving DecidableEq, Repr

/-- An installer key slot in the fuses (R41). -/
structure InstSlot where
  digest : BitVec 384
  valid : Bool
  revoked : Bool
  deriving DecidableEq, Repr

/-- The fuses that commands blow (R41, R69). -/
structure Fuses where
  slots : Vector InstSlot 4
  returned : Nat
  eraseDone : Nat
  deriving DecidableEq, Repr

/-- A nonce of ROLE_CHALLENGE: its role, its bytes and the tick at which it was drawn (R44). -/
structure Nonce where
  role : Role
  bytes : BitVec 256
  since : Nat
  deriving DecidableEq, Repr

/-- The session of one host port (R44 to R46). -/
structure Session where
  role : Option Role
  keySlot : Nat
  nonce : Option Nonce
  fails : Nat
  /-- The tick of the fourth failure while the port is locked out (R45). -/
  lockedAt : Option Nat
  deriving DecidableEq, Repr

/-! ## Lath, journal and capsule (chapter 02) -/

/-- A signed lath record in force, or checked and waiting: its header fields and its bytes from TYPE to the end of
SIGNATURE, which hold its payload. -/
structure LathRec where
  typ : Nat
  role : Nat
  slot : Nat
  version : Nat
  bytes : List Byte
  deriving DecidableEq, Repr

/-- A public key that a KEY record brought and the loader trusts (R31, R32). -/
structure RoleKey where
  role : Nat
  slot : Nat
  point : List Byte
  deriving DecidableEq, Repr

/-- A checked image: its byte range in capture memory, its serial, its records, its keys, mode and target bar. -/
structure LathLoad where
  offset : Nat
  length : Nat
  serial : Nat
  recs : List LathRec
  keys : List RoleKey
  mode : Nat
  targetBar : Nat
  deriving DecidableEq, Repr

/-- The lath: what is in force, and an accepted live re-lath not yet applied (R56). -/
structure Lath where
  recs : List LathRec
  keys : List RoleKey
  pending : Option LathLoad
  /-- The twin's reported pending operator digest and TARGET_BAR (R58). -/
  twinPending : Option (BitVec 128 × Nat)
  deriving DecidableEq, Repr

/-- The journal's counts; the record images lie in spine memory (R61 to R65). -/
structure Journal where
  /-- SEQ of the oldest record not acknowledged. -/
  first : Nat
  /-- SEQ of the next record. -/
  next : Nat
  /-- Device records that found no place and wait to be counted by a LOST_RECORDS record. -/
  lost : Nat
  /-- SEQ of the last FAULT record, for STATE_INFO. -/
  lastFault : Option Nat
  /-- Records received from the twin: how many ever, and how many the ring still holds. -/
  twinNext : Nat
  twinHeld : Nat
  /-- SEQ of the first record not yet sent to the twin. -/
  sent : Nat
  capsuleValid : Bool
  laterFaults : Nat
  deriving DecidableEq, Repr

/-! ## Memories (chapter 17) -/

/-- What a codeword of a coded memory decodes as (R476 to R484): clean, correctable with an error pattern in one symbol,
uncorrectable, or the poison pattern. The bytes of a correctable word are held corrected. -/
inductive Mark where
  | clean
  | correctable (sym err : Nat)
  | uncorrectable
  | poisoned
  deriving DecidableEq, Repr

/-- One coded memory: the bytes that differ from 0, the words that are not in the resting mark, and that mark, which
every word that is not listed decodes as. -/
structure CodedMem where
  bytes : List Host.Cell
  marks : List (Nat × Mark)
  rest : Mark
  deriving DecidableEq, Repr

/-- One record of the error log (R492). -/
structure ErrRec where
  addr : Nat
  mem : Nat
  kind : Nat
  req : Nat
  symbol : Nat
  time : Nat
  deriving DecidableEq, Repr

/-- The memory-integrity unit's state beside its registers: the error log, the corrected codewords that wait to be
written back (memory and word), and the tick at which each memory's present Skim lap read word 0. -/
structure MemInt where
  log : List ErrRec
  writeBacks : List (Nat × Nat)
  lapStart : List (Nat × Nat)
  deriving DecidableEq, Repr

/-! ## Host accesses that wait (R513, R517, R520, R524) -/

/-- An access of a host port: a dword of the index-0 BAR read, or written under a bit mask; an index-2 window read, or
written; a quad-SPI read whose space or alignment is invalid; and a PCIe reset that comes after posted writes. -/
inductive HostAcc where
  | regRead (addr : Nat)
  | regWrite (addr value mask : Nat)
  | winRead (offset : Nat)
  | winWrite (offset : Nat) (bytes : List Byte)
  | void
  | pcieReset
  deriving DecidableEq, Repr

/-- An access and the port that made it. -/
structure HostReq where
  port : Port
  acc : HostAcc
  deriving DecidableEq, Repr

/-! ## Outputs of one step -/

/-- A complex sample: I and Q, in the unit that its holder names. -/
abbrev Sample := Int × Int

/-- A frame on the fronthaul: its destination MAC, the VID and PCP of its tag (R322), its priority under R353, its eCPRI
type (7 stands for PTP), its PC_ID or RTC_ID, its sequence ID, and the bytes after SEQ_ID (for PTP, the frame). -/
structure LinkMsg where
  dst : Nat
  tag : Option (Nat × Nat)
  prio : Nat
  typ : Nat
  id : Nat
  seq : Nat
  body : List Byte
  frame : List Byte
  deriving DecidableEq, Repr

/-- A frame on the Bridge: the header fields of R357 and its payload. -/
structure BridgeMsg where
  kind : Nat
  seq : Nat
  epoch : Nat
  payload : List Byte
  deriving DecidableEq, Repr

/-- A register write sent to an RFFE slave: bus, USID, register address and bytes (R191, R210). -/
structure RffeMsg where
  bus : Nat
  usid : Nat
  addr : Nat
  bytes : List Byte
  deriving DecidableEq, Repr

/-- A write to host memory over PCIe: its bus address, its bytes, and whether it carries the EP bit (R502). -/
structure HostWrite where
  addr : Nat
  bytes : List Byte
  ep : Bool
  deriving DecidableEq, Repr

/-- What one step sends: it is emptied at the start of every step. -/
structure Out where
  link : List LinkMsg
  bridge : List BridgeMsg
  /-- MSI-X vectors whose message was sent (R422). -/
  msix : List Nat
  /-- Read data given to a host port: the word and whether it is poisoned. -/
  reads : List (Word × Bool)
  /-- Quad-SPI bytes out (R522, R523). -/
  qspi : List Byte
  rffe : List RffeMsg
  host : List HostWrite
  /-- The symbols that the engine formed: carrier, path, and the samples in units of 2^-15 (R216). -/
  air : List (Nat × Nat × List Sample)
  /-- The codes that the DACs took: path, and the codes of I and Q (R157). -/
  dac : List (Nat × List (Nat × Nat))
  deriving DecidableEq, Repr

/-! ## The whole -/

/-- A command that is accepted and not complete (R529, R530): what it waits for. -/
inductive Job where
  /-- SERVICE_START until the START_BAR boundary; whether the twin has agreed (R88, R89). -/
  | serviceStart (bar : Nat) (agreed : Bool)
  /-- SERVICE_STOP until the next fret boundary (R90). -/
  | serviceStop
  /-- LATH_LOAD from the stream: OFFSET, LENGTH, MODE, TARGET_BAR, the bytes so far, and the tick of the last byte
  (R48, R525). -/
  | lathStream (offset length mode bar received lastTick : Nat)
  /-- A LATH_LOAD whose reads wait for HOSTACC grains: OFFSET, LENGTH, MODE and TARGET_BAR (R54, R408). -/
  | lathWait (offset length mode bar : Nat)
  /-- A LATH_LOAD whose image passed every check and is about to be applied (R53). -/
  | lathChecked (load : LathLoad)
  /-- A mode 2 LATH_LOAD whose image passed every check and waits for the twin's equal report (R58). -/
  | lathAgree (load : LathLoad)
  /-- MAKER_ENTER while the erase runs (R69). -/
  | makerErase
  /-- LIGHT_HOLD_ENTER on the lead, waiting for the follow's answer (R107). -/
  | lightHold
  /-- DEEP_HOLD_ENTER reports DONE before the entry; nothing waits. A command that uses a path, decoded in DOZE: it
  runs once the wake completes (R113). -/
  | waitWake (opcode : Nat)
  /-- A command that waits for grains of its class until the next fret (R408). -/
  | waitBudget (opcode : Nat)
  /-- PATH_PREPARE until its passes end: the paths that still run, and those prepared (R208). -/
  | pathPrepare (left done : Nat)
  /-- SYN_HOP until every named synthesizer is LOCKED: those still to lock, and the branches taken (R183). -/
  | synHop (left : List Nat) (branches : List (Nat × Nat))
  /-- SYN_CAL until the synthesizer is back on its channel: the slot once it is known (R209). -/
  | synCal (x : Nat) (slot : Nat)
  /-- RFFE_XFER that waits for its bus: bus, USID, word 8 of its arguments, and the bytes to write (R195, R210). -/
  | rffeXfer (bus usid w : Nat) (data : List Byte)
  /-- AERIAL_TUNE: the paths, the codes tried or being tried, and each path's best return loss and code (R207). -/
  | aerialTune (paths : List Nat) (codes : Nat) (best : List (Nat × Nat × Nat))
  /-- RX_SYNC until the next fret boundary: its path mask (R139). -/
  | rxSync (mask : Nat)
  /-- A registry command that waits for its MIRRORs, or for the lead (R364, R365). -/
  | registry
  /-- CAL_RUN until its pass ends: its ID and the paths it acts on (R452). -/
  | calRun (id mask : Nat)
  /-- PATH_TEST: the paths still to test, those passed and failed, and the quarters whose check 1 failed (R440 to
  R443). -/
  | pathTest (left passed failed bad : Nat)
  /-- TIME_SET with WHEN = 1 until the next accepted PPS_IN edge: the time to load in ns, and its tick (R385). -/
  | timeSetPps (ns since : Nat)
  deriving DecidableEq, Repr

/-! ## Receive paths (chapter 04) -/

/-- Why a run of path samples is invalid (R130). -/
inductive SpanCause where
  | gainStep
  | filterChange
  | decimation
  | syncReset
  | retune
  | backOff
  | notActive
  deriving DecidableEq, Repr

/-- A run of invalid samples of paths `lo` to `hi` (in carrier `carrier`'s stream only, or in all): from path sample
`first` up to and without `stop`; without end while the cause lasts (R130, R131). -/
structure Span where
  lo : Nat
  hi : Nat
  carrier : Option Nat
  cause : SpanCause
  first : Nat
  stop : Option Nat
  deriving DecidableEq, Repr

/-- A correction whose value moves to the one in its register over 256 samples (R126, R156): kind 0 receive image, 1
receive DC, 2 transmit image, 3 transmit DC; its path, the value at the start in units of 2^-23, and the tick of the write
that started it. -/
structure Ramp where
  kind : Nat
  path : Nat
  re : Int
  im : Int
  tick : Nat
  deriving DecidableEq, Repr

/-- Receive-path state beside the registers: the invalid spans, the paths that backed off in this fret (R123), the paths
last seen ACTIVE (R130), and the corrections that move, of both directions. -/
structure RxState where
  spans : List Span
  backedOff : List Nat
  active : List Nat
  ramps : List Ramp
  deriving DecidableEq, Repr

/-! ## Transmit paths, observation and capture (chapter 05) -/

/-- A waiting request for an observation receiver (R162, R163): its class, path, source (0 forward, 1 reverse,
2 loop-back), length in grains, and what asked: 0 a capture channel, 1 adaptation, 2 calibration. -/
structure ObsReq where
  cls : Nat
  path : Nat
  source : Nat
  grains : Nat
  by_ : Nat
  deriving DecidableEq, Repr

/-- The capture of a pass under its grant: class, path and source, the tick from which its receiver delivers samples, and that
of the timing-carrier symbol start at which it began (R163, R205, R435). -/
structure ObsStart where
  cls : Nat
  path : Nat
  source : Nat
  ready : Nat
  start : Option Nat
  deriving DecidableEq, Repr

/-- One observation receiver: its queue, oldest first, the tick at which its grant ends, and the tick from which it
delivers samples, after the settling of its grant (R163). -/
structure ObsRx where
  queue : List ObsReq
  until_ : Nat
  ready : Nat
  deriving DecidableEq, Repr

/-- One capture channel beside its registers: COUNT, a held LENGTH (R169), the words still to come in the capture that
runs, whether WPTR stands at the old end while a LENGTH is held, the tick from which samples are taken (R166), and the
samples that do not fill a word yet. -/
structure CapState where
  count : Nat
  held : Option Nat
  left : Nat
  atEnd : Bool
  start : Nat
  part : List Sample
  deriving DecidableEq, Repr

/-- DPD adaptation that runs (R154, R155): paths, whether it repeats, its period, the next fret of a pass, the paths
left in the present pass, and whether the first of them has its new bank requested and not yet measured, and that bank. Of
its present capture: a timing-carrier symbol has started since the receiver was granted, and the tick of that start. -/
structure DpdRun where
  mask : Nat
  repeats : Bool
  period : Nat
  nextFret : Nat
  left : List Nat
  fitted : Bool
  bank : Nat
  taken : Bool
  since : Nat
  deriving DecidableEq, Repr

/-- The tone of a path that is active (R160, R161): the phase at the tick at which it was loaded, and its FTW, AMP and
MODE. -/
structure Tone where
  path : Nat
  phase : Nat
  tick : Nat
  ftw : Nat
  amp : Nat
  replaces : Bool
  deriving DecidableEq, Repr

/-- What the transmit chains went by at one time, beside the settings that follow the timing carrier: the carriers that are
enabled and have had a symbol start since they restarted (R142), the tones, the paths whose DAC takes samples (R159), and
those whose mute switch is closed with a synthesizer LOCKED. -/
structure ChainView where
  carriers : List Nat
  tones : List Tone
  live : List Nat
  onAir : List Nat
  deriving DecidableEq, Repr

/-- What a crest-reduction stage of a path keeps between stretches (R146), places counted from the first sample to come: the
last 63 samples of its input, as far as they are worked through, the pulses that reach further (centre, pulse set and
factor), the centres of the last peaks cancelled, and the last two samples of its doubled copy. Stage 2 holds the last two
of the doubled result. -/
structure CfrMem where
  path : Nat
  stage : Nat
  tail : List Sample
  pulses : List (Int × Nat × Sample)
  recent : List Int
  ends : List Sample
  deriving DecidableEq, Repr

/-- Transmit state beside the registers. -/
structure TxState where
  /-- Path-wide settings in force at the chain, by field key (R143, R148): they follow the active copies at
  timing-carrier symbol starts. -/
  inForce : FieldMap
  /-- The paths whose mute switch is closed (R158). -/
  closed : List Nat
  /-- The compensation factors in force of the eight tiles' carrier sums, in 0.0001 dB (R469). -/
  comp : List Int
  tones : List Tone
  /-- What the chains go by at the end of the last command, and what they went by before, with the tick at which each came to
  an end, latest first. -/
  view : ChainView
  past : List (Nat × ChainView)
  cfr : List CfrMem
  /-- Transmit carriers that contribute zero until their next symbol start (R142). -/
  restarting : List Nat
  /-- Transmit carriers whose symbol in progress is due and not discarded on a half: keys 4 h + c (R186). -/
  dueNow : List Nat
  /-- The halves that have locked, or woken, and wait for the timing-carrier symbol start at which they resume (R97,
  R186). -/
  resuming : List Nat
  obs : Vector ObsRx 4
  /-- Grants of observation time to DPDADAPT and CAL that their passes have not used yet (R162). -/
  granted : List ObsReq
  /-- The captures under those grants. -/
  starts : List ObsStart
  caps : Vector CapState 8
  dpd : Option DpdRun
  deriving DecidableEq, Repr

/-! ## Synthesizers, tiles and bias (chapter 06) -/

/-- What a synthesizer is doing on its way to lock (R179, R184, R209). -/
inductive SynWork where
  | hop
  | fallback
  | full
  deriving DecidableEq, Repr

/-- One synthesizer beside its registers. -/
structure SynState where
  /-- The channel its last SYN_HOP named since power-up (R175). -/
  named : Option Nat
  /-- A SYN_HOP that has not taken effect: channel and WHEN (R182). -/
  pending : Option (Nat × Nat)
  work : Option SynWork
  /-- The relock of R184 skips the hop rule; its full calibration may fail. -/
  relock : Bool
  /-- SYN_CAL runs: the channel calibrated, whether to pin it, and the channel to return to (R209). -/
  cal : Option (Nat × Bool × Nat)
  /-- Slots in the order of their last use, least recent first (R178). -/
  order : List Nat
  /-- Slots whose entry has DRIFT set (R177). -/
  drift : List Nat
  /-- VCO band and capacitor codes of the slots. -/
  codes : List (Nat × Nat)
  /-- EV_36 was raised in this unlocked period (R187). -/
  dropRaised : Bool
  /-- It failed, and no SYN_CAL of it has succeeded since: the SYNTH fences of its half go by it (R190). -/
  fencing : Bool
  deriving DecidableEq, Repr

/-- One tile position beside its registers. -/
structure TileState where
  /-- The level of TILE_PRES_t is low. -/
  pin : Bool
  /-- A presence change that waits to be handled (R194), and whether one of those that wait is a removal. -/
  latched : Bool
  removed : Bool
  /-- Tick at which the presence pin went low. -/
  since : Nat
  /-- Queued for enumeration (R195). -/
  queued : Bool
  vio : Bool
  /-- Tick of the strobe that set BIAS_READY and starts DRAIN_DELAY, if one did (R203, R204). -/
  strobeTick : Option Nat
  deriving DecidableEq, Repr

/-- One bias channel beside its registers: the tick at which its 2 µs safe output began (R201), whether a strobe fell
inside it, and the last strobed code and range (R105). -/
structure BiasState where
  safeSince : Option Nat
  strobed : Bool
  /-- A range change holds the safe output until the next strobe. -/
  ranged : Bool
  /-- The output is high impedance (R199). -/
  hiZ : Bool
  kept : Option (Nat × Nat)
  deriving DecidableEq, Repr

/-! ## The spectral engine (chapter 07) -/

/-- A bank select that has not taken effect: target bank, F, and the edge that still has to trigger it (0: triggered;
1: the next fret boundary; 8 to 15: a time compare) (R228). -/
structure Select where
  bank : Nat
  f : Nat
  edge : Nat
  deriving DecidableEq, Repr

/-- A running fade: the map entries of its source (none: the blend-capture slot) and of its target, F, and k of the
present symbol (R229, R230). -/
structure Fade where
  src : Option (List Nat)
  tgt : List Nat
  f : Nat
  k : Nat
  deriving DecidableEq, Repr

/-- What governs a layer in a symbol (R18): its slot, its mantissa width code, its active map's entries (a damaged one
not VALID), the fade that runs, and the 68 lines that a fade from the capture slot read, once the slot is overwritten
(R230). -/
structure LayerLatch where
  slot : Nat
  width : Nat
  entries : List Nat
  fade : Option Fade
  frozen : Option (List (List Nat))
  deriving DecidableEq, Repr

/-- One layer slot beside its registers. -/
structure LayerState where
  select : Option Select
  fade : Option Fade
  deriving DecidableEq, Repr

/-- A value that moves in eight steps (R436): row 0 is the receive calibration row, 1 the transmit calibration row, 2
SEAM.PHASE; the path, the old and new values, and the steps made. -/
structure CalStep where
  row : Nat
  path : Nat
  old : Nat
  new : Nat
  k : Nat
  deriving DecidableEq, Repr

/-! ## The window scheduler (chapter 08) -/

/-- An occurrence, or a one-off window, that has not opened: the entry, its first and last fret by absolute number, and
whether REG_WINDOW opened it (R253, R277). -/
structure Occ where
  index : Nat
  start : Int
  last : Int
  oneOff : Bool
  deriving DecidableEq, Repr

/-- A window of a fret (R255): the entry, its class priority, the occurrence's first fret, the fret in which it opens and
its last fret, its PRB groups, its layers and scheduler rows (none: a grid row) in each direction, whether its rows come
from the grid by R249, whether its downlink is silent here (R238, R258), whether REG_WINDOW opened it, and its PRBs. -/
structure Win where
  index : Nat
  prio : Nat
  start : Int
  opens : Int
  last : Int
  g0 : Nat
  g1 : Nat
  ul : Option Nat
  dl : Option Nat
  ulRow : Option Nat
  dlRow : Option Nat
  ulGrid : Bool
  dlGrid : Bool
  silent : Bool
  oneOff : Bool
  prbStart : Nat
  prbCount : Nat
  deriving DecidableEq, Repr

/-- The scan's settings in force: CARRIER, PRB_COUNT, PRB_START and SHIFT (R236). -/
structure ScanSet where
  carrier : Nat
  prbs : Nat
  first : Nat
  shift : Nat
  deriving DecidableEq, Repr

/-- A symbol of an uplink carrier under the settings of its start (R18): its instant in ns, slot and index; the path
sample at which it started and its length in path samples; the transform size, SCS code, PRB count, UL_SHIFT, UL_WIN_ADV
and LOG2_D; its layers, the paths ACTIVE at its start, the uplink windows open in it whose pilots are copied from it, and
whether the carrier is extracted (R128). Then the gain compensation of each path in 0.0001 dB, the paths on filter set B,
and IF + OFFSET in each half; the paths FENCED, or of a DFE domain that is not On; and the scan's settings, if the symbol
is scanned. -/
structure SymLatch where
  ns : Nat
  slot : Nat
  sym : Nat
  start : Nat
  span : Nat
  n : Nat
  scs : Nat
  prbs : Nat
  shift : Nat
  winAdv : Nat
  log2D : Nat
  layers : List LayerLatch
  active : List Nat
  wins : List Win
  extracted : Bool
  gain : List Int
  setB : List Nat
  freq : List Int
  fenced : List Nat
  scan : Option ScanSet
  deriving DecidableEq, Repr

/-- A copy of the pilots of an entry in one symbol (R264): the entry, its ENDPOINT_ID, the fret and symbol, the mask of the
paths marked in it, its PRBs, the core and word of data memory where it goes, and its bytes until they are written. -/
structure PilotCopy where
  index : Nat
  ident : Nat
  fret : Nat
  sym : Nat
  marked : Nat
  prbs : Nat
  core : Nat
  word : Nat
  data : List Byte
  deriving DecidableEq, Repr

/-- Spectral state beside the registers: the 96 layer slots s = 48 d + l, the word of the scan ring at which the next
record begins, the scan's settings in force (R236), the instants of the latest symbol starts in ns
plus 1 by key 4 d + c (0: none), the last two symbols of each uplink carrier, latest first, the steps under way, the
pilot copies that wait for grains, and those of the last frets that stand in data memory (R264, R265). -/
structure SpectralState where
  layers : Vector LayerState 96
  scanWptr : Nat
  scanSet : Option ScanSet
  symbols : List (Nat × Nat)
  latched : List (Nat × List SymLatch)
  calSteps : List CalStep
  pilots : List PilotCopy
  copied : List PilotCopy
  /-- Words of scan records that the detection firmware has yet to read, for want of grains of GRIDSCAN (R404). -/
  scanUnread : Nat
  deriving DecidableEq, Repr

/-- The window list of one fret: its windows in window-list order, the occurrences deferred from it, the entries that
deferrals and misses in it name, the entries whose rows are not built, whether the list is closed, the REVISION of the
map last sent and whether the list changed since (R338, R339), the TIMING_OFFSET and CFO of its first sending by entry, and the
layer slots whose staging maps are written for it (R232). -/
structure PrepFret where
  fret : Int
  wins : List Win
  deferred : List Occ
  crowded : List Nat
  missed : List Nat
  unbuilt : List Nat
  closed : Bool
  revision : Option Nat
  changed : Bool
  offsets : List (Nat × Nat × Nat)
  maps : List Nat
  deriving DecidableEq, Repr

/-- Who issued a registry command: a host port, the fronthaul with its CMD_TAG, or the follow with its FORWARD's SEQ. -/
inductive RegOrigin where
  | host (port : Port)
  /-- Its CMD_TAG, and SPINE.STATE at its decode (R342). -/
  | fronthaul (tag state : Nat)
  | forward (seq : Nat)
  deriving DecidableEq, Repr

/-- A registry command: opcode, argument words and entry images (R275, R340). -/
structure RegMsg where
  origin : RegOrigin
  opcode : Nat
  args : List Nat
  images : List Byte
  deriving DecidableEq, Repr

/-- What the refresh firmware derived from the pilots of one fret (R265): the entry, its ENDPOINT_ID when the pilots were
taken, the paths that contributed with their phases, TIMING_OFFSET, CFO, QUALITY, and the pilots' fret. -/
structure Refresh where
  index : Nat
  ident : BitVec 40
  paths : BitVec 64
  phases : BitVec 256
  timing : BitVec 16
  cfo : BitVec 16
  quality : BitVec 8
  fret : Nat
  deriving DecidableEq, Repr

/-- A preamble that the detection firmware found on the scan feed (R267, R268). -/
structure Detection where
  short : Word
  bar : Word
  beam : BitVec 8
  slot : BitVec 8
  sym : BitVec 8
  preamble : BitVec 8
  timing : BitVec 16
  cfo : BitVec 16
  metric : BitVec 8
  carrier : Fin 4
  deriving DecidableEq, Repr

/-- Scheduler state beside the registers and the registry. -/
structure SchedState where
  /-- The present fret's list, and the prepared frets in order from the next one on. -/
  cur : PrepFret
  prep : List PrepFret
  /-- One-off windows of REG_WINDOW in frets to come. -/
  oneOffs : List Occ
  /-- Cancelled occurrences: entry, first fret, and the fret from which they are not open (R262, R277). -/
  cancels : List (Nat × Int × Int)
  /-- The suspension list, oldest first (R269). -/
  suspended : List Nat
  /-- The first fret whose occurrences each entry on that list has missed without their being counted (R257). -/
  lapsed : List (Nat × Int)
  /-- Entries whose preparation an undo cause has discarded, and the fret from which every entry's is (R261). -/
  stale : List Nat
  staleFrom : Option Int
  /-- EV_51 was raised in this fret (R266). -/
  refreshed : Bool
  /-- Registry commands decoded that wait for REGMAINT grains, in the order of their decode (R341, R408). -/
  waiting : List RegMsg
  /-- Refreshes and detections that wait for grains of SIGREF and GRIDSCAN, oldest first (R266, R267, R408). -/
  refreshes : List Refresh
  detections : List Detection
  deriving DecidableEq, Repr

/-! ## The fronthaul (chapter 11) -/

/-- A registry command that has run and waits for the MIRRORs it caused: their SEQs, and its status and results
(R364). -/
structure RegWait where
  msg : RegMsg
  seqs : List Nat
  code : Nat
  r0 : Nat
  r1 : Nat
  deriving DecidableEq, Repr

/-- A REG_RESP: its CMD_TAG, OPCODE and body (R342). -/
structure RegReply where
  tag : Nat
  opcode : Nat
  body : List Byte
  deriving DecidableEq, Repr

/-- A downlink section accepted for a symbol of a layer: the symbol start in ns, its mantissa width code, its PRBs and
their blocks (R332 to R335). -/
structure DlSymbol where
  layer : Nat
  ns : Nat
  width : Nat
  first : Nat
  count : Nat
  blocks : List Byte
  deriving DecidableEq, Repr

/-- The settle-mask bits that sections of a slot have carried: uplink layer, PRB range, the slot's bar and index, the
bits, and the instant of the last symbol sent (R329). -/
structure SettleRun where
  layer : Nat
  prb : Nat
  count : Nat
  bar : Nat
  slot : Nat
  mask : Nat
  last : Nat
  deriving DecidableEq, Repr

/-- A type 2 message that came, with its source (R336; one that comes in Light Hold is decoded once the wake completes): a
REG_CMD, an ANNOUNCE_ACK with its UID and BASEBAND_ID, or a WITNESS_VOTE with its LEAD_UID, OTHER_UID and EPOCH. -/
inductive HeldMsg where
  | cmd (src : Nat) (m : RegMsg)
  | ack (src uid ident : Nat)
  | vote (src lead other epoch : Nat)
  deriving DecidableEq, Repr

/-- Fronthaul state beside the LINK registers. -/
structure FhState where
  /-- The next sequence ID to send, and the last received, by PC_ID or RTC_ID (R326). -/
  seqTx : List (Nat × Nat)
  seqRx : List (Nat × Nat)
  accepted : List DlSymbol
  settle : List SettleRun
  /-- REG_CMDs queued, those ready to be answered, and the last 64 answers (R341, R342). -/
  queue : List RegMsg
  ready : List RegReply
  kept : List RegReply
  /-- Messages that came in Light Hold. -/
  held : List HeldMsg
  /-- Report records that wait (R343, R344). -/
  detects : List (List Byte)
  sigs : List (List Byte)
  /-- DL_LATE, DL_MISSING, FALLBACKS and MISSED at the latest bar boundary, and their rise over the bar before it
  (R345). A clear of the counts lowers the former by what it took off. -/
  barCounts : List Int
  barRise : List Nat
  /-- A STATUS is owed for a change, or for a bar boundary (R345). -/
  statusDue : Bool
  /-- An ANNOUNCE has been sent and no accepted ACK has come since (R348). -/
  announced : Bool
  /-- The bar in which ANNOUNCE and STATUS were last sent. -/
  announceBar : Nat
  statusBar : Nat
  /-- The running one-way delay measurement: t1 in ns and its tick (R352). -/
  owd : Option (Nat × Nat)
  /-- The last one-way delay result, for STATUS. -/
  owdLast : Nat
  /-- WITNESS_REQs sent since the declaration, and the tick of the last (R349). -/
  witnessSent : Nat
  witnessTick : Nat
  deriving DecidableEq, Repr

/-! ## Faeror cores and Hod (chapters 09, 10 and 18) -/

/-- FA_n.STATUS.RUNSTATE. -/
inductive RunState where
  | halted
  | running
  | waiting
  | stalled
  deriving DecidableEq, Repr

/-- A write of an instruction that later instructions see only after their slots have passed (R281, R308 to R310): a
loaded g register; the Z, N, C and V bits under a mask; a moved p, m, l or b register (file 0 to 3); a moved special
register; and ST moved, or restored from IST (none), with the sticky bits that hardware has set since (R298). -/
inductive LateEff where
  | load (r : Nat) (v : Word)
  | flags (mask val : Nat)
  | addr (file k : Nat) (v : Word)
  | spec (index : Nat) (v : Word)
  | status (v : Option Word) (keep : Nat)
  deriving DecidableEq, Repr

/-- A late write: it is seen by the instruction that issues when its count of slots has run out. -/
structure Late where
  slots : Nat
  eff : LateEff
  deriving DecidableEq, Repr

/-- A branch whose delay slots are not over: how many are left, and the target, none for IRET as it stands then. -/
structure Branch where
  slots : Nat
  target : Option Nat
  deriving DecidableEq, Repr

/-- An open REPEAT: the first and last instruction of its body and the iterations left, the present one included. -/
structure Loop where
  first : Nat
  last : Nat
  left : Nat
  deriving DecidableEq, Repr

/-- One Faeror core (R280 to R306). -/
structure Core where
  run : RunState
  loaded : Bool
  operator : Bool
  entry : Nat
  /-- Address of the next instruction to issue. -/
  pc : Nat
  g : Vector Word 16
  /-- The accumulators as a multiply at this place sees them, and as a store, move or shift does (R281). -/
  acc : Vector Int 4
  accOld : Vector Int 4
  p : Vector Word 8
  m : Vector Word 8
  l : Vector Word 8
  b : Vector Word 8
  st : Nat
  mode : Nat
  vbase : Nat
  iret : Nat
  ist : Nat
  ien : Nat
  cls : Nat
  timer : Nat
  dbell : Word
  start : Nat
  /-- Pending interrupt lines. -/
  irq : Nat
  late : List Late
  branch : Option Branch
  loops : List Loop
  /-- Cycles until the stores in flight reach WB, where they claim slot B (R288, R289). -/
  inFlight : List Nat
  /-- AV bits that the instruction before set (R298). -/
  lastAv : Nat
  haltPc : Nat
  cause : Nat
  haltAddr : Nat
  restarts : Nat
  cycles : Nat
  /-- Cycles issued in the present fret: R9 gives a core 960 grains. -/
  inFret : Nat
  deriving DecidableEq, Repr

/-- A core that no section has named. -/
def Core.blank : Core where
  run := .halted
  loaded := false
  operator := false
  entry := 0
  pc := 0
  g := Vector.replicate 16 0
  acc := Vector.replicate 4 0
  accOld := Vector.replicate 4 0
  p := Vector.replicate 8 0
  m := Vector.replicate 8 0
  l := Vector.replicate 8 0
  b := Vector.replicate 8 0
  st := 0
  mode := 0
  vbase := 0
  iret := 0
  ist := 0
  ien := 0
  cls := 0
  timer := 0
  dbell := 0
  start := 0
  irq := 0
  late := []
  branch := none
  loops := []
  inFlight := []
  lastAv := 0
  haltPc := 0
  cause := 0
  haltAddr := 0
  restarts := 0
  cycles := 0
  inFret := 0

/-- One Hod channel beside its registers: the descriptor fetched and not ended, and the session role of the host that
started it (R225, R497). -/
structure HodChan where
  desc : Option (List Byte)
  role : Option Role
  /-- The 64-bit address of the present or last descriptor, and the last faulting address: reads of DESC_LO and
  FAULT_ADDR_LO latch their high words. -/
  addr : Nat
  fault : Nat
  deriving DecidableEq, Repr

/-! ## Bridge and twin (chapter 12) -/

/-- What the twin's IDENT told (R356, R359): its side (0 single, 1 WEST, 2 EAST), the first 16 bytes of its installer
and operator digests, its cause of role, its divergence count and its entries that are not FREE. -/
structure Peer where
  uid : Nat
  side : Nat
  state : Nat
  role : Nat
  elder : Bool
  instDigest : List Byte
  opDigest : List Byte
  decidedBy : Nat
  divergence : Nat
  entries : Nat
  deriving DecidableEq, Repr

/-- A MIRROR sent and not acknowledged, or received ahead of a gap: its SEQ, its entry and the word 0 image. -/
structure MirrorRec where
  seq : Nat
  index : Nat
  image : List Byte
  /-- The tick at which it was last sent, none while it waits for MIRROR grains. -/
  sentTick : Option Nat
  deriving DecidableEq, Repr

/-- What two chips agree on over AGREE frames (R58, R89, R107): kind 0 a re-lath, 1 a service start, 2 a Light Hold;
the bar (or the absolute fret of the Light Hold boundary), the pending digest, and the hold compare in ns. -/
structure Agreement where
  kind : Nat
  bar : Nat
  digest : List Byte
  compare : Nat
  deriving DecidableEq, Repr

/-- A registry command forwarded to the lead and not answered: its SEQ, opcode, arguments and images, and the answer
once it has come, with the lead's MIRROR SEQ at that moment (R365). -/
structure Forwarded where
  seq : Nat
  msg : RegMsg
  /-- CMD_STATUS, results 0 and 1, and the SEQ of the lead's next MIRROR when it answered. -/
  answer : Option (Nat × Nat × Nat × Nat)
  deriving DecidableEq, Repr

/-- A Light Hold entry that is decided: its boundary and the hold compare in ns, whether LIGHT_HOLD_ENTER asked for it,
and whether it holds (without a twin, or with its agreement) (R100, R101, R107). -/
structure LightEntry where
  boundary : Nat
  compare : Nat
  commanded : Bool
  agreed : Bool
  deriving DecidableEq, Repr

/-- The Doze controller's state beside its registers: the boundary at which Doze is entered, T_need and the start of the
wake in ns, the decided Light Hold entry, the armed hold compare, the end of a HOLD_OFF span in ns, the tick at which the
present wake began, whether the wake is late already, and whether a wake is over whose halves have not resumed (R92 to
R106). -/
structure DozeState where
  entry : Option Nat
  need : Option Nat
  wakeAt : Option Nat
  light : Option LightEntry
  compare : Option Nat
  holdOff : Option Nat
  wakeTick : Nat
  late : Bool
  unmute : Bool
  deriving DecidableEq, Repr

/-- The Bridge and twin controller's state beside its registers and LINK.EPOCH. -/
structure BridgeState where
  /-- Training patterns are being sent. -/
  training : Bool
  /-- Tick at which training was last started, whether this chip's IDENT has been sent since, and the IDENT and EPOCH that
  have come since (R355). -/
  trainTick : Nat
  identSent : Bool
  identGot : Option (Peer × Nat)
  /-- The pair that forms, or is formed, is one that re-forms (R371, R377). -/
  reformed : Bool
  /-- A refused pair is not retried before a re-lath, a warm reset or a write of ENABLE (R356). -/
  refused : Bool
  peer : Option Peer
  /-- The chip is a member of a formed pair. -/
  paired : Bool
  /-- The next SEQ of each frame kind (R357). -/
  seqTx : List (Nat × Nat)
  /-- Tick of the last valid heartbeat, and whether heartbeat checking is suspended (R107, R360). -/
  heartbeatTick : Nat
  checkSuspended : Bool
  /-- Tick of the last HEARTBEAT sent (R360). -/
  beatTick : Nat
  /-- Tick of the declaration while arbitration runs (R360, R369). -/
  declaredTick : Option Nat
  /-- Short time of the declaration (R349). -/
  declaredShort : Nat
  /-- BRIDGE.ROLE before the last loss (R349). -/
  roleBefore : Nat
  /-- Since a declaration and until reconciliation, the divergence log is kept; the SEQ of its next record (R370). -/
  diverging : Bool
  divNext : Nat
  mirrorOut : List MirrorRec
  /-- SEQ of the next MIRROR to apply, and those held behind a gap (R363). -/
  mirrorNext : Nat
  mirrorHeld : List MirrorRec
  /-- The sync map while a full sync runs on the follow (R366). -/
  syncMap : Option (List Nat)
  /-- Entries of REPAIR_REQs that wait for MIRROR grains, oldest first (R374, R408). -/
  repairs : List Nat
  /-- MIRRORs applied in the running sync on the follow; the count that SYNC_MARK 1 carries: on the lead until it is
  sent, on the follow until that many MIRRORs are applied (R366). -/
  syncSeen : Nat
  syncEnd : Option Nat
  /-- A SERVICE_START passed by the twin and accepted: its START_BAR (R89). -/
  passedStart : Option Nat
  /-- A SERVICE_START that the device issued on its own (R471): its START_BAR, and whether the twin has agreed. -/
  autoStart : Option (Nat × Bool)
  /-- Heartbeats in a row with skew above, or within, 500 ns (R375). -/
  skewOver : Nat
  skewUnder : Nat
  forwarded : List Forwarded
  /-- Registry commands run on the lead whose MIRRORs are not all acknowledged (R364). -/
  waits : List RegWait
  /-- A proposal sent and not yet answered; a proposal received and not yet met by one's own. -/
  proposal : Option Agreement
  peerProposal : Option Agreement
  deriving DecidableEq, Repr

/-- Device time and what hangs on it (chapter 13): time in units of 2^-32 ns. -/
structure TimeState where
  now : Nat
  /-- The fret whose boundary was carried out last, by absolute number. -/
  fret : Nat
  /-- The last value written to INC_LO (R387). -/
  incLoBuf : Nat
  /-- The transmit timestamp queue: ID and time in ns (R399). -/
  txts : List (Nat × Nat)
  /-- Tick of the last accepted PPS_IN edge, if one has been accepted, and the tick from which a missing edge is watched for:
  of that edge, or of the enable (R401). -/
  ppsTick : Nat
  ppsSeen : Bool
  ppsWatch : Nat
  /-- Latched partners of PPS_IN_NS (R401). -/
  ppsSecLatch : Nat
  /-- PPS_OUT is high until this tick; the tick plus 1 at which it last rose, 0 for none (R400). -/
  ppsOut : Nat
  ppsRose : Nat
  /-- Timestamped received PTP frames held in LINK: timestamp in ns, whether time was valid, and the frame (R397). -/
  ptpHeld : List (Nat × Bool × List Byte)
  /-- By compare: the number of the boundary at which it fires next in FRET or BAR mode, and the instant in ns at which it
  does in ONE_SHOT or PERIODIC mode (R388, R389, R393). -/
  cmpFired : List (Nat × Nat)
  cmpAt : List (Nat × Nat)
  deriving DecidableEq, Repr

/-! ## Calibration, ageing and the monitor (chapters 15 and 16) -/

/-- Calibration and ageing state beside the registers. Gains are in 0.01 dB, phases in 0.01°. -/
structure CalState where
  /-- PLUMB_REF has succeeded since the last entry into LATHED (R430). -/
  plumbDone : Bool
  /-- The gain and phase of each observation receiver (R426). -/
  obs : List (Int × Int)
  /-- The latest array results by path: receive, transmit, and transmit through the loop-back (R430, R435). -/
  rx : List (Nat × Int × Int)
  tx : List (Nat × Int × Int)
  loop : List (Nat × Int × Int)
  /-- Gain-table corrections of indices 0 to 31 by path (R118). -/
  gains : List (Nat × List Int)
  /-- The temperature stamp of each path's last preparation in °C (R439). -/
  stamps : List (Nat × Int)
  /-- The PLUMB_STATUS.SEQ from which each result derives (R427), by key 16 p + ID. -/
  seqs : List (Nat × Nat)
  /-- The runs of TX_COUPLER that each path's pass under way has taken, oldest first: gain and phase (R432, R435). -/
  coupler : List (Nat × List (List Int))
  /-- Runs repeated for the LO in the passes under way (R434): by key 2 p of a path's transmit LO and 2 p + 1 of its receive
  LO, and by key 128 those of the pass of CAL_RUN. -/
  repeats : List (Nat × Nat)
  /-- The fret of the latest Seam run, and whether its grant was covered (R437, R438). -/
  seamRun : Option (Nat × Bool)
  /-- The spans in ns, from and to, in which that run has SEAM_OUT on (R437). -/
  seamOut : List (Nat × Nat)
  /-- Host writes to registers of paths under test, oldest first, which take effect at the restore (R441). -/
  testWrites : List HostReq
  /-- The drifts of LOGIC, MEMORY and ANALOG at the last plan, and the measurements since (R449). -/
  plan : List Nat
  measured : Nat
  /-- The bar of the last successful Seam measurement, counted without wrap (R438). -/
  seamBar : Nat
  /-- The bar of each path's last TX_COUPLER on its period, without wrap (R430). -/
  couplerBars : List (Nat × Nat)
  /-- The bar of the last measurement of the ageing monitors, without wrap; none since the entry into LATHED (R446). -/
  agedBar : Option Nat
  /-- The instant in ns of the last change of BRIDGE.ROLE, which a Seam measurement that it meets does not outlive (R438). -/
  roleNs : Option Nat
  /-- MEM_TIMING as last applied to the coded memories (R448). -/
  memTiming : Nat
  deriving DecidableEq, Repr

/-- The CIC, accumulator and comparator of one housekeeping slot: integrators and combs, conversions since the last
output, outputs since the last synchronising reset, sum and count, compared values in a row that met the condition, and
whether a trip waits for a value that fails it (R458 to R463). -/
structure SlotState where
  ints : List Nat
  combs : List Nat
  phase : Nat
  outputs : Nat
  sum : Int
  count : Nat
  held : Nat
  tripped : Bool
  deriving DecidableEq, Repr

/-- A slot after a reset. -/
def SlotState.blank : SlotState := ⟨[0, 0, 0, 0], [0, 0, 0, 0], 0, 0, 0, 0, 0, false⟩

/-- A host sequence: a trigger has come and the run starts at the next round boundary; the run ends at the next round
boundary; and the tick its run began at (R455, R475). -/
structure SeqState where
  start : Bool
  stopping : Bool
  begun : Nat
  deriving DecidableEq, Repr

/-- A temperature sensor: its last reading in 1/16 °C, the readings in a row at or above 125 °C, and those that differed
by more than 25 °C from the median (R466, R468). -/
structure SensorState where
  reading : Int
  hot : Nat
  off : Nat
  deriving DecidableEq, Repr

/-- The monitor beside its registers: slots 16 x + s, sequences, sensors; whether CORE_SUPPLY was read, and lay short,
or at its level, at every moment of the present bar (R451); the compensation factors of R469 in 0.0001 dB (two receive,
eight transmit); and whether a stage 3 stopped service (R471). -/
structure MonState where
  slots : Vector SlotState 32
  seqs : Vector SeqState 2
  sensors : Vector SensorState 16
  supplyRead : Bool
  supplyShort : Bool
  supplyGood : Bool
  comp : List Int
  sagStopped : Bool
  deriving DecidableEq, Repr

/-- The monitor as it rises (R474). -/
def MonState.blank : MonState :=
  ⟨Vector.replicate 32 .blank, Vector.replicate 2 ⟨false, false, 0⟩, Vector.replicate 16 ⟨0, 0, 0⟩, false, false, false,
    List.replicate 10 0, false⟩

/-- Budget counts of the present fret, and the arbiters of the registry port, stencil memory and fabric (chapter 14). -/
structure BudgetState where
  /-- Used cycles (or grains of resource 2) by class and resource: key 8 c + r. -/
  used : List (Nat × Nat)
  /-- Cycles of those used that the arbiters have not granted yet, by key 8 c + r: requests in their queues (R409). -/
  owed : List (Nat × Nat)
  /-- The cycle of the fret up to which resource r's arbiter has granted (R409). -/
  busy : List (Nat × Nat)
  /-- FLOOR of ULBF and DLBF on resources 0 and 3 as the fret's Tc found it, by key 8 c + r (R10). -/
  reserve : List (Nat × Nat)
  /-- Cycles granted to a class toward the request that it has pending, by key 8 c + r: a request that the fret does not
  cover goes on in the next one. -/
  part : List (Nat × Nat)
  /-- Keys 8 c + r of the classes with a request pending that got no grant (R408, R409). -/
  asking : List Nat
  /-- The class last granted at the round-robin step of resource r, and, by key 8 + r, at its step 1 (R409). -/
  turn : List (Nat × Nat)
  /-- EV_7 was raised in this fret (R410). -/
  raised : Bool
  /-- A BUDGETS section is applied: enforcement begins at the next Tc (R413). -/
  due : Bool
  deriving DecidableEq, Repr

/-- Event delivery (chapter 14, R421 to R423). -/
structure EventState where
  /-- The vectors whose condition is true, lowest first. -/
  vectors : List Nat
  /-- The vectors whose message a mask withholds (the pending-bit array, R521). -/
  withheld : List Nat
  irqA : Bool
  irqB : Bool
  /-- The last 64 events raised, newest first, with their time in ns (R66). -/
  log : List (Nat × Nat)
  deriving DecidableEq, Repr

/-- The machine. -/
structure State where
  /-- The commands that wait, oldest first. -/
  pending : List Instr
  phase : Phase
  dev : DevState
  prev : DevState
  /-- The state from which Light Hold was entered (R74). -/
  holdFrom : DevState
  analogWest : Bool
  analogEast : Bool
  drone : Drone
  fuses : Fuses
  pcie : Session
  qspi : Session
  /-- How many nonces and other fresh free values have been drawn: the model's own counter. -/
  drawn : Nat
  lath : Lath
  journal : Journal
  /-- A power-up found RETURNED fuses blown: every later record carries FLAGS bit 1 (R71). -/
  returnedPart : Bool
  job : Option Job
  regs : FieldMap
  shadow : FieldMap
  registryMem : CodedMem
  stencilMem : CodedMem
  captureMem : CodedMem
  spineMem : CodedMem
  faProg : CodedMem
  faData : CodedMem
  memint : MemInt
  rx : RxState
  tx : TxState
  syn : Vector SynState 4
  tiles : Vector TileState 8
  bias : Vector BiasState 16
  /-- Paths whose last counted aerial check lay below THRESHOLD (R206), and the bar of each path's last counted check,
  without wrap (R205). -/
  aerialLow : List Nat
  aerialBars : List (Nat × Nat)
  spectral : SpectralState
  sched : SchedState
  fh : FhState
  doze : DozeState
  cores : Vector Core 24
  hod : Vector HodChan 16
  bridge : BridgeState
  time : TimeState
  cal : CalState
  mon : MonState
  budget : BudgetState
  events : EventState
  /-- Accesses that wait for HOSTACC grains, and those behind them, oldest first. -/
  hostQueue : List HostReq
  out : Out
  deriving DecidableEq, Repr

/-! ## Reset -/

/-- The drone domain right after power-up, before its straps are latched: every count and latch at 0. -/
def Drone.fresh (x : Straps) : Drone where
  straps := x
  ticks := 0
  countHi := 0
  wakeCompare := 0
  wakeTicks := 0
  wakeCause := .none
  refClass := 0
  refCount := 0
  writesDropped := 0
  streamDropped := 0
  resetEnabled := false
  tail := none
  sagLow := false
  sagHold := false
  sagTick := 0
  wakeHeld := none
  refDone := false

/-- No session (R46, R82). -/
def Session.none : Session := ⟨.none, 0, .none, 0, .none⟩

/-- A memory of zero codewords. -/
def CodedMem.zeroed : CodedMem := ⟨[], [], .clean⟩

/-- The Doze controller at rest. -/
def DozeState.rest : DozeState := ⟨none, none, none, none, none, none, 0, false, false⟩

/-- An empty window list of a fret. -/
def PrepFret.empty (f : Int) : PrepFret := ⟨f, [], [], [], [], [], false, none, false, [], []⟩

/-- No frames, commands or reports. -/
def FhState.fresh : FhState where
  seqTx := []
  seqRx := []
  accepted := []
  settle := []
  queue := []
  ready := []
  kept := []
  held := []
  detects := []
  sigs := []
  barCounts := [0, 0, 0, 0]
  barRise := [0, 0, 0, 0]
  statusDue := false
  announced := false
  announceBar := 0
  statusBar := 0
  owd := none
  owdLast := 0
  witnessSent := 0
  witnessTick := 0

/-- A Bridge that has not trained. -/
def BridgeState.fresh : BridgeState where
  training := false
  trainTick := 0
  identSent := false
  identGot := none
  reformed := false
  refused := false
  peer := none
  paired := false
  seqTx := []
  heartbeatTick := 0
  checkSuspended := false
  beatTick := 0
  declaredTick := none
  declaredShort := 0
  roleBefore := 0
  diverging := false
  divNext := 0
  mirrorOut := []
  mirrorNext := 0
  mirrorHeld := []
  syncMap := none
  repairs := []
  syncSeen := 0
  syncEnd := none
  passedStart := none
  autoStart := none
  skewOver := 0
  skewUnder := 0
  forwarded := []
  waits := []
  proposal := none
  peerProposal := none

/-- Device time at 0 (R382). -/
def TimeState.fresh : TimeState where
  now := 0
  fret := 0
  incLoBuf := 0x11AAAAAB
  txts := []
  ppsTick := 0
  ppsSeen := false
  ppsWatch := 0
  ppsSecLatch := 0
  ppsOut := 0
  ppsRose := 0
  ptpHeld := []
  cmpFired := []
  cmpAt := []

/-- No output. -/
def Out.empty : Out := ⟨[], [], [], [], [], [], [], [], []⟩

/-- The machine right after power-up, waiting for OSC_READY (R83): every register at its reset value, nothing in the
queue, nothing in memory. -/
def State.reset : State where
  pending := []
  phase := .reset .powerUp
  dev := .bare
  prev := .bare
  holdFrom := .lathed
  analogWest := false
  analogEast := false
  drone := .fresh ⟨false, false, 0, 0⟩
  fuses := ⟨Vector.replicate 4 ⟨0, false, false⟩, 0, 0⟩
  pcie := .none
  qspi := .none
  drawn := 0
  lath := ⟨[], [], none, none⟩
  journal := ⟨0, 0, 0, none, 0, 0, 0, false, 0⟩
  returnedPart := false
  job := none
  regs := []
  shadow := []
  registryMem := .zeroed
  stencilMem := .zeroed
  captureMem := .zeroed
  spineMem := .zeroed
  faProg := .zeroed
  faData := .zeroed
  memint := ⟨[], [], []⟩
  rx := ⟨[], [], [], []⟩
  tx := ⟨[], [], List.replicate 8 0, [], ⟨[], [], [], []⟩, [], [], [], [], [], Vector.replicate 4 ⟨[], 0, 0⟩, [], [],
    Vector.replicate 8 ⟨0, none, 0, false, 0, []⟩, none⟩
  syn := Vector.replicate 4 ⟨none, none, none, false, none, [], [], [], false, false⟩
  tiles := Vector.replicate 8 ⟨false, false, false, 0, false, false, none⟩
  bias := Vector.replicate 16 ⟨none, false, false, true, none⟩
  aerialLow := []
  aerialBars := []
  spectral := ⟨Vector.replicate 96 ⟨none, none⟩, 0, none, [], [], [], [], [], 0⟩
  sched := ⟨.empty 0, [], [], [], [], [], [], none, false, [], [], []⟩
  fh := .fresh
  doze := .rest
  cores := Vector.replicate 24 .blank
  hod := Vector.replicate 16 ⟨none, none, 0, 0⟩
  bridge := .fresh
  time := .fresh
  cal := ⟨false, List.replicate 4 (0, 0), [], [], [], [], [], [], [], [], none, [], [], [0, 0, 0], 0, 0, [], none, none, 3⟩
  mon := .blank
  budget := ⟨[], [], [], [], [], [], [], false, false⟩
  events := ⟨[], [], false, false, []⟩
  hostQueue := []
  out := .empty

/-! ## Stops -/

/-- The faults: steps that have no next state because the spec says that what they name does not exist. -/
inductive Fault where
  /-- Raised by PARTICLE_STRIKE on a word that its memory does not have (R476). Safe: the machine stops. -/
  | noSuchWord
  deriving DecidableEq, Repr

/-- The refusals. -/
inductive Refusal where
  /-- Raised by `exec` for a command without a meaning, by its name. Safe: the machine stops. -/
  | notModelled (mnemonic : String)
  /-- Raised by a command of the maker range 0xE0 to 0xFF in MAKER, of which the spec says only that it exists (R77).
  Safe: the machine stops. -/
  | makerCommand (opcode : Nat)
  deriving DecidableEq, Repr

end Sys2Proof.Machine
end

