-- ==== Sys2Proof/Machine/RegMap.lean ====
section
/-! DEFINITION. The register map of the index-0 BAR: one entry per register family of the spec's register tables
(R3 to R7, R519, R521), with each field's bit range, access code, changing roles and reset value, and one handle
per field. Register instances are strides of a family, as the tables' offsets give them. -/

namespace Sys2Proof.Machine

/-- SPINE.DOZE_CTRL.ENABLE [0:0]. -/
def Reg.dozeCtrlEnable : Fld := ⟨0x400, 0, 1, 0x0⟩
/-- SPINE.DOZE_CTRL.LIGHT_ENABLE [1:1]. -/
def Reg.dozeCtrlLightEnable : Fld := ⟨0x400, 1, 1, 0x0⟩
/-- SPINE.DOZE_CTRL.WEST_KEEP [2:2]. -/
def Reg.dozeCtrlWestKeep : Fld := ⟨0x400, 2, 1, 0x0⟩
/-- SPINE.DOZE_CTRL.EAST_KEEP [3:3]. -/
def Reg.dozeCtrlEastKeep : Fld := ⟨0x400, 3, 1, 0x0⟩
/-- SPINE.DOZE_LEAD.WAKE_LEAD [15:0]. -/
def Reg.dozeLeadWakeLead : Fld := ⟨0x404, 0, 16, 0x28⟩
/-- SPINE.DOZE_FLOOR.MIN_LEAD [15:0]. -/
def Reg.dozeFloorMinLead : Fld := ⟨0x408, 0, 16, 0x28⟩
/-- SPINE.DOZE_GAP.MIN_GAP [15:0]. -/
def Reg.dozeGapMinGap : Fld := ⟨0x40C, 0, 16, 0xC8⟩
/-- SPINE.LIGHT_GAP.GAP_FRETS [15:0]. -/
def Reg.lightGapGapFrets : Fld := ⟨0x410, 0, 16, 0x28⟩
/-- SPINE.SCAN_CTRL.SCAN_PERIOD [15:0]. -/
def Reg.scanCtrlScanPeriod : Fld := ⟨0x414, 0, 16, 0x0⟩
/-- SPINE.SCAN_CTRL.SCAN_FRETS [21:16]. -/
def Reg.scanCtrlScanFrets : Fld := ⟨0x414, 16, 6, 0x0⟩
/-- SPINE.SCAN_CTRL.SCAN_FIRST [27:22]. -/
def Reg.scanCtrlScanFirst : Fld := ⟨0x414, 22, 6, 0x0⟩
/-- SPINE.DOZE_STATUS.WEST_IDLE [0:0]. -/
def Reg.dozeStatusWestIdle : Fld := ⟨0x418, 0, 1, 0x0⟩
/-- SPINE.DOZE_STATUS.EAST_IDLE [1:1]. -/
def Reg.dozeStatusEastIdle : Fld := ⟨0x418, 1, 1, 0x0⟩
/-- SPINE.DOZE_STATUS.WAKING [2:2]. -/
def Reg.dozeStatusWaking : Fld := ⟨0x418, 2, 1, 0x0⟩
/-- SPINE.DOZE_STATUS.LIGHT_PENDING [3:3]. -/
def Reg.dozeStatusLightPending : Fld := ⟨0x418, 3, 1, 0x0⟩
/-- SPINE.DOZE_COUNT.ENTRIES [15:0]. -/
def Reg.dozeCountEntries : Fld := ⟨0x41C, 0, 16, 0x0⟩
/-- SPINE.DOZE_COUNT.WAKE_LATE [31:16]. -/
def Reg.dozeCountWakeLate : Fld := ⟨0x41C, 16, 16, 0x0⟩
/-- SPINE.WAKE_LATE_DROP.DROPPED [31:0]. -/
def Reg.wakeLateDropDropped : Fld := ⟨0x420, 0, 32, 0x0⟩
/-- PATH_n.RX_CTRL.DC_EN [0:0]. -/
def Reg.rxCtrlDcEn (n : Nat) : Fld := ⟨0x400000 + n * 0x4000, 0, 1, 0x1⟩
/-- PATH_n.RX_CTRL.IMAGE_EN [1:1]. -/
def Reg.rxCtrlImageEn (n : Nat) : Fld := ⟨0x400000 + n * 0x4000, 1, 1, 0x1⟩
/-- PATH_n.RX_CTRL.AGC_MODE [2:2]. -/
def Reg.rxCtrlAgcMode (n : Nat) : Fld := ⟨0x400000 + n * 0x4000, 2, 1, 0x0⟩
/-- PATH_n.RX_CTRL.OVL_BACKOFF_EN [3:3]. -/
def Reg.rxCtrlOvlBackoffEn (n : Nat) : Fld := ⟨0x400000 + n * 0x4000, 3, 1, 0x1⟩
/-- PATH_n.RX_CTRL.CLEAR_COUNTS [31:31]. -/
def Reg.rxCtrlClearCounts (n : Nat) : Fld := ⟨0x400000 + n * 0x4000, 31, 1, 0x0⟩
/-- PATH_n.RX_GAIN.INDEX [4:0]. -/
def Reg.rxGainIndex (n : Nat) : Fld := ⟨0x400004 + n * 0x4000, 0, 5, 0x1F⟩
/-- PATH_n.RX_GAIN.INDEX_ACTIVE [12:8]. -/
def Reg.rxGainIndexActive (n : Nat) : Fld := ⟨0x400004 + n * 0x4000, 8, 5, 0x1F⟩
/-- PATH_n.RX_AGC.MIN_INDEX [4:0]. -/
def Reg.rxAgcMinIndex (n : Nat) : Fld := ⟨0x400008 + n * 0x4000, 0, 5, 0x0⟩
/-- PATH_n.RX_AGC.MAX_INDEX [12:8]. -/
def Reg.rxAgcMaxIndex (n : Nat) : Fld := ⟨0x400008 + n * 0x4000, 8, 5, 0x1F⟩
/-- PATH_n.RX_AGC.TARGET [20:16]. -/
def Reg.rxAgcTarget (n : Nat) : Fld := ⟨0x400008 + n * 0x4000, 16, 5, 0xC⟩
/-- PATH_n.RX_FILTER.SEL [0:0]. -/
def Reg.rxFilterSel (n : Nat) : Fld := ⟨0x40000C + n * 0x4000, 0, 1, 0x0⟩
/-- PATH_n.RX_FILTER.SEL_ACTIVE [8:8]. -/
def Reg.rxFilterSelActive (n : Nat) : Fld := ⟨0x40000C + n * 0x4000, 8, 1, 0x0⟩
/-- PATH_n.RX_IMAGE.BETA_RE [15:0]. -/
def Reg.rxImageBetaRe (n : Nat) : Fld := ⟨0x400010 + n * 0x4000, 0, 16, 0x0⟩
/-- PATH_n.RX_IMAGE.BETA_IM [31:16]. -/
def Reg.rxImageBetaIm (n : Nat) : Fld := ⟨0x400010 + n * 0x4000, 16, 16, 0x0⟩
/-- PATH_n.RX_STATUS.OVERLOAD [0:0]. -/
def Reg.rxStatusOverload (n : Nat) : Fld := ⟨0x400014 + n * 0x4000, 0, 1, 0x0⟩
/-- PATH_n.RX_STATUS.BACKOFF [1:1]. -/
def Reg.rxStatusBackoff (n : Nat) : Fld := ⟨0x400014 + n * 0x4000, 1, 1, 0x0⟩
/-- PATH_n.RX_STATUS.GAIN_STEP [2:2]. -/
def Reg.rxStatusGainStep (n : Nat) : Fld := ⟨0x400014 + n * 0x4000, 2, 1, 0x0⟩
/-- PATH_n.RX_STATUS.FILTER_CHANGE [3:3]. -/
def Reg.rxStatusFilterChange (n : Nat) : Fld := ⟨0x400014 + n * 0x4000, 3, 1, 0x0⟩
/-- PATH_n.RX_STATUS.SYNC_RESET [4:4]. -/
def Reg.rxStatusSyncReset (n : Nat) : Fld := ⟨0x400014 + n * 0x4000, 4, 1, 0x0⟩
/-- PATH_n.RX_STATUS.RETUNE [5:5]. -/
def Reg.rxStatusRetune (n : Nat) : Fld := ⟨0x400014 + n * 0x4000, 5, 1, 0x0⟩
/-- PATH_n.RX_PEAK.LAST [7:0]. -/
def Reg.rxPeakLast (n : Nat) : Fld := ⟨0x400018 + n * 0x4000, 0, 8, 0xFF⟩
/-- PATH_n.RX_EXCLUDED.COUNT [31:0]. -/
def Reg.rxExcludedCount (n : Nat) : Fld := ⟨0x40001C + n * 0x4000, 0, 32, 0x0⟩
/-- PATH_n.RX_INVALID_SAMPLES.COUNT [31:0]. -/
def Reg.rxInvalidSamplesCount (n : Nat) : Fld := ⟨0x400020 + n * 0x4000, 0, 32, 0x0⟩
/-- PATH_n.TX_CTRL.MUTE [0:0]. -/
def Reg.txCtrlMute (n : Nat) : Fld := ⟨0x400100 + n * 0x4000, 0, 1, 0x1⟩
/-- PATH_n.TX_CTRL.CFR_EN [1:1]. -/
def Reg.txCtrlCfrEn (n : Nat) : Fld := ⟨0x400100 + n * 0x4000, 1, 1, 0x0⟩
/-- PATH_n.TX_CTRL.DPD_EN [2:2]. -/
def Reg.txCtrlDpdEn (n : Nat) : Fld := ⟨0x400100 + n * 0x4000, 2, 1, 0x0⟩
/-- PATH_n.TX_CTRL.IMAGE_EN [3:3]. -/
def Reg.txCtrlImageEn (n : Nat) : Fld := ⟨0x400100 + n * 0x4000, 3, 1, 0x1⟩
/-- PATH_n.TX_CTRL.DC_EN [4:4]. -/
def Reg.txCtrlDcEn (n : Nat) : Fld := ⟨0x400100 + n * 0x4000, 4, 1, 0x1⟩
/-- PATH_n.TX_CTRL.CLEAR_COUNTS [31:31]. -/
def Reg.txCtrlClearCounts (n : Nat) : Fld := ⟨0x400100 + n * 0x4000, 31, 1, 0x0⟩
/-- PATH_n.TX_ATTEN.ATTEN [7:0]. -/
def Reg.txAttenAtten (n : Nat) : Fld := ⟨0x400104 + n * 0x4000, 0, 8, 0xFF⟩
/-- PATH_n.TX_ATTEN.ATTEN_ACTIVE [15:8]. -/
def Reg.txAttenAttenActive (n : Nat) : Fld := ⟨0x400104 + n * 0x4000, 8, 8, 0xFF⟩
/-- PATH_n.TX_LIMIT.MIN_ATTEN [7:0]. -/
def Reg.txLimitMinAtten (n : Nat) : Fld := ⟨0x400108 + n * 0x4000, 0, 8, 0xFF⟩
/-- PATH_n.TX_CFR.THRESHOLD [15:0]. -/
def Reg.txCfrThreshold (n : Nat) : Fld := ⟨0x40010C + n * 0x4000, 0, 16, 0x8000⟩
/-- PATH_n.TX_CFR.STAGES [16:16]. -/
def Reg.txCfrStages (n : Nat) : Fld := ⟨0x40010C + n * 0x4000, 16, 1, 0x0⟩
/-- PATH_n.TX_CFR.PULSE_SEL [17:17]. -/
def Reg.txCfrPulseSel (n : Nat) : Fld := ⟨0x40010C + n * 0x4000, 17, 1, 0x0⟩
/-- PATH_n.TX_CFR.PULSE_ACTIVE [18:18]. -/
def Reg.txCfrPulseActive (n : Nat) : Fld := ⟨0x40010C + n * 0x4000, 18, 1, 0x0⟩
/-- PATH_n.TX_DPD.REQ_BANK [0:0]. -/
def Reg.txDpdReqBank (n : Nat) : Fld := ⟨0x400110 + n * 0x4000, 0, 1, 0x0⟩
/-- PATH_n.TX_DPD.BANK_ACTIVE [1:1]. -/
def Reg.txDpdBankActive (n : Nat) : Fld := ⟨0x400110 + n * 0x4000, 1, 1, 0x0⟩
/-- PATH_n.TX_DPD.PENDING [2:2]. -/
def Reg.txDpdPending (n : Nat) : Fld := ⟨0x400110 + n * 0x4000, 2, 1, 0x0⟩
/-- PATH_n.TX_DPD.REFUSED_WRITES [15:8]. -/
def Reg.txDpdRefusedWrites (n : Nat) : Fld := ⟨0x400110 + n * 0x4000, 8, 8, 0x0⟩
/-- PATH_n.TX_DPD.SWITCHES [31:16]. -/
def Reg.txDpdSwitches (n : Nat) : Fld := ⟨0x400110 + n * 0x4000, 16, 16, 0x0⟩
/-- PATH_n.TX_DPD_QUALITY.NMSE_OLD [7:0]. -/
def Reg.txDpdQualityNmseOld (n : Nat) : Fld := ⟨0x400114 + n * 0x4000, 0, 8, 0x0⟩
/-- PATH_n.TX_DPD_QUALITY.NMSE_NEW [15:8]. -/
def Reg.txDpdQualityNmseNew (n : Nat) : Fld := ⟨0x400114 + n * 0x4000, 8, 8, 0x0⟩
/-- PATH_n.TX_DPD_QUALITY.REVERTS [23:16]. -/
def Reg.txDpdQualityReverts (n : Nat) : Fld := ⟨0x400114 + n * 0x4000, 16, 8, 0x0⟩
/-- PATH_n.TX_IMAGE.BETA_RE [15:0]. -/
def Reg.txImageBetaRe (n : Nat) : Fld := ⟨0x400118 + n * 0x4000, 0, 16, 0x0⟩
/-- PATH_n.TX_IMAGE.BETA_IM [31:16]. -/
def Reg.txImageBetaIm (n : Nat) : Fld := ⟨0x400118 + n * 0x4000, 16, 16, 0x0⟩
/-- PATH_n.TX_DC.DC_I [15:0]. -/
def Reg.txDcDcI (n : Nat) : Fld := ⟨0x40011C + n * 0x4000, 0, 16, 0x0⟩
/-- PATH_n.TX_DC.DC_Q [31:16]. -/
def Reg.txDcDcQ (n : Nat) : Fld := ⟨0x40011C + n * 0x4000, 16, 16, 0x0⟩
/-- PATH_n.TX_OBS.ATTEN [4:0]. -/
def Reg.txObsAtten (n : Nat) : Fld := ⟨0x400120 + n * 0x4000, 0, 5, 0x10⟩
/-- PATH_n.TX_OBS.LOOP_DELAY [23:8]. -/
def Reg.txObsLoopDelay (n : Nat) : Fld := ⟨0x400120 + n * 0x4000, 8, 16, 0x0⟩
/-- PATH_n.TX_STATUS.SATURATED [0:0]. -/
def Reg.txStatusSaturated (n : Nat) : Fld := ⟨0x400124 + n * 0x4000, 0, 1, 0x0⟩
/-- PATH_n.TX_STATUS.CFR_RESIDUAL [1:1]. -/
def Reg.txStatusCfrResidual (n : Nat) : Fld := ⟨0x400124 + n * 0x4000, 1, 1, 0x0⟩
/-- PATH_n.TX_STATUS.DPD_SWITCHED [2:2]. -/
def Reg.txStatusDpdSwitched (n : Nat) : Fld := ⟨0x400124 + n * 0x4000, 2, 1, 0x0⟩
/-- PATH_n.TX_SAT_COUNT.COUNT [31:0]. -/
def Reg.txSatCountCount (n : Nat) : Fld := ⟨0x400128 + n * 0x4000, 0, 32, 0x0⟩
/-- PATH_n.TX_CFR_COUNT.CANCELLED [23:0]. -/
def Reg.txCfrCountCancelled (n : Nat) : Fld := ⟨0x40012C + n * 0x4000, 0, 24, 0x0⟩
/-- PATH_n.TX_CFR_COUNT.RESIDUAL [31:24]. -/
def Reg.txCfrCountResidual (n : Nat) : Fld := ⟨0x40012C + n * 0x4000, 24, 8, 0x0⟩
/-- PATH_n.TX_TONE_CTRL.ENABLE [0:0]. -/
def Reg.txToneCtrlEnable (n : Nat) : Fld := ⟨0x400130 + n * 0x4000, 0, 1, 0x0⟩
/-- PATH_n.TX_TONE_CTRL.MODE [1:1]. -/
def Reg.txToneCtrlMode (n : Nat) : Fld := ⟨0x400130 + n * 0x4000, 1, 1, 0x0⟩
/-- PATH_n.TX_TONE_CTRL.AMP [31:16]. -/
def Reg.txToneCtrlAmp (n : Nat) : Fld := ⟨0x400130 + n * 0x4000, 16, 16, 0x0⟩
/-- PATH_n.STATE.STATE [2:0]. -/
def Reg.pathStateState (n : Nat) : Fld := ⟨0x400200 + n * 0x4000, 0, 3, 0x0⟩
/-- PATH_n.STATE.FENCE_REASON [11:8]. -/
def Reg.pathStateFenceReason (n : Nat) : Fld := ⟨0x400200 + n * 0x4000, 8, 4, 0x0⟩
/-- PATH_n.AERIAL.RL_LAST [7:0]. -/
def Reg.pathAerialRlLast (n : Nat) : Fld := ⟨0x400204 + n * 0x4000, 0, 8, 0x0⟩
/-- PATH_n.AERIAL.TUNER_CODE [12:8]. -/
def Reg.pathAerialTunerCode (n : Nat) : Fld := ⟨0x400204 + n * 0x4000, 8, 5, 0x0⟩
/-- PATH_n.AERIAL.MISMATCHES [23:16]. -/
def Reg.pathAerialMismatches (n : Nat) : Fld := ⟨0x400204 + n * 0x4000, 16, 8, 0x0⟩
/-- PATH_n.TX_TONE_FTW.FTW [31:0]. -/
def Reg.txToneFtwFtw (n : Nat) : Fld := ⟨0x400134 + n * 0x4000, 0, 32, 0x0⟩
/-- PATH_n.TX_TONE_PHASE.PHASE [31:0]. -/
def Reg.txTonePhasePhase (n : Nat) : Fld := ⟨0x400138 + n * 0x4000, 0, 32, 0x0⟩
/-- PATH_n.DPD_b_0.RE [15:0]. -/
def Reg.dpd0Re (n b : Nat) : Fld := ⟨0x400400 + n * 0x4000 + b * 0x100, 0, 16, 0x1000⟩
/-- PATH_n.DPD_b_0.IM [31:16]. -/
def Reg.dpd0Im (n b : Nat) : Fld := ⟨0x400400 + n * 0x4000 + b * 0x100, 16, 16, 0x0⟩
/-- PATH_n.DPD_b_i (i = 1 to 39, index i - 1).RE [15:0]. -/
def Reg.dpdIRe (n b j : Nat) : Fld := ⟨0x400404 + n * 0x4000 + b * 0x100 + j * 0x4, 0, 16, 0x0⟩
/-- PATH_n.DPD_b_i (i = 1 to 39, index i - 1).IM [31:16]. -/
def Reg.dpdIIm (n b j : Nat) : Fld := ⟨0x400404 + n * 0x4000 + b * 0x100 + j * 0x4, 16, 16, 0x0⟩
/-- DFE.RX_IF_h.FTW [31:0]. -/
def Reg.rxIfFtw (h : Nat) : Fld := ⟨0x600000 + h * 0x4, 0, 32, 0x0⟩
/-- DFE.RXC_c.CTRL.ENABLE [0:0]. -/
def Reg.rxcCtrlEnable (c : Nat) : Fld := ⟨0x600010 + c * 0x8, 0, 1, 0x0⟩
/-- DFE.RXC_c.CTRL.LOG2_D [6:4]. -/
def Reg.rxcCtrlLog2D (c : Nat) : Fld := ⟨0x600010 + c * 0x8, 4, 3, 0x0⟩
/-- DFE.RXC_c.OFFSET.FTW [31:0]. -/
def Reg.rxcOffsetFtw (c : Nat) : Fld := ⟨0x600014 + c * 0x8, 0, 32, 0x0⟩
/-- DFE.RX_FIR_h_s_0.COEF [17:0]. -/
def Reg.rxFir0Coef (h s : Nat) : Fld := ⟨0x600400 + h * 0x200 + s * 0x100, 0, 18, 0x10000⟩
/-- DFE.RX_FIR_h_s_t (t = 1 to 63, index t - 1).COEF [17:0]. -/
def Reg.rxFirTCoef (h s j : Nat) : Fld := ⟨0x600404 + h * 0x200 + s * 0x100 + j * 0x4, 0, 18, 0x0⟩
/-- DFE.TX_IF_h.FTW [31:0]. -/
def Reg.txIfFtw (h : Nat) : Fld := ⟨0x600040 + h * 0x4, 0, 32, 0x0⟩
/-- DFE.TXC_c.CTRL.ENABLE [0:0]. -/
def Reg.txcCtrlEnable (c : Nat) : Fld := ⟨0x600050 + c * 0x8, 0, 1, 0x0⟩
/-- DFE.TXC_c.CTRL.LOG2_D [6:4]. -/
def Reg.txcCtrlLog2D (c : Nat) : Fld := ⟨0x600050 + c * 0x8, 4, 3, 0x0⟩
/-- DFE.TXC_c.OFFSET.FTW [31:0]. -/
def Reg.txcOffsetFtw (c : Nat) : Fld := ⟨0x600054 + c * 0x8, 0, 32, 0x0⟩
/-- DFE.OBS_q.STATUS.PATH [3:0]. -/
def Reg.obsStatusPath (q : Nat) : Fld := ⟨0x600080 + q * 0x4, 0, 4, 0x0⟩
/-- DFE.OBS_q.STATUS.SOURCE [5:4]. -/
def Reg.obsStatusSource (q : Nat) : Fld := ⟨0x600080 + q * 0x4, 4, 2, 0x0⟩
/-- DFE.OBS_q.STATUS.BUSY [6:6]. -/
def Reg.obsStatusBusy (q : Nat) : Fld := ⟨0x600080 + q * 0x4, 6, 1, 0x0⟩
/-- DFE.OBS_q.STATUS.CLASS [11:8]. -/
def Reg.obsStatusClass (q : Nat) : Fld := ⟨0x600080 + q * 0x4, 8, 4, 0x0⟩
/-- DFE.CFR_PULSE_h_s_t (t = 0 to 62).RE [15:0]. -/
def Reg.cfrPulseARe (h s j : Nat) : Fld := ⟨0x600800 + h * 0x400 + s * 0x200 + j * 0x4, 0, 16, 0x0⟩
/-- DFE.CFR_PULSE_h_s_t (t = 0 to 62).IM [31:16]. -/
def Reg.cfrPulseAIm (h s j : Nat) : Fld := ⟨0x600800 + h * 0x400 + s * 0x200 + j * 0x4, 16, 16, 0x0⟩
/-- DFE.CFR_PULSE_h_s_63.RE [15:0]. -/
def Reg.cfrPulseMRe (h s : Nat) : Fld := ⟨0x6008FC + h * 0x400 + s * 0x200, 0, 16, 0x7FFF⟩
/-- DFE.CFR_PULSE_h_s_63.IM [31:16]. -/
def Reg.cfrPulseMIm (h s : Nat) : Fld := ⟨0x6008FC + h * 0x400 + s * 0x200, 16, 16, 0x0⟩
/-- DFE.CFR_PULSE_h_s_t (t = 64 to 126, index t - 64).RE [15:0]. -/
def Reg.cfrPulseBRe (h s j : Nat) : Fld := ⟨0x600900 + h * 0x400 + s * 0x200 + j * 0x4, 0, 16, 0x0⟩
/-- DFE.CFR_PULSE_h_s_t (t = 64 to 126, index t - 64).IM [31:16]. -/
def Reg.cfrPulseBIm (h s j : Nat) : Fld := ⟨0x600900 + h * 0x400 + s * 0x200 + j * 0x4, 16, 16, 0x0⟩
/-- DFE.CAP_k.CONFIG.BASE [16:0]. -/
def Reg.capConfigBase (k : Nat) : Fld := ⟨0x600100 + k * 0x20, 0, 17, 0x0⟩
/-- DFE.CAP_k.CONFIG.SRC_KIND [19:17]. -/
def Reg.capConfigSrcKind (k : Nat) : Fld := ⟨0x600100 + k * 0x20, 17, 3, 0x0⟩
/-- DFE.CAP_k.CONFIG.SRC_INDEX [25:20]. -/
def Reg.capConfigSrcIndex (k : Nat) : Fld := ⟨0x600100 + k * 0x20, 20, 6, 0x0⟩
/-- DFE.CAP_k.CONFIG.MODE [26:26]. -/
def Reg.capConfigMode (k : Nat) : Fld := ⟨0x600100 + k * 0x20, 26, 1, 0x0⟩
/-- DFE.CAP_k.CONFIG.TRIGGER [30:27]. -/
def Reg.capConfigTrigger (k : Nat) : Fld := ⟨0x600100 + k * 0x20, 27, 4, 0x0⟩
/-- DFE.CAP_k.CONFIG.ARMED [31:31]. -/
def Reg.capConfigArmed (k : Nat) : Fld := ⟨0x600100 + k * 0x20, 31, 1, 0x0⟩
/-- DFE.CAP_k.LENGTH.LENGTH [17:0]. -/
def Reg.capLengthLength (k : Nat) : Fld := ⟨0x600104 + k * 0x20, 0, 18, 0x0⟩
/-- DFE.CAP_k.WPTR.PTR [16:0]. -/
def Reg.capWptrPtr (k : Nat) : Fld := ⟨0x600108 + k * 0x20, 0, 17, 0x0⟩
/-- DFE.CAP_k.RPTR.PTR [16:0]. -/
def Reg.capRptrPtr (k : Nat) : Fld := ⟨0x60010C + k * 0x20, 0, 17, 0x0⟩
/-- DFE.CAP_k.STATUS.RUNNING [0:0]. -/
def Reg.capStatusRunning (k : Nat) : Fld := ⟨0x600110 + k * 0x20, 0, 1, 0x0⟩
/-- DFE.CAP_k.STATUS.WAITING [1:1]. -/
def Reg.capStatusWaiting (k : Nat) : Fld := ⟨0x600110 + k * 0x20, 1, 1, 0x0⟩
/-- DFE.CAP_k.STATUS.LEN_PENDING [2:2]. -/
def Reg.capStatusLenPending (k : Nat) : Fld := ⟨0x600110 + k * 0x20, 2, 1, 0x0⟩
/-- DFE.CAP_k.STATUS.FOLDED [3:3]. -/
def Reg.capStatusFolded (k : Nat) : Fld := ⟨0x600110 + k * 0x20, 3, 1, 0x0⟩
/-- DFE.CAP_k.STATUS.TRIG_LOST [15:4]. -/
def Reg.capStatusTrigLost (k : Nat) : Fld := ⟨0x600110 + k * 0x20, 4, 12, 0x0⟩
/-- DFE.CAP_k.STATUS.DROPPED [31:16]. -/
def Reg.capStatusDropped (k : Nat) : Fld := ⟨0x600110 + k * 0x20, 16, 16, 0x0⟩
/-- SYN_x.STATUS.STATE [2:0]. -/
def Reg.synStatusState (x : Nat) : Fld := ⟨0x500000 + x * 0x1000, 0, 3, 0x0⟩
/-- SYN_x.STATUS.DRIFT [3:3]. -/
def Reg.synStatusDrift (x : Nat) : Fld := ⟨0x500000 + x * 0x1000, 3, 1, 0x0⟩
/-- SYN_x.STATUS.STORE_FULL [4:4]. -/
def Reg.synStatusStoreFull (x : Nat) : Fld := ⟨0x500000 + x * 0x1000, 4, 1, 0x0⟩
/-- SYN_x.STATUS.FAILED [5:5]. -/
def Reg.synStatusFailed (x : Nat) : Fld := ⟨0x500000 + x * 0x1000, 5, 1, 0x0⟩
/-- SYN_x.STATUS.SLOT [15:8]. -/
def Reg.synStatusSlot (x : Nat) : Fld := ⟨0x500000 + x * 0x1000, 8, 8, 0x0⟩
/-- SYN_x.FREQ.FREQ_KHZ [22:0]. -/
def Reg.synFreqFreqKhz (x : Nat) : Fld := ⟨0x500004 + x * 0x1000, 0, 23, 0x0⟩
/-- SYN_x.BAND.BAND_LO [15:0]. -/
def Reg.synBandBandLo (x : Nat) : Fld := ⟨0x500008 + x * 0x1000, 0, 16, 0x258⟩
/-- SYN_x.BAND.BAND_HI [31:16]. -/
def Reg.synBandBandHi (x : Nat) : Fld := ⟨0x500008 + x * 0x1000, 16, 16, 0x1068⟩
/-- SYN_x.COUNTS.HOPS [15:0]. -/
def Reg.synCountsHops (x : Nat) : Fld := ⟨0x50000C + x * 0x1000, 0, 16, 0x0⟩
/-- SYN_x.COUNTS.FALLBACKS [23:16]. -/
def Reg.synCountsFallbacks (x : Nat) : Fld := ⟨0x50000C + x * 0x1000, 16, 8, 0x0⟩
/-- SYN_x.COUNTS.UNLOCKS [31:24]. -/
def Reg.synCountsUnlocks (x : Nat) : Fld := ⟨0x50000C + x * 0x1000, 24, 8, 0x0⟩
/-- SYN_x.TX_DROP.DROPPED [31:0]. -/
def Reg.synTxDropDropped (x : Nat) : Fld := ⟨0x500010 + x * 0x1000, 0, 32, 0x0⟩
/-- SYN_x.STORE_s word 0.FREQ_KHZ [22:0]. -/
def Reg.synStore0FreqKhz (x s : Nat) : Fld := ⟨0x500400 + x * 0x1000 + s * 0x8, 0, 23, 0x0⟩
/-- SYN_x.STORE_s word 0.VALID [23:23]. -/
def Reg.synStore0Valid (x s : Nat) : Fld := ⟨0x500400 + x * 0x1000 + s * 0x8, 23, 1, 0x0⟩
/-- SYN_x.STORE_s word 0.PINNED [24:24]. -/
def Reg.synStore0Pinned (x s : Nat) : Fld := ⟨0x500400 + x * 0x1000 + s * 0x8, 24, 1, 0x0⟩
/-- SYN_x.STORE_s word 1.STAMP [7:0]. -/
def Reg.synStore1Stamp (x s : Nat) : Fld := ⟨0x500404 + x * 0x1000 + s * 0x8, 0, 8, 0x0⟩
/-- SYNTH.CTRL.TEMP_WINDOW [5:0]. -/
def Reg.synthCtrlTempWindow : Fld := ⟨0x504000, 0, 6, 0x14⟩
/-- TILE_t.CTRL.AUTO_ENUM [0:0]. -/
def Reg.tileCtrlAutoEnum (t : Nat) : Fld := ⟨0x580000 + t * 0x100, 0, 1, 0x1⟩
/-- TILE_t.CTRL.DRAIN_ALLOW [1:1]. -/
def Reg.tileCtrlDrainAllow (t : Nat) : Fld := ⟨0x580000 + t * 0x100, 1, 1, 0x0⟩
/-- TILE_t.CTRL.DRAIN_DELAY [15:8]. -/
def Reg.tileCtrlDrainDelay (t : Nat) : Fld := ⟨0x580000 + t * 0x100, 8, 8, 0xA⟩
/-- TILE_t.STATUS.STATE [2:0]. -/
def Reg.tileStatusState (t : Nat) : Fld := ⟨0x580004 + t * 0x100, 0, 3, 0x0⟩
/-- TILE_t.STATUS.PRESENT [3:3]. -/
def Reg.tileStatusPresent (t : Nat) : Fld := ⟨0x580004 + t * 0x100, 3, 1, 0x0⟩
/-- TILE_t.STATUS.DRAIN [4:4]. -/
def Reg.tileStatusDrain (t : Nat) : Fld := ⟨0x580004 + t * 0x100, 4, 1, 0x0⟩
/-- TILE_t.STATUS.BIAS_READY [5:5]. -/
def Reg.tileStatusBiasReady (t : Nat) : Fld := ⟨0x580004 + t * 0x100, 5, 1, 0x0⟩
/-- TILE_t.STATUS.REFUSE [10:8]. -/
def Reg.tileStatusRefuse (t : Nat) : Fld := ⟨0x580004 + t * 0x100, 8, 3, 0x0⟩
/-- TILE_t.ID_s.PRODUCT_ID [7:0]. -/
def Reg.tileIdProductId (t s : Nat) : Fld := ⟨0x580008 + t * 0x100 + s * 0x4, 0, 8, 0x0⟩
/-- TILE_t.ID_s.MANUFACTURER_ID [19:8]. -/
def Reg.tileIdManufacturerId (t s : Nat) : Fld := ⟨0x580008 + t * 0x100 + s * 0x4, 8, 12, 0x0⟩
/-- TILE_t.ID_s.USID [23:20]. -/
def Reg.tileIdUsid (t s : Nat) : Fld := ⟨0x580008 + t * 0x100 + s * 0x4, 20, 4, 0x0⟩
/-- TILE.BIAS_k.CODE [11:0]. -/
def Reg.biasCode (k : Nat) : Fld := ⟨0x581000 + k * 0x4, 0, 12, 0x0⟩
/-- TILE.BIAS_k.RANGE [12:12]. -/
def Reg.biasRange (k : Nat) : Fld := ⟨0x581000 + k * 0x4, 12, 1, 0x0⟩
/-- TILE.BIAS_k.WRITTEN [13:13]. -/
def Reg.biasWritten (k : Nat) : Fld := ⟨0x581000 + k * 0x4, 13, 1, 0x0⟩
/-- TILE.BIAS_k.SAFE [14:14]. -/
def Reg.biasSafe (k : Nat) : Fld := ⟨0x581000 + k * 0x4, 14, 1, 0x1⟩
/-- TILE.BIAS_k.CODE_ACTIVE [27:16]. -/
def Reg.biasCodeActive (k : Nat) : Fld := ⟨0x581000 + k * 0x4, 16, 12, 0x0⟩
/-- TILE.BIAS_LOAD.STROBE [0:0]. -/
def Reg.biasLoadStrobe : Fld := ⟨0x581040, 0, 1, 0x0⟩
/-- TILE.BIAS_LOAD.FRET_STROBE [1:1]. -/
def Reg.biasLoadFretStrobe : Fld := ⟨0x581040, 1, 1, 0x0⟩
/-- TILE.MISMATCH.THRESHOLD [7:0]. -/
def Reg.mismatchThreshold : Fld := ⟨0x581080, 0, 8, 0x28⟩
/-- TILE.MISMATCH.PERIOD [15:8]. -/
def Reg.mismatchPeriod : Fld := ⟨0x581080, 8, 8, 0x64⟩
/-- TILE.MISMATCH.ACTION [16:16]. -/
def Reg.mismatchAction : Fld := ⟨0x581080, 16, 1, 0x0⟩
/-- SPECTRAL.CTRL.DUPLEX [0:0]. -/
def Reg.spectralCtrlDuplex : Fld := ⟨0x800000, 0, 1, 0x0⟩
/-- SPECTRAL.CAR_d_c.CONFIG.ENABLE [0:0]. -/
def Reg.carConfigEnable (d c : Nat) : Fld := ⟨0x800100 + d * 0x40 + c * 0x10, 0, 1, 0x0⟩
/-- SPECTRAL.CAR_d_c.CONFIG.FFT_LOG2 [7:4]. -/
def Reg.carConfigFftLog2 (d c : Nat) : Fld := ⟨0x800100 + d * 0x40 + c * 0x10, 4, 4, 0x7⟩
/-- SPECTRAL.CAR_d_c.CONFIG.SCS [9:8]. -/
def Reg.carConfigScs (d c : Nat) : Fld := ⟨0x800100 + d * 0x40 + c * 0x10, 8, 2, 0x1⟩
/-- SPECTRAL.CAR_d_c.CONFIG.PRB_COUNT [24:16]. -/
def Reg.carConfigPrbCount (d c : Nat) : Fld := ⟨0x800100 + d * 0x40 + c * 0x10, 16, 9, 0x1⟩
/-- SPECTRAL.CAR_d_c.XFORM.SHIFT [3:0]. -/
def Reg.carXformShift (d c : Nat) : Fld := ⟨0x800104 + d * 0x40 + c * 0x10, 0, 4, 0x0⟩
/-- SPECTRAL.CAR_d_c.XFORM.WIN_ADV [16:8]. -/
def Reg.carXformWinAdv (d c : Nat) : Fld := ⟨0x800104 + d * 0x40 + c * 0x10, 8, 9, 0x0⟩
/-- SPECTRAL.LAYER_d_l.CONFIG.ENABLE [0:0]. -/
def Reg.layerConfigEnable (d l : Nat) : Fld := ⟨0x801000 + d * 0x400 + l * 0x10, 0, 1, 0x0⟩
/-- SPECTRAL.LAYER_d_l.CONFIG.SOURCE [1:1]. -/
def Reg.layerConfigSource (d l : Nat) : Fld := ⟨0x801000 + d * 0x400 + l * 0x10, 1, 1, 0x0⟩
/-- SPECTRAL.LAYER_d_l.CONFIG.CARRIER [3:2]. -/
def Reg.layerConfigCarrier (d l : Nat) : Fld := ⟨0x801000 + d * 0x400 + l * 0x10, 2, 2, 0x0⟩
/-- SPECTRAL.LAYER_d_l.CONFIG.BFP_WIDTH [6:4]. -/
def Reg.layerConfigBfpWidth (d l : Nat) : Fld := ⟨0x801000 + d * 0x400 + l * 0x10, 4, 3, 0x1⟩
/-- SPECTRAL.LAYER_d_l.CONFIG.FADE_DEFAULT [25:16]. -/
def Reg.layerConfigFadeDefault (d l : Nat) : Fld := ⟨0x801000 + d * 0x400 + l * 0x10, 16, 10, 0x0⟩
/-- SPECTRAL.LAYER_d_l.STATUS.BANK_ACTIVE [0:0]. -/
def Reg.layerStatusBankActive (d l : Nat) : Fld := ⟨0x801004 + d * 0x400 + l * 0x10, 0, 1, 0x0⟩
/-- SPECTRAL.LAYER_d_l.STATUS.PENDING [1:1]. -/
def Reg.layerStatusPending (d l : Nat) : Fld := ⟨0x801004 + d * 0x400 + l * 0x10, 1, 1, 0x0⟩
/-- SPECTRAL.LAYER_d_l.STATUS.FADING [2:2]. -/
def Reg.layerStatusFading (d l : Nat) : Fld := ⟨0x801004 + d * 0x400 + l * 0x10, 2, 1, 0x0⟩
/-- SPECTRAL.LAYER_d_l.STATUS.FROM_CAPTURE [3:3]. -/
def Reg.layerStatusFromCapture (d l : Nat) : Fld := ⟨0x801004 + d * 0x400 + l * 0x10, 3, 1, 0x0⟩
/-- SPECTRAL.LAYER_d_l.STATUS.FADE_POS [25:16]. -/
def Reg.layerStatusFadePos (d l : Nat) : Fld := ⟨0x801004 + d * 0x400 + l * 0x10, 16, 10, 0x0⟩
/-- SPECTRAL.GEO_PATH_p.COL [3:0]. -/
def Reg.geoPathCol (p : Nat) : Fld := ⟨0x802000 + p * 0x4, 0, 4, 0x0⟩
/-- SPECTRAL.GEO_PATH_p.ROW [7:4]. -/
def Reg.geoPathRow (p : Nat) : Fld := ⟨0x802000 + p * 0x4, 4, 4, 0x0⟩
/-- SPECTRAL.GEO_PATH_p.POL [8:8]. -/
def Reg.geoPathPol (p : Nat) : Fld := ⟨0x802000 + p * 0x4, 8, 1, 0x0⟩
/-- SPECTRAL.GRID.MODE [0:0]. -/
def Reg.gridMode : Fld := ⟨0x802100, 0, 1, 0x0⟩
/-- SPECTRAL.GRID.POL_PHASE [7:4]. -/
def Reg.gridPolPhase : Fld := ⟨0x802100, 4, 4, 0x0⟩
/-- SPECTRAL.GRID.DX_MM [19:8]. -/
def Reg.gridDxMm : Fld := ⟨0x802100, 8, 12, 0x50⟩
/-- SPECTRAL.GRID.DY_MM [31:20]. -/
def Reg.gridDyMm : Fld := ⟨0x802100, 20, 12, 0x50⟩
/-- SPECTRAL.SCAN.CARRIER [1:0]. -/
def Reg.scanCarrier : Fld := ⟨0x802200, 0, 2, 0x0⟩
/-- SPECTRAL.SCAN.PRB_COUNT [7:4]. -/
def Reg.scanPrbCount : Fld := ⟨0x802200, 4, 4, 0x0⟩
/-- SPECTRAL.SCAN.PRB_START [16:8]. -/
def Reg.scanPrbStart : Fld := ⟨0x802200, 8, 9, 0x0⟩
/-- SPECTRAL.SCAN.SHIFT [23:20]. -/
def Reg.scanShift : Fld := ⟨0x802200, 20, 4, 0x0⟩
/-- SPECTRAL.SCAN.ACTIVE [24:24]. -/
def Reg.scanActive : Fld := ⟨0x802200, 24, 1, 0x0⟩
/-- SPECTRAL.SCAN_BASE.WORDS [17:0]. -/
def Reg.scanBaseWords : Fld := ⟨0x802204, 0, 18, 0x0⟩
/-- SPECTRAL.SCAN_LEN.WORDS [17:0]. -/
def Reg.scanLenWords : Fld := ⟨0x802208, 0, 18, 0x0⟩
/-- SPECTRAL.SEAM.PHASE [15:0]. -/
def Reg.seamPhase : Fld := ⟨0x802300, 0, 16, 0x0⟩
/-- SPECTRAL.SEAM.OK [16:16]. -/
def Reg.seamOk : Fld := ⟨0x802300, 16, 1, 0x0⟩
/-- SPECTRAL.COUNTS.REFUSED_WRITES [15:0]. -/
def Reg.spectralCountsRefusedWrites : Fld := ⟨0x802400, 0, 16, 0x0⟩
/-- SPECTRAL.COUNTS.BAD_ENABLE [23:16]. -/
def Reg.spectralCountsBadEnable : Fld := ⟨0x802400, 16, 8, 0x0⟩
/-- SPECTRAL.COUNTS2.FADE_INTERRUPTS [15:0]. -/
def Reg.spectralCounts2FadeInterrupts : Fld := ⟨0x802404, 0, 16, 0x0⟩
/-- SPECTRAL.SCHED_SWAPS.COUNT [31:0]. -/
def Reg.schedSwapsCount : Fld := ⟨0x802408, 0, 32, 0x0⟩
/-- REGISTRY.CTRL.DETECT_EN [0:0]. -/
def Reg.registryCtrlDetectEn : Fld := ⟨0xC00000, 0, 1, 0x0⟩
/-- REGISTRY.CTRL.REFRESH_EN [1:1]. -/
def Reg.registryCtrlRefreshEn : Fld := ⟨0xC00000, 1, 1, 0x1⟩
/-- REGISTRY.CTRL.DET_THRESHOLD [15:8]. -/
def Reg.registryCtrlDetThreshold : Fld := ⟨0xC00000, 8, 8, 0x30⟩
/-- REGISTRY.PARTITION.ENTRY_LIMIT [18:0]. -/
def Reg.partitionEntryLimit : Fld := ⟨0xC00004, 0, 19, 0x40000⟩
/-- REGISTRY.NEXT_WINDOW_BAR.BAR [31:0]. -/
def Reg.nextWindowBarBar : Fld := ⟨0xC00008, 0, 32, 0x0⟩
/-- REGISTRY.NEXT_WINDOW_FRET.FRET [5:0]. -/
def Reg.nextWindowFretFret : Fld := ⟨0xC0000C, 0, 6, 0x0⟩
/-- REGISTRY.NEXT_WINDOW_FRET.NONE [31:31]. -/
def Reg.nextWindowFretNone : Fld := ⟨0xC0000C, 31, 1, 0x1⟩
/-- REGISTRY.STATUS.PREP_AHEAD [3:0]. -/
def Reg.registryStatusPrepAhead : Fld := ⟨0xC00010, 0, 4, 0x0⟩
/-- REGISTRY.STATUS.OPEN_NOW [14:4]. -/
def Reg.registryStatusOpenNow : Fld := ⟨0xC00010, 4, 11, 0x0⟩
/-- REGISTRY.STATUS.ROWS_FREE [27:16]. -/
def Reg.registryStatusRowsFree : Fld := ⟨0xC00010, 16, 12, 0xE00⟩
/-- REGISTRY.SUSPEND.COUNT [8:0]. -/
def Reg.suspendCount : Fld := ⟨0xC00014, 0, 9, 0x0⟩
/-- REGISTRY.SUSPEND.LAST [29:12]. -/
def Reg.suspendLast : Fld := ⟨0xC00014, 12, 18, 0x0⟩
/-- REGISTRY.COUNT_n [31:0]. -/
def Reg.registryCount (n : Nat) : Fld := ⟨0xC00020 + n * 0x4, 0, 32, 0x0⟩
/-- REGISTRY.CLASS_k.A.PRIORITY [3:0]. -/
def Reg.classAPriority (k : Nat) : Fld := ⟨0xC00100 + k * 0x8, 0, 4, 0x0⟩
/-- REGISTRY.CLASS_k.A.DIR [5:4]. -/
def Reg.classADir (k : Nat) : Fld := ⟨0xC00100 + k * 0x8, 4, 2, 0x2⟩
/-- REGISTRY.CLASS_k.A.REFRESH [6:6]. -/
def Reg.classARefresh (k : Nat) : Fld := ⟨0xC00100 + k * 0x8, 6, 1, 0x1⟩
/-- REGISTRY.CLASS_k.A.PIN_GRID [7:7]. -/
def Reg.classAPinGrid (k : Nat) : Fld := ⟨0xC00100 + k * 0x8, 7, 1, 0x0⟩
/-- REGISTRY.CLASS_k.A.PILOT_SYMBOLS [21:8]. -/
def Reg.classAPilotSymbols (k : Nat) : Fld := ⟨0xC00100 + k * 0x8, 8, 14, 0x4⟩
/-- REGISTRY.CLASS_k.B.MAX_SIG_AGE [15:0]. -/
def Reg.classBMaxSigAge (k : Nat) : Fld := ⟨0xC00104 + k * 0x8, 0, 16, 0x0⟩
/-- REGISTRY.CLASS_k.B.MIN_QUALITY [23:16]. -/
def Reg.classBMinQuality (k : Nat) : Fld := ⟨0xC00104 + k * 0x8, 16, 8, 0x0⟩
/-- REGISTRY.DET_BASE.WORDS [16:0]. -/
def Reg.detBaseWords : Fld := ⟨0xC00200, 0, 17, 0x0⟩
/-- REGISTRY.DET_LEN.WORDS [16:0]. -/
def Reg.detLenWords : Fld := ⟨0xC00204, 0, 17, 0x0⟩
/-- REGISTRY.DET_WPTR.WORDS [16:0]. -/
def Reg.detWptrWords : Fld := ⟨0xC00208, 0, 17, 0x0⟩
/-- REGISTRY.DET_RPTR.WORDS [16:0]. -/
def Reg.detRptrWords : Fld := ⟨0xC0020C, 0, 17, 0x0⟩
/-- FA_n.CTRL.RUN [0:0]. -/
def Reg.faCtrlRun (n : Nat) : Fld := ⟨0x1000000 + n * 0x10000, 0, 1, 0x0⟩
/-- FA_n.STATUS.RUNSTATE [1:0]. -/
def Reg.faStatusRunstate (n : Nat) : Fld := ⟨0x1000004 + n * 0x10000, 0, 2, 0x0⟩
/-- FA_n.STATUS.START [3:2]. -/
def Reg.faStatusStart (n : Nat) : Fld := ⟨0x1000004 + n * 0x10000, 2, 2, 0x0⟩
/-- FA_n.STATUS.LOADED [4:4]. -/
def Reg.faStatusLoaded (n : Nat) : Fld := ⟨0x1000004 + n * 0x10000, 4, 1, 0x0⟩
/-- FA_n.STATUS.OPERATOR [5:5]. -/
def Reg.faStatusOperator (n : Nat) : Fld := ⟨0x1000004 + n * 0x10000, 5, 1, 0x0⟩
/-- FA_n.STATUS.CLASS [11:8]. -/
def Reg.faStatusClass (n : Nat) : Fld := ⟨0x1000004 + n * 0x10000, 8, 4, 0x0⟩
/-- FA_n.STATUS.AV [15:12]. -/
def Reg.faStatusAv (n : Nat) : Fld := ⟨0x1000004 + n * 0x10000, 12, 4, 0x0⟩
/-- FA_n.STATUS.SV [16:16]. -/
def Reg.faStatusSv (n : Nat) : Fld := ⟨0x1000004 + n * 0x10000, 16, 1, 0x0⟩
/-- FA_n.HALT.PC [13:0]. -/
def Reg.faHaltPc (n : Nat) : Fld := ⟨0x1000008 + n * 0x10000, 0, 14, 0x0⟩
/-- FA_n.HALT.CAUSE [19:16]. -/
def Reg.faHaltCause (n : Nat) : Fld := ⟨0x1000008 + n * 0x10000, 16, 4, 0x0⟩
/-- FA_n.HALT.RESTARTS [31:24]. -/
def Reg.faHaltRestarts (n : Nat) : Fld := ⟨0x1000008 + n * 0x10000, 24, 8, 0x0⟩
/-- FA_n.HALT_ADDR.ADDR [16:0]. -/
def Reg.faHaltAddrAddr (n : Nat) : Fld := ⟨0x100000C + n * 0x10000, 0, 17, 0x0⟩
/-- FA_n.ENTRY [13:0]. -/
def Reg.faEntry (n : Nat) : Fld := ⟨0x1000010 + n * 0x10000, 0, 14, 0x0⟩
/-- FA_n.IRQ.PENDING [7:0]. -/
def Reg.faIrqPending (n : Nat) : Fld := ⟨0x1000014 + n * 0x10000, 0, 8, 0x0⟩
/-- FA_n.IRQ.ENABLED [15:8]. -/
def Reg.faIrqEnabled (n : Nat) : Fld := ⟨0x1000014 + n * 0x10000, 8, 8, 0x0⟩
/-- FA_n.DOORBELL.VALUE [31:0]. -/
def Reg.faDoorbellValue (n : Nat) : Fld := ⟨0x1000018 + n * 0x10000, 0, 32, 0x0⟩
/-- FA_n.CYCLES.COUNT [31:0]. -/
def Reg.faCyclesCount (n : Nat) : Fld := ⟨0x100001C + n * 0x10000, 0, 32, 0x0⟩
/-- FAEROR.WINDOW.CORE [4:0]. -/
def Reg.faerorWindowCore : Fld := ⟨0x1180000, 0, 5, 0x0⟩
/-- FAEROR.OWNER.OPERATOR [23:0]. -/
def Reg.faerorOwnerOperator : Fld := ⟨0x1180004, 0, 24, 0x0⟩
/-- FAEROR.LOADED.CORES [23:0]. -/
def Reg.faerorLoadedCores : Fld := ⟨0x1180008, 0, 24, 0x0⟩
/-- LINK.CTRL.ENABLE [0:0]. -/
def Reg.linkCtrlEnable : Fld := ⟨0x1400000, 0, 1, 0x1⟩
/-- LINK.CTRL.VLAN_EN [1:1]. -/
def Reg.linkCtrlVlanEn : Fld := ⟨0x1400000, 1, 1, 0x0⟩
/-- LINK.CTRL.WITNESS_EN [2:2]. -/
def Reg.linkCtrlWitnessEn : Fld := ⟨0x1400000, 2, 1, 0x1⟩
/-- LINK.CTRL.BB_CONTROL [3:3]. -/
def Reg.linkCtrlBbControl : Fld := ⟨0x1400000, 3, 1, 0x0⟩
/-- LINK.CTRL.DETECT_REPORT_EN [4:4]. -/
def Reg.linkCtrlDetectReportEn : Fld := ⟨0x1400000, 4, 1, 0x0⟩
/-- LINK.CTRL.SIG_REPORT_EN [5:5]. -/
def Reg.linkCtrlSigReportEn : Fld := ⟨0x1400000, 5, 1, 0x0⟩
/-- LINK.CTRL.CLEAR_COUNTS [31:31]. -/
def Reg.linkCtrlClearCounts : Fld := ⟨0x1400000, 31, 1, 0x0⟩
/-- LINK.VLAN.VID [11:0]. -/
def Reg.linkVlanVid : Fld := ⟨0x1400004, 0, 12, 0x0⟩
/-- LINK.VLAN.PCP [14:12]. -/
def Reg.linkVlanPcp : Fld := ⟨0x1400004, 12, 3, 0x6⟩
/-- LINK.MAX_FRAME.BYTES [13:0]. -/
def Reg.linkMaxFrameBytes : Fld := ⟨0x1400008, 0, 14, 0x2400⟩
/-- LINK.DL_WINDOW.EARLY_US [15:0]. -/
def Reg.dlWindowEarlyUs : Fld := ⟨0x140000C, 0, 16, 0x12C⟩
/-- LINK.MAC_LO [31:0]. -/
def Reg.linkMacLo : Fld := ⟨0x1400010, 0, 32, 0x0⟩
/-- LINK.MAC_HI [15:0]. -/
def Reg.linkMacHi : Fld := ⟨0x1400014, 0, 16, 0x0⟩
/-- LINK.ANNOUNCE_DA_LO [31:0]. -/
def Reg.announceDaLo : Fld := ⟨0x1400018, 0, 32, 0xFFFFFFFF⟩
/-- LINK.ANNOUNCE_DA_HI [15:0]. -/
def Reg.announceDaHi : Fld := ⟨0x140001C, 0, 16, 0xFFFF⟩
/-- LINK.BB_MAC_LO [31:0]. -/
def Reg.bbMacLo : Fld := ⟨0x1400020, 0, 32, 0x0⟩
/-- LINK.BB_MAC_HI [15:0]. -/
def Reg.bbMacHi : Fld := ⟨0x1400024, 0, 16, 0x0⟩
/-- LINK.BB_ID_LO [31:0]. -/
def Reg.bbIdLo : Fld := ⟨0x1400028, 0, 32, 0x0⟩
/-- LINK.BB_ID_HI [31:0]. -/
def Reg.bbIdHi : Fld := ⟨0x140002C, 0, 32, 0x0⟩
/-- LINK.BB_ID_PIN_LO [31:0]. -/
def Reg.bbIdPinLo : Fld := ⟨0x1400030, 0, 32, 0x0⟩
/-- LINK.BB_ID_PIN_HI [31:0]. -/
def Reg.bbIdPinHi : Fld := ⟨0x1400034, 0, 32, 0x0⟩
/-- LINK.STATUS.UP [0:0]. -/
def Reg.linkStatusUp : Fld := ⟨0x1400040, 0, 1, 0x0⟩
/-- LINK.STATUS.FEC_ALIGNED [1:1]. -/
def Reg.linkStatusFecAligned : Fld := ⟨0x1400040, 1, 1, 0x0⟩
/-- LINK.STATUS.BB_FOUND [2:2]. -/
def Reg.linkStatusBbFound : Fld := ⟨0x1400040, 2, 1, 0x0⟩
/-- LINK.STATUS.LPI [3:3]. -/
def Reg.linkStatusLpi : Fld := ⟨0x1400040, 3, 1, 0x0⟩
/-- LINK.STATUS.LANE_ALIGNED [7:4]. -/
def Reg.linkStatusLaneAligned : Fld := ⟨0x1400040, 4, 4, 0x0⟩
/-- LINK.STATUS.UNANSWERED [9:8]. -/
def Reg.linkStatusUnanswered : Fld := ⟨0x1400040, 8, 2, 0x0⟩
/-- LINK.OWD_CTRL.START [0:0]. -/
def Reg.owdCtrlStart : Fld := ⟨0x1400044, 0, 1, 0x0⟩
/-- LINK.OWD_CTRL.BUSY [1:1]. -/
def Reg.owdCtrlBusy : Fld := ⟨0x1400044, 1, 1, 0x0⟩
/-- LINK.OWD_CTRL.DONE [2:2]. -/
def Reg.owdCtrlDone : Fld := ⟨0x1400044, 2, 1, 0x0⟩
/-- LINK.OWD_CTRL.TIMEOUT [3:3]. -/
def Reg.owdCtrlTimeout : Fld := ⟨0x1400044, 3, 1, 0x0⟩
/-- LINK.OWD_CTRL.MEAS_ID [15:8]. -/
def Reg.owdCtrlMeasId : Fld := ⟨0x1400044, 8, 8, 0x0⟩
/-- LINK.OWD_RESULT_LO [31:0]. -/
def Reg.owdResultLo : Fld := ⟨0x1400048, 0, 32, 0x0⟩
/-- LINK.OWD_RESULT_HI [31:0]. -/
def Reg.owdResultHi : Fld := ⟨0x140004C, 0, 32, 0x0⟩
/-- LINK.EPOCH [31:0]. -/
def Reg.linkEpoch : Fld := ⟨0x1400050, 0, 32, 0x0⟩
/-- LINK.COUNT_n [31:0]. -/
def Reg.linkCount (n : Nat) : Fld := ⟨0x1400080 + n * 0x4, 0, 32, 0x0⟩
/-- BRIDGE.ROLE [1:0]. -/
def Reg.bridgeRole : Fld := ⟨0x1500000, 0, 2, 0x0⟩
/-- BRIDGE.CTRL.ENABLE [0:0]. -/
def Reg.bridgeCtrlEnable : Fld := ⟨0x1500004, 0, 1, 0x1⟩
/-- BRIDGE.STATUS.TRAINED [0:0]. -/
def Reg.bridgeStatusTrained : Fld := ⟨0x1500008, 0, 1, 0x0⟩
/-- BRIDGE.STATUS.ARBITRATING [1:1]. -/
def Reg.bridgeStatusArbitrating : Fld := ⟨0x1500008, 1, 1, 0x0⟩
/-- BRIDGE.STATUS.SYNCED [2:2]. -/
def Reg.bridgeStatusSynced : Fld := ⟨0x1500008, 2, 1, 0x0⟩
/-- BRIDGE.STATUS.SKEW_HIGH [3:3]. -/
def Reg.bridgeStatusSkewHigh : Fld := ⟨0x1500008, 3, 1, 0x0⟩
/-- BRIDGE.STATUS.DECIDED_BY [6:4]. -/
def Reg.bridgeStatusDecidedBy : Fld := ⟨0x1500008, 4, 3, 0x0⟩
/-- BRIDGE.STATUS.PEER_STATE [11:8]. -/
def Reg.bridgeStatusPeerState : Fld := ⟨0x1500008, 8, 4, 0x0⟩
/-- BRIDGE.STATUS.REFUSE [14:12]. -/
def Reg.bridgeStatusRefuse : Fld := ⟨0x1500008, 12, 3, 0x0⟩
/-- BRIDGE.PEER_UID_LO [31:0]. -/
def Reg.peerUidLo : Fld := ⟨0x150000C, 0, 32, 0x0⟩
/-- BRIDGE.PEER_UID_HI [31:0]. -/
def Reg.peerUidHi : Fld := ⟨0x1500010, 0, 32, 0x0⟩
/-- BRIDGE.LATENCY.ONE_WAY_NS [9:0]. -/
def Reg.bridgeLatencyOneWayNs : Fld := ⟨0x1500014, 0, 10, 0x0⟩
/-- BRIDGE.SKEW.SKEW_NS [15:0]. -/
def Reg.bridgeSkewSkewNs : Fld := ⟨0x1500018, 0, 16, 0x0⟩
/-- BRIDGE.DIVERGENCE.COUNT [10:0]. -/
def Reg.divergenceCount : Fld := ⟨0x150001C, 0, 11, 0x0⟩
/-- BRIDGE.DIVERGENCE.DROPPED [31:16]. -/
def Reg.divergenceDropped : Fld := ⟨0x150001C, 16, 16, 0x0⟩
/-- BRIDGE.COUNT_n [31:0]. -/
def Reg.bridgeCount (n : Nat) : Fld := ⟨0x1500040 + n * 0x4, 0, 32, 0x0⟩
/-- TIME.STATUS.STATE [1:0]. -/
def Reg.timeStatusState : Fld := ⟨0x180000, 0, 2, 0x0⟩
/-- TIME.STATUS.STEP_USED [2:2]. -/
def Reg.timeStatusStepUsed : Fld := ⟨0x180000, 2, 1, 0x0⟩
/-- TIME.STATUS.PPS_MISSING [3:3]. -/
def Reg.timeStatusPpsMissing : Fld := ⟨0x180000, 3, 1, 0x0⟩
/-- TIME.STATUS.TXTS_COUNT [7:4]. -/
def Reg.timeStatusTxtsCount : Fld := ⟨0x180000, 4, 4, 0x0⟩
/-- TIME.NOW_NS [29:0]. -/
def Reg.nowNs : Fld := ⟨0x180004, 0, 30, 0x0⟩
/-- TIME.NOW_SEC_LO [31:0]. -/
def Reg.nowSecLo : Fld := ⟨0x180008, 0, 32, 0x0⟩
/-- TIME.NOW_SEC_HI [15:0]. -/
def Reg.nowSecHi : Fld := ⟨0x18000C, 0, 16, 0x0⟩
/-- TIME.NOW_FRAC [31:0]. -/
def Reg.nowFrac : Fld := ⟨0x180010, 0, 32, 0x0⟩
/-- TIME.SHORT [31:0]. -/
def Reg.timeShort : Fld := ⟨0x180014, 0, 32, 0x0⟩
/-- TIME.INC_LO [31:0]. -/
def Reg.incLo : Fld := ⟨0x180020, 0, 32, 0x11AAAAAB⟩
/-- TIME.INC_HI [7:0]. -/
def Reg.incHi : Fld := ⟨0x180024, 0, 8, 0x4⟩
/-- TIME.CMP_k.VALUE [31:0]. -/
def Reg.cmpValue (k : Nat) : Fld := ⟨0x180100 + k * 0x10, 0, 32, 0x0⟩
/-- TIME.CMP_k.PERIOD [31:0]. -/
def Reg.cmpPeriod (k : Nat) : Fld := ⟨0x180104 + k * 0x10, 0, 32, 0x0⟩
/-- TIME.CMP_k.CTRL.ARM [0:0]. -/
def Reg.cmpCtrlArm (k : Nat) : Fld := ⟨0x180108 + k * 0x10, 0, 1, 0x0⟩
/-- TIME.CMP_k.CTRL.MODE [2:1]. -/
def Reg.cmpCtrlMode (k : Nat) : Fld := ⟨0x180108 + k * 0x10, 1, 2, 0x0⟩
/-- TIME.PPS.OUT_EN [0:0]. -/
def Reg.ppsOutEn : Fld := ⟨0x180200, 0, 1, 0x0⟩
/-- TIME.PPS.IN_EN [1:1]. -/
def Reg.ppsInEn : Fld := ⟨0x180200, 1, 1, 0x0⟩
/-- TIME.PPS.OUT_WIDTH [31:16]. -/
def Reg.ppsOutWidth : Fld := ⟨0x180200, 16, 16, 0x64⟩
/-- TIME.PPS_OUT_OFFSET [31:0]. -/
def Reg.ppsOutOffset : Fld := ⟨0x180204, 0, 32, 0x0⟩
/-- TIME.PPS_IN_NS [29:0]. -/
def Reg.ppsInNs : Fld := ⟨0x180208, 0, 30, 0x0⟩
/-- TIME.PPS_IN_SEC_LO [31:0]. -/
def Reg.ppsInSecLo : Fld := ⟨0x18020C, 0, 32, 0x0⟩
/-- TIME.PPS_IN_SEC_HI [15:0]. -/
def Reg.ppsInSecHi : Fld := ⟨0x180210, 0, 16, 0x0⟩
/-- TIME.PPS_IN_COUNT [31:0]. -/
def Reg.ppsInCount : Fld := ⟨0x180214, 0, 32, 0x0⟩
/-- TIME.RECCLK.DIV [1:0]. -/
def Reg.recclkDiv : Fld := ⟨0x180220, 0, 2, 0x0⟩
/-- TIME.PTP_CTRL.RX_EN [0:0]. -/
def Reg.ptpCtrlRxEn : Fld := ⟨0x180300, 0, 1, 0x0⟩
/-- TIME.PTP_CTRL.TX_EN [1:1]. -/
def Reg.ptpCtrlTxEn : Fld := ⟨0x180300, 1, 1, 0x0⟩
/-- TIME.PTP_RX_BASE [21:0]. -/
def Reg.ptpRxBase : Fld := ⟨0x180304, 0, 22, 0x0⟩
/-- TIME.PTP_RX_LEN [21:0]. -/
def Reg.ptpRxLen : Fld := ⟨0x180308, 0, 22, 0x0⟩
/-- TIME.PTP_RX_WPTR [21:0]. -/
def Reg.ptpRxWptr : Fld := ⟨0x18030C, 0, 22, 0x0⟩
/-- TIME.PTP_RX_RPTR [21:0]. -/
def Reg.ptpRxRptr : Fld := ⟨0x180310, 0, 22, 0x0⟩
/-- TIME.PTP_TX_BASE [21:0]. -/
def Reg.ptpTxBase : Fld := ⟨0x180314, 0, 22, 0x0⟩
/-- TIME.PTP_TX_LEN [21:0]. -/
def Reg.ptpTxLen : Fld := ⟨0x180318, 0, 22, 0x0⟩
/-- TIME.PTP_TX_WPTR [21:0]. -/
def Reg.ptpTxWptr : Fld := ⟨0x18031C, 0, 22, 0x0⟩
/-- TIME.PTP_TX_RPTR [21:0]. -/
def Reg.ptpTxRptr : Fld := ⟨0x180320, 0, 22, 0x0⟩
/-- TIME.TS_ADJ.RX_ADJ [15:0]. -/
def Reg.tsAdjRxAdj : Fld := ⟨0x180330, 0, 16, 0x0⟩
/-- TIME.TS_ADJ.TX_ADJ [31:16]. -/
def Reg.tsAdjTxAdj : Fld := ⟨0x180330, 16, 16, 0x0⟩
/-- TIME.TXTS_ID [16:0]. -/
def Reg.txtsId : Fld := ⟨0x180340, 0, 17, 0x0⟩
/-- TIME.TXTS_NS [29:0]. -/
def Reg.txtsNs : Fld := ⟨0x180344, 0, 30, 0x0⟩
/-- TIME.TXTS_SEC_LO [31:0]. -/
def Reg.txtsSecLo : Fld := ⟨0x180348, 0, 32, 0x0⟩
/-- TIME.TXTS_SEC_HI [15:0]. -/
def Reg.txtsSecHi : Fld := ⟨0x18034C, 0, 16, 0x0⟩
/-- TIME.TXTS_CTRL.POP [0:0]. -/
def Reg.txtsCtrlPop : Fld := ⟨0x180350, 0, 1, 0x0⟩
/-- TIME.PTP_COUNT_n [31:0]. -/
def Reg.ptpCount (n : Nat) : Fld := ⟨0x180380 + n * 0x4, 0, 32, 0x0⟩
/-- BUDGET.CLASS_c_r.FLOOR [15:0]. -/
def Reg.budgetClassFloor (c r : Nat) : Fld := ⟨0x200000 + c * 0x20 + r * 0x4, 0, 16, 0x0⟩
/-- BUDGET.CLASS_c_r.CEIL [31:16]. -/
def Reg.budgetClassCeil (c r : Nat) : Fld := ⟨0x200000 + c * 0x20 + r * 0x4, 16, 16, 0xFFFF⟩
/-- BUDGET.USED_c_r [15:0]. -/
def Reg.budgetUsed (c r : Nat) : Fld := ⟨0x200400 + c * 0x20 + r * 0x4, 0, 16, 0x0⟩
/-- BUDGET.STATUS.ENFORCING [0:0]. -/
def Reg.budgetStatusEnforcing : Fld := ⟨0x200800, 0, 1, 0x0⟩
/-- BUDGET.STATUS.TABLE_REFUSED [1:1]. -/
def Reg.budgetStatusTableRefused : Fld := ⟨0x200800, 1, 1, 0x0⟩
/-- BUDGET.EXHAUSTED [15:0]. -/
def Reg.exhausted : Fld := ⟨0x200804, 0, 16, 0x0⟩
/-- BUDGET.EXHAUSTED_NOW [15:0]. -/
def Reg.exhaustedNow : Fld := ⟨0x200808, 0, 16, 0x0⟩
/-- BUDGET.COMMIT_CTRL.ARM [0:0]. -/
def Reg.commitCtrlArm : Fld := ⟨0x200900, 0, 1, 0x0⟩
/-- BUDGET.COMMIT_CTRL.DISARM [1:1]. -/
def Reg.commitCtrlDisarm : Fld := ⟨0x200900, 1, 1, 0x0⟩
/-- BUDGET.COMMIT_CTRL.POINT [11:8]. -/
def Reg.commitCtrlPoint : Fld := ⟨0x200900, 8, 4, 0x0⟩
/-- BUDGET.SHADOW_SEQ [15:0]. -/
def Reg.shadowSeq : Fld := ⟨0x200904, 0, 16, 0x0⟩
/-- BUDGET.SHADOW_WSEQ.PCIE [15:0]. -/
def Reg.shadowWseqPcie : Fld := ⟨0x200908, 0, 16, 0x0⟩
/-- BUDGET.SHADOW_WSEQ.QSPI [31:16]. -/
def Reg.shadowWseqQspi : Fld := ⟨0x200908, 16, 16, 0x0⟩
/-- EVENTS.STATUS_w [31:0]. -/
def Reg.evStatus (w : Nat) : Fld := ⟨0x100000 + w * 0x4, 0, 32, 0x0⟩
/-- EVENTS.ENABLE_w [31:0]. -/
def Reg.evEnable (w : Nat) : Fld := ⟨0x100010 + w * 0x4, 0, 32, 0x0⟩
/-- EVENTS.ROUTE_r.BYTE0 [7:0]. -/
def Reg.evRouteByte0 (r : Nat) : Fld := ⟨0x100100 + r * 0x4, 0, 8, 0x0⟩
/-- EVENTS.ROUTE_r.BYTE1 [15:8]. -/
def Reg.evRouteByte1 (r : Nat) : Fld := ⟨0x100100 + r * 0x4, 8, 8, 0x0⟩
/-- EVENTS.ROUTE_r.BYTE2 [23:16]. -/
def Reg.evRouteByte2 (r : Nat) : Fld := ⟨0x100100 + r * 0x4, 16, 8, 0x0⟩
/-- EVENTS.ROUTE_r.BYTE3 [31:24]. -/
def Reg.evRouteByte3 (r : Nat) : Fld := ⟨0x100100 + r * 0x4, 24, 8, 0x0⟩
/-- EVENTS.PENDING [31:0]. -/
def Reg.evPending : Fld := ⟨0x100200, 0, 32, 0x0⟩
/-- EVENTS.PINS.IRQ_A [0:0]. -/
def Reg.evPinsIrqA : Fld := ⟨0x100204, 0, 1, 0x0⟩
/-- EVENTS.PINS.IRQ_B [1:1]. -/
def Reg.evPinsIrqB : Fld := ⟨0x100204, 1, 1, 0x0⟩
/-- CAL.CTRL.REQUIRE_PLUMB [0:0]. -/
def Reg.calCtrlRequirePlumb : Fld := ⟨0x1700000, 0, 1, 0x1⟩
/-- CAL.CTRL.AUTO_COUPLER [1:1]. -/
def Reg.calCtrlAutoCoupler : Fld := ⟨0x1700000, 1, 1, 0x0⟩
/-- CAL.CTRL.AUTO_SEAM [2:2]. -/
def Reg.calCtrlAutoSeam : Fld := ⟨0x1700000, 2, 1, 0x0⟩
/-- CAL.CTRL.MARGIN_AUTO [3:3]. -/
def Reg.calCtrlMarginAuto : Fld := ⟨0x1700000, 3, 1, 0x1⟩
/-- CAL.CTRL.TEMP_DELTA [15:8]. -/
def Reg.calCtrlTempDelta : Fld := ⟨0x1700000, 8, 8, 0xF⟩
/-- CAL.PLUMB_FREQ.KHZ [22:0]. -/
def Reg.plumbFreqKhz : Fld := ⟨0x1700004, 0, 23, 0x0⟩
/-- CAL.PLUMB_LEVEL.LEVEL [15:0]. -/
def Reg.plumbLevelLevel : Fld := ⟨0x1700008, 0, 16, 0x0⟩
/-- CAL.PLUMB_LEVEL.UNCERT [23:16]. -/
def Reg.plumbLevelUncert : Fld := ⟨0x1700008, 16, 8, 0x0⟩
/-- CAL.PLUMB_STATUS.PRESENT [0:0]. -/
def Reg.plumbStatusPresent : Fld := ⟨0x170000C, 0, 1, 0x0⟩
/-- CAL.PLUMB_STATUS.SEQ [31:16]. -/
def Reg.plumbStatusSeq : Fld := ⟨0x170000C, 16, 16, 0x0⟩
/-- CAL.SEAM_CTRL.PERIOD [15:0]. -/
def Reg.seamCtrlPeriod : Fld := ⟨0x1700010, 0, 16, 0x0⟩
/-- CAL.SEAM_CTRL.FRET [21:16]. -/
def Reg.seamCtrlFret : Fld := ⟨0x1700010, 16, 6, 0x0⟩
/-- CAL.SEAM_SKEW [15:0]. -/
def Reg.seamSkew : Fld := ⟨0x1700014, 0, 16, 0x0⟩
/-- CAL.SEAM_STATUS.RESIDUAL [7:0]. -/
def Reg.seamStatusResidual : Fld := ⟨0x1700018, 0, 8, 0xFF⟩
/-- CAL.SEAM_STATUS.TWIN_SEEN [8:8]. -/
def Reg.seamStatusTwinSeen : Fld := ⟨0x1700018, 8, 1, 0x0⟩
/-- CAL.SEAM_STATUS.SKIPPED [31:16]. -/
def Reg.seamStatusSkipped : Fld := ⟨0x1700018, 16, 16, 0x0⟩
/-- CAL.PATH_p.STATUS.TRACED [0:0]. -/
def Reg.calPathStatusTraced (p : Nat) : Fld := ⟨0x1700100 + p * 0x10, 0, 1, 0x0⟩
/-- CAL.PATH_p.STATUS.RESTORED [1:1]. -/
def Reg.calPathStatusRestored (p : Nat) : Fld := ⟨0x1700100 + p * 0x10, 1, 1, 0x0⟩
/-- CAL.PATH_p.STATUS.DUE [2:2]. -/
def Reg.calPathStatusDue (p : Nat) : Fld := ⟨0x1700100 + p * 0x10, 2, 1, 0x0⟩
/-- CAL.PATH_p.STATUS.FAIL_ID [11:8]. -/
def Reg.calPathStatusFailId (p : Nat) : Fld := ⟨0x1700100 + p * 0x10, 8, 4, 0x0⟩
/-- CAL.PATH_p.STATUS.FAIL_KIND [14:12]. -/
def Reg.calPathStatusFailKind (p : Nat) : Fld := ⟨0x1700100 + p * 0x10, 12, 3, 0x0⟩
/-- CAL.PATH_p.STATUS.COUPLER_FAILS [31:16]. -/
def Reg.calPathStatusCouplerFails (p : Nat) : Fld := ⟨0x1700100 + p * 0x10, 16, 16, 0x0⟩
/-- CAL.PATH_p.QUALITY.RX_IRR [7:0]. -/
def Reg.calPathQualityRxIrr (p : Nat) : Fld := ⟨0x1700104 + p * 0x10, 0, 8, 0x0⟩
/-- CAL.PATH_p.QUALITY.TX_IMAGE [15:8]. -/
def Reg.calPathQualityTxImage (p : Nat) : Fld := ⟨0x1700104 + p * 0x10, 8, 8, 0x0⟩
/-- CAL.PATH_p.QUALITY.TX_LEAK [23:16]. -/
def Reg.calPathQualityTxLeak (p : Nat) : Fld := ⟨0x1700104 + p * 0x10, 16, 8, 0x0⟩
/-- CAL.PATH_p.QUALITY.GAIN_ERR [31:24]. -/
def Reg.calPathQualityGainErr (p : Nat) : Fld := ⟨0x1700104 + p * 0x10, 24, 8, 0x0⟩
/-- CAL.PATH_p.TILE_OFFSET.PHASE [15:0]. -/
def Reg.tileOffsetPhase (p : Nat) : Fld := ⟨0x1700108 + p * 0x10, 0, 16, 0x0⟩
/-- CAL.PATH_p.TILE_OFFSET.GAIN [31:16]. -/
def Reg.tileOffsetGain (p : Nat) : Fld := ⟨0x1700108 + p * 0x10, 16, 16, 0x0⟩
/-- CAL.PATH_p.PREP_BAR [31:0]. -/
def Reg.prepBar (p : Nat) : Fld := ⟨0x170010C + p * 0x10, 0, 32, 0x0⟩
/-- CAL.BIST_p.PASSED [3:0]. -/
def Reg.bistPassed (p : Nat) : Fld := ⟨0x1700800 + p * 0x4, 0, 4, 0x0⟩
/-- CAL.BIST_p.SKIPPED [7:4]. -/
def Reg.bistSkipped (p : Nat) : Fld := ⟨0x1700800 + p * 0x4, 4, 4, 0x0⟩
/-- CAL.BIST_p.TESTS [31:16]. -/
def Reg.bistTests (p : Nat) : Fld := ⟨0x1700800 + p * 0x4, 16, 16, 0x0⟩
/-- CAL.BIST_STATUS.OBS_BAD [3:0]. -/
def Reg.bistStatusObsBad : Fld := ⟨0x1700900, 0, 4, 0x0⟩
/-- AGEING.AG_i.DRIFT [23:0]. -/
def Reg.ageingDrift (i : Nat) : Fld := ⟨0x1701000 + i * 0x4, 0, 24, 0x0⟩
/-- AGEING.AG_i.VALID [24:24]. -/
def Reg.ageingValid (i : Nat) : Fld := ⟨0x1701000 + i * 0x4, 24, 1, 0x0⟩
/-- AGEING.AG_i.BROKEN [25:25]. -/
def Reg.ageingBroken (i : Nat) : Fld := ⟨0x1701000 + i * 0x4, 25, 1, 0x0⟩
/-- AGEING.PLAN_A.GUARD_MV [7:0]. -/
def Reg.planAGuardMv : Fld := ⟨0x1701100, 0, 8, 0x3C⟩
/-- AGEING.PLAN_A.MEM_TIMING [9:8]. -/
def Reg.planAMemTiming : Fld := ⟨0x1701100, 8, 2, 0x3⟩
/-- AGEING.PLAN_A.PREP_INTERVAL_H [27:16]. -/
def Reg.planAPrepIntervalH : Fld := ⟨0x1701100, 16, 12, 0xA8⟩
/-- AGEING.PLAN_B.COUPLER_PERIOD [15:0]. -/
def Reg.planBCouplerPeriod : Fld := ⟨0x1701104, 0, 16, 0x64⟩
/-- AGEING.OVERRIDE_A.GUARD_MV [7:0]. -/
def Reg.overrideAGuardMv : Fld := ⟨0x1701108, 0, 8, 0x0⟩
/-- AGEING.OVERRIDE_A.MEM_TIMING [9:8]. -/
def Reg.overrideAMemTiming : Fld := ⟨0x1701108, 8, 2, 0x0⟩
/-- AGEING.OVERRIDE_A.PREP_INTERVAL_H [27:16]. -/
def Reg.overrideAPrepIntervalH : Fld := ⟨0x1701108, 16, 12, 0x0⟩
/-- AGEING.OVERRIDE_A.GUARD_EN [28:28]. -/
def Reg.overrideAGuardEn : Fld := ⟨0x1701108, 28, 1, 0x0⟩
/-- AGEING.OVERRIDE_A.MEM_EN [29:29]. -/
def Reg.overrideAMemEn : Fld := ⟨0x1701108, 29, 1, 0x0⟩
/-- AGEING.OVERRIDE_A.PREP_EN [30:30]. -/
def Reg.overrideAPrepEn : Fld := ⟨0x1701108, 30, 1, 0x0⟩
/-- AGEING.OVERRIDE_B.COUPLER_PERIOD [15:0]. -/
def Reg.overrideBCouplerPeriod : Fld := ⟨0x170110C, 0, 16, 0x0⟩
/-- AGEING.OVERRIDE_B.COUPLER_EN [31:31]. -/
def Reg.overrideBCouplerEn : Fld := ⟨0x170110C, 31, 1, 0x0⟩
/-- AGEING.STATUS.DUE [0:0]. -/
def Reg.ageingStatusDue : Fld := ⟨0x1701110, 0, 1, 0x0⟩
/-- AGEING.STATUS.VDD_SHORT [1:1]. -/
def Reg.ageingStatusVddShort : Fld := ⟨0x1701110, 1, 1, 0x0⟩
/-- AGEING.STATUS.PLANS [31:16]. -/
def Reg.ageingStatusPlans : Fld := ⟨0x1701110, 16, 16, 0x0⟩
/-- MONITOR.SEQ_x.CTRL.MODE [0:0]. -/
def Reg.seqCtrlMode (x : Nat) : Fld := ⟨0x1600000 + x * 0x10, 0, 1, 0x0⟩
/-- MONITOR.SEQ_x.CTRL.CLR_ON_RUN [1:1]. -/
def Reg.seqCtrlClrOnRun (x : Nat) : Fld := ⟨0x1600000 + x * 0x10, 1, 1, 0x0⟩
/-- MONITOR.SEQ_x.CTRL.SLOTS [7:4]. -/
def Reg.seqCtrlSlots (x : Nat) : Fld := ⟨0x1600000 + x * 0x10, 4, 4, 0x0⟩
/-- MONITOR.SEQ_x.CTRL.TRIGGER [11:8]. -/
def Reg.seqCtrlTrigger (x : Nat) : Fld := ⟨0x1600000 + x * 0x10, 8, 4, 0x0⟩
/-- MONITOR.SEQ_x.CTRL.ROUNDS [31:16]. -/
def Reg.seqCtrlRounds (x : Nat) : Fld := ⟨0x1600000 + x * 0x10, 16, 16, 0x1⟩
/-- MONITOR.SEQ_x.STATUS.ARMED [0:0]. -/
def Reg.seqStatusArmed (x : Nat) : Fld := ⟨0x1600004 + x * 0x10, 0, 1, 0x0⟩
/-- MONITOR.SEQ_x.STATUS.RUNNING [1:1]. -/
def Reg.seqStatusRunning (x : Nat) : Fld := ⟨0x1600004 + x * 0x10, 1, 1, 0x0⟩
/-- MONITOR.SEQ_x.STATUS.OVERRUN [31:16]. -/
def Reg.seqStatusOverrun (x : Nat) : Fld := ⟨0x1600004 + x * 0x10, 16, 16, 0x0⟩
/-- MONITOR.SLOT_x_s.CFG.CHANNEL [4:0]. -/
def Reg.slotCfgChannel (x s : Nat) : Fld := ⟨0x1600100 + x * 0x200 + s * 0x20, 0, 5, 0x0⟩
/-- MONITOR.SLOT_x_s.CFG.ORDER [6:5]. -/
def Reg.slotCfgOrder (x s : Nat) : Fld := ⟨0x1600100 + x * 0x200 + s * 0x20, 5, 2, 0x0⟩
/-- MONITOR.SLOT_x_s.CFG.LOG2_R [11:8]. -/
def Reg.slotCfgLog2R (x s : Nat) : Fld := ⟨0x1600100 + x * 0x200 + s * 0x20, 8, 4, 0x0⟩
/-- MONITOR.SLOT_x_s.CFG.SHIFT_0 [15:12]. -/
def Reg.slotCfgShift0 (x s : Nat) : Fld := ⟨0x1600100 + x * 0x200 + s * 0x20, 12, 4, 0x0⟩
/-- MONITOR.SLOT_x_s.CFG.SHIFT_1 [19:16]. -/
def Reg.slotCfgShift1 (x s : Nat) : Fld := ⟨0x1600100 + x * 0x200 + s * 0x20, 16, 4, 0x0⟩
/-- MONITOR.SLOT_x_s.CFG.SHIFT_2 [23:20]. -/
def Reg.slotCfgShift2 (x s : Nat) : Fld := ⟨0x1600100 + x * 0x200 + s * 0x20, 20, 4, 0x0⟩
/-- MONITOR.SLOT_x_s.CFG.SHIFT_3 [27:24]. -/
def Reg.slotCfgShift3 (x s : Nat) : Fld := ⟨0x1600100 + x * 0x200 + s * 0x20, 24, 4, 0x0⟩
/-- MONITOR.SLOT_x_s.RESULT.FINE [15:0]. -/
def Reg.slotResultFine (x s : Nat) : Fld := ⟨0x1600104 + x * 0x200 + s * 0x20, 0, 16, 0x0⟩
/-- MONITOR.SLOT_x_s.RESULT.COARSE [27:16]. -/
def Reg.slotResultCoarse (x s : Nat) : Fld := ⟨0x1600104 + x * 0x200 + s * 0x20, 16, 12, 0x0⟩
/-- MONITOR.SLOT_x_s.RESULT.VALID [28:28]. -/
def Reg.slotResultValid (x s : Nat) : Fld := ⟨0x1600104 + x * 0x200 + s * 0x20, 28, 1, 0x0⟩
/-- MONITOR.SLOT_x_s.MINMAX.MIN [15:0]. -/
def Reg.slotMinmaxMin (x s : Nat) : Fld := ⟨0x1600108 + x * 0x200 + s * 0x20, 0, 16, 0x7FFF⟩
/-- MONITOR.SLOT_x_s.MINMAX.MAX [31:16]. -/
def Reg.slotMinmaxMax (x s : Nat) : Fld := ⟨0x1600108 + x * 0x200 + s * 0x20, 16, 16, 0x8000⟩
/-- MONITOR.SLOT_x_s.ACC_LO [31:0]. -/
def Reg.slotAccLo (x s : Nat) : Fld := ⟨0x160010C + x * 0x200 + s * 0x20, 0, 32, 0x0⟩
/-- MONITOR.SLOT_x_s.ACC_HI [31:0]. -/
def Reg.slotAccHi (x s : Nat) : Fld := ⟨0x1600110 + x * 0x200 + s * 0x20, 0, 32, 0x0⟩
/-- MONITOR.SLOT_x_s.CMP_LIMITS.LOW [15:0]. -/
def Reg.slotCmpLimitsLow (x s : Nat) : Fld := ⟨0x1600114 + x * 0x200 + s * 0x20, 0, 16, 0x8000⟩
/-- MONITOR.SLOT_x_s.CMP_LIMITS.HIGH [31:16]. -/
def Reg.slotCmpLimitsHigh (x s : Nat) : Fld := ⟨0x1600114 + x * 0x200 + s * 0x20, 16, 16, 0x7FFF⟩
/-- MONITOR.SLOT_x_s.CMP_CTRL.MODE [1:0]. -/
def Reg.slotCmpCtrlMode (x s : Nat) : Fld := ⟨0x1600118 + x * 0x200 + s * 0x20, 0, 2, 0x0⟩
/-- MONITOR.SLOT_x_s.CMP_CTRL.SOURCE [2:2]. -/
def Reg.slotCmpCtrlSource (x s : Nat) : Fld := ⟨0x1600118 + x * 0x200 + s * 0x20, 2, 1, 0x0⟩
/-- MONITOR.SLOT_x_s.CMP_CTRL.PERSIST [15:8]. -/
def Reg.slotCmpCtrlPersist (x s : Nat) : Fld := ⟨0x1600118 + x * 0x200 + s * 0x20, 8, 8, 0x1⟩
/-- MONITOR.CMP_TRIPPED_x [15:0]. -/
def Reg.cmpTripped (x : Nat) : Fld := ⟨0x1600500 + x * 0x4, 0, 16, 0x0⟩
/-- MONITOR.TS_t.TEMP [11:0]. -/
def Reg.tempSensorTemp (t : Nat) : Fld := ⟨0x1600600 + t * 0x4, 0, 12, 0x0⟩
/-- MONITOR.TS_t.VALID [12:12]. -/
def Reg.tempSensorValid (t : Nat) : Fld := ⟨0x1600600 + t * 0x4, 12, 1, 0x0⟩
/-- MONITOR.TS_t.NEAR [13:13]. -/
def Reg.tempSensorNear (t : Nat) : Fld := ⟨0x1600600 + t * 0x4, 13, 1, 0x0⟩
/-- MONITOR.TS_t.BROKEN [14:14]. -/
def Reg.tempSensorBroken (t : Nat) : Fld := ⟨0x1600600 + t * 0x4, 14, 1, 0x0⟩
/-- MONITOR.THERMAL.WARN [7:0]. -/
def Reg.thermalWarn : Fld := ⟨0x1600700, 0, 8, 0x69⟩
/-- MONITOR.THERMAL.ACT [15:8]. -/
def Reg.thermalAct : Fld := ⟨0x1600700, 8, 8, 0x70⟩
/-- MONITOR.THERMAL.HYST [19:16]. -/
def Reg.thermalHyst : Fld := ⟨0x1600700, 16, 4, 0x5⟩
/-- MONITOR.THERMAL.RX_COMP [20:20]. -/
def Reg.thermalRxComp : Fld := ⟨0x1600700, 20, 1, 0x1⟩
/-- MONITOR.THERMAL.TX_COMP [21:21]. -/
def Reg.thermalTxComp : Fld := ⟨0x1600700, 21, 1, 0x1⟩
/-- MONITOR.THERMAL.ACT_ATTEN [31:24]. -/
def Reg.thermalActAtten : Fld := ⟨0x1600700, 24, 8, 0x8⟩
/-- MONITOR.THERMAL_STATUS.TJ_MAX [11:0]. -/
def Reg.thermalStatusTjMax : Fld := ⟨0x1600704, 0, 12, 0x0⟩
/-- MONITOR.THERMAL_STATUS.WARN [12:12]. -/
def Reg.thermalStatusWarn : Fld := ⟨0x1600704, 12, 1, 0x0⟩
/-- MONITOR.THERMAL_STATUS.WEST_ACT [13:13]. -/
def Reg.thermalStatusWestAct : Fld := ⟨0x1600704, 13, 1, 0x0⟩
/-- MONITOR.THERMAL_STATUS.EAST_ACT [14:14]. -/
def Reg.thermalStatusEastAct : Fld := ⟨0x1600704, 14, 1, 0x0⟩
/-- MONITOR.THERMAL_STATUS.UNKNOWN [15:15]. -/
def Reg.thermalStatusUnknown : Fld := ⟨0x1600704, 15, 1, 0x0⟩
/-- MONITOR.THERMAL_STATUS.BROKEN [31:16]. -/
def Reg.thermalStatusBroken : Fld := ⟨0x1600704, 16, 16, 0x0⟩
/-- MONITOR.CORE_SUPPLY.MV [15:0]. -/
def Reg.coreSupplyMv : Fld := ⟨0x1600708, 0, 16, 0x0⟩
/-- MONITOR.SAG_CTRL.ENABLE [0:0]. -/
def Reg.sagCtrlEnable : Fld := ⟨0x1600800, 0, 1, 0x0⟩
/-- MONITOR.SAG_CTRL.AUTO_RESTART [1:1]. -/
def Reg.sagCtrlAutoRestart : Fld := ⟨0x1600800, 1, 1, 0x0⟩
/-- MONITOR.SAG_CTRL.PERSIST [15:8]. -/
def Reg.sagCtrlPersist : Fld := ⟨0x1600800, 8, 8, 0x4⟩
/-- MONITOR.SAG_CTRL.SAG_ATTEN [23:16]. -/
def Reg.sagCtrlSagAtten : Fld := ⟨0x1600800, 16, 8, 0xC⟩
/-- MONITOR.SAG_CTRL.DEEP_MS [31:24]. -/
def Reg.sagCtrlDeepMs : Fld := ⟨0x1600800, 24, 8, 0x0⟩
/-- MONITOR.SAG_LEVELS_0.SAG1 [11:0]. -/
def Reg.sagLevels0Sag1 : Fld := ⟨0x1600804, 0, 12, 0x0⟩
/-- MONITOR.SAG_LEVELS_0.SAG2 [27:16]. -/
def Reg.sagLevels0Sag2 : Fld := ⟨0x1600804, 16, 12, 0x0⟩
/-- MONITOR.SAG_LEVELS_1.SAG3 [11:0]. -/
def Reg.sagLevels1Sag3 : Fld := ⟨0x1600808, 0, 12, 0x0⟩
/-- MONITOR.SAG_LEVELS_1.RECOVER_HYST [23:16]. -/
def Reg.sagLevels1RecoverHyst : Fld := ⟨0x1600808, 16, 8, 0x0⟩
/-- MONITOR.SAG_LEVELS_1.RECOVER_MS [31:24]. -/
def Reg.sagLevels1RecoverMs : Fld := ⟨0x1600808, 24, 8, 0x0⟩
/-- MONITOR.SAG_SHED.SHED_MASK_1 [15:0]. -/
def Reg.sagShedShedMask1 : Fld := ⟨0x160080C, 0, 16, 0x0⟩
/-- MONITOR.SAG_SHED.SHED_MASK_2 [31:16]. -/
def Reg.sagShedShedMask2 : Fld := ⟨0x160080C, 16, 16, 0x0⟩
/-- MONITOR.SAG_STATUS.STAGE [2:0]. -/
def Reg.sagStatusStage : Fld := ⟨0x1600810, 0, 3, 0x0⟩
/-- MONITOR.SAG_STATUS.SAG_N [3:3]. -/
def Reg.sagStatusSagN : Fld := ⟨0x1600810, 3, 1, 0x0⟩
/-- MONITOR.SAG_STATUS.RESTART_FAILED [4:4]. -/
def Reg.sagStatusRestartFailed : Fld := ⟨0x1600810, 4, 1, 0x0⟩
/-- MONITOR.SAG_STATUS.ENTRIES [31:16]. -/
def Reg.sagStatusEntries : Fld := ⟨0x1600810, 16, 16, 0x0⟩
/-- MEMINT.CTRL.SKIM_EN [5:0]. -/
def Reg.memintCtrlSkimEn : Fld := ⟨0x1800000, 0, 6, 0x3F⟩
/-- MEMINT.M_m.CE [31:0]. -/
def Reg.memCe (m : Nat) : Fld := ⟨0x1800100 + m * 0x20, 0, 32, 0x0⟩
/-- MEMINT.M_m.UE.UE_READ [15:0]. -/
def Reg.memUeUeRead (m : Nat) : Fld := ⟨0x1800104 + m * 0x20, 0, 16, 0x0⟩
/-- MEMINT.M_m.UE.LATENT [31:16]. -/
def Reg.memUeLatent (m : Nat) : Fld := ⟨0x1800104 + m * 0x20, 16, 16, 0x0⟩
/-- MEMINT.M_m.PARTIAL.UE_PARTIAL [15:0]. -/
def Reg.memPartialUePartial (m : Nat) : Fld := ⟨0x1800108 + m * 0x20, 0, 16, 0x0⟩
/-- MEMINT.M_m.PARTIAL.POISON_SEEN [31:16]. -/
def Reg.memPartialPoisonSeen (m : Nat) : Fld := ⟨0x1800108 + m * 0x20, 16, 16, 0x0⟩
/-- MEMINT.M_m.SKIM.LAP_MS [15:0]. -/
def Reg.memSkimLapMs (m : Nat) : Fld := ⟨0x180010C + m * 0x20, 0, 16, 0x0⟩
/-- MEMINT.M_m.SKIM.LAPS [31:16]. -/
def Reg.memSkimLaps (m : Nat) : Fld := ⟨0x180010C + m * 0x20, 16, 16, 0x0⟩
/-- MEMINT.M_m.SKIM_POS [23:0]. -/
def Reg.skimPos (m : Nat) : Fld := ⟨0x1800110 + m * 0x20, 0, 24, 0x0⟩
/-- MEMINT.M_m.SPARE.ROWS [7:0]. -/
def Reg.memSpareRows (m : Nat) : Fld := ⟨0x1800114 + m * 0x20, 0, 8, 0x0⟩
/-- MEMINT.M_m.SPARE.COLUMNS [15:8]. -/
def Reg.memSpareColumns (m : Nat) : Fld := ⟨0x1800114 + m * 0x20, 8, 8, 0x0⟩
/-- MEMINT.M_m.SPARE.MACROS [23:16]. -/
def Reg.memSpareMacros (m : Nat) : Fld := ⟨0x1800114 + m * 0x20, 16, 8, 0x0⟩
/-- MEMINT.LOG_STATUS.COUNT [4:0]. -/
def Reg.logStatusCount : Fld := ⟨0x1800400, 0, 5, 0x0⟩
/-- MEMINT.LOG_STATUS.LOST [31:16]. -/
def Reg.logStatusLost : Fld := ⟨0x1800400, 16, 16, 0x0⟩
/-- MEMINT.LOG_ADDR.ADDR [23:0]. -/
def Reg.logAddrAddr : Fld := ⟨0x1800404, 0, 24, 0x0⟩
/-- MEMINT.LOG_ADDR.EMPTY [31:31]. -/
def Reg.logAddrEmpty : Fld := ⟨0x1800404, 31, 1, 0x1⟩
/-- MEMINT.LOG_INFO.MEM [2:0]. -/
def Reg.logInfoMem : Fld := ⟨0x1800408, 0, 3, 0x0⟩
/-- MEMINT.LOG_INFO.KIND [10:8]. -/
def Reg.logInfoKind : Fld := ⟨0x1800408, 8, 3, 0x0⟩
/-- MEMINT.LOG_INFO.REQ [19:16]. -/
def Reg.logInfoReq : Fld := ⟨0x1800408, 16, 4, 0x0⟩
/-- MEMINT.LOG_INFO.SYMBOL [30:24]. -/
def Reg.logInfoSymbol : Fld := ⟨0x1800408, 24, 7, 0x0⟩
/-- MEMINT.LOG_TIME.SHORT [31:0]. -/
def Reg.logTimeShort : Fld := ⟨0x180040C, 0, 32, 0x0⟩
/-- MEMINT.LOG_CTRL.POP [0:0]. -/
def Reg.logCtrlPop : Fld := ⟨0x1800410, 0, 1, 0x0⟩
/-- SPINE.HOD_ASSIGN.CH8 [3:0]. -/
def Reg.hodAssignCh8 : Fld := ⟨0x500, 0, 4, 0x0⟩
/-- SPINE.HOD_ASSIGN.CH9 [7:4]. -/
def Reg.hodAssignCh9 : Fld := ⟨0x500, 4, 4, 0x0⟩
/-- SPINE.HOD_ASSIGN.CH10 [11:8]. -/
def Reg.hodAssignCh10 : Fld := ⟨0x500, 8, 4, 0x0⟩
/-- SPINE.HOD_ASSIGN.CH11 [15:12]. -/
def Reg.hodAssignCh11 : Fld := ⟨0x500, 12, 4, 0x0⟩
/-- SPINE.HOD_ASSIGN.CH12 [19:16]. -/
def Reg.hodAssignCh12 : Fld := ⟨0x500, 16, 4, 0x0⟩
/-- SPINE.HOD_ASSIGN.CH13 [23:20]. -/
def Reg.hodAssignCh13 : Fld := ⟨0x500, 20, 4, 0x0⟩
/-- SPINE.HOD_ASSIGN.CH14 [27:24]. -/
def Reg.hodAssignCh14 : Fld := ⟨0x500, 24, 4, 0x0⟩
/-- SPINE.HOD_ASSIGN.CH15 [31:28]. -/
def Reg.hodAssignCh15 : Fld := ⟨0x500, 28, 4, 0x0⟩
/-- HOD.CH_k.STATUS.STATE [1:0]. -/
def Reg.chStatusState (k : Nat) : Fld := ⟨0x1900000 + k * 0x40, 0, 2, 0x0⟩
/-- HOD.CH_k.STATUS.CODE [7:4]. -/
def Reg.chStatusCode (k : Nat) : Fld := ⟨0x1900000 + k * 0x40, 4, 4, 0x0⟩
/-- HOD.CH_k.STATUS.WB_FAILED [8:8]. -/
def Reg.chStatusWbFailed (k : Nat) : Fld := ⟨0x1900000 + k * 0x40, 8, 1, 0x0⟩
/-- HOD.CH_k.STATUS.POISONED [9:9]. -/
def Reg.chStatusPoisoned (k : Nat) : Fld := ⟨0x1900000 + k * 0x40, 9, 1, 0x0⟩
/-- HOD.CH_k.DESC_LO [31:0]. -/
def Reg.chDescLo (k : Nat) : Fld := ⟨0x1900004 + k * 0x40, 0, 32, 0x0⟩
/-- HOD.CH_k.DESC_HI [31:0]. -/
def Reg.chDescHi (k : Nat) : Fld := ⟨0x1900008 + k * 0x40, 0, 32, 0x0⟩
/-- HOD.CH_k.CHAIN.LIMIT [15:0]. -/
def Reg.chChainLimit (k : Nat) : Fld := ⟨0x190000C + k * 0x40, 0, 16, 0x1000⟩
/-- HOD.CH_k.CHAIN.COUNT [31:16]. -/
def Reg.chChainCount (k : Nat) : Fld := ⟨0x190000C + k * 0x40, 16, 16, 0x0⟩
/-- HOD.CH_k.DONE_BYTES [23:0]. -/
def Reg.chDoneBytes (k : Nat) : Fld := ⟨0x1900010 + k * 0x40, 0, 24, 0x0⟩
/-- HOD.CH_k.FAULT_ADDR_LO [31:0]. -/
def Reg.chFaultAddrLo (k : Nat) : Fld := ⟨0x1900014 + k * 0x40, 0, 32, 0x0⟩
/-- HOD.CH_k.FAULT_ADDR_HI [31:0]. -/
def Reg.chFaultAddrHi (k : Nat) : Fld := ⟨0x1900018 + k * 0x40, 0, 32, 0x0⟩
/-- HOD.CH_k.OWNER.KIND [1:0]. -/
def Reg.chOwnerKind (k : Nat) : Fld := ⟨0x190001C + k * 0x40, 0, 2, 0x0⟩
/-- HOD.CH_k.OWNER.CORE [12:8]. -/
def Reg.chOwnerCore (k : Nat) : Fld := ⟨0x190001C + k * 0x40, 8, 5, 0x0⟩
/-- HOD.RUNNING [15:0]. -/
def Reg.hodRunning : Fld := ⟨0x1900400, 0, 16, 0x0⟩
/-- SPINE.DEVICE_ID [31:0]. -/
def Reg.deviceId : Fld := ⟨0x0, 0, 32, 0x64640A01⟩
/-- SPINE.STATE [2:0]. -/
def Reg.spineState : Fld := ⟨0x4, 0, 3, 0x0⟩
/-- SPINE.UID_LO [31:0]. -/
def Reg.uidLo : Fld := ⟨0x8, 0, 32, 0x0⟩
/-- SPINE.UID_HI [31:0]. -/
def Reg.uidHi : Fld := ⟨0xC, 0, 32, 0x0⟩
/-- SPINE.SESSION_PCIE.ROLE [1:0]. -/
def Reg.sessionPcieRole : Fld := ⟨0x10, 0, 2, 0x0⟩
/-- SPINE.SESSION_PCIE.KEY_SLOT [2:2]. -/
def Reg.sessionPcieKeySlot : Fld := ⟨0x10, 2, 1, 0x0⟩
/-- SPINE.SESSION_PCIE.LOCKOUT [3:3]. -/
def Reg.sessionPcieLockout : Fld := ⟨0x10, 3, 1, 0x0⟩
/-- SPINE.SESSION_PCIE.FAILS [6:4]. -/
def Reg.sessionPcieFails : Fld := ⟨0x10, 4, 3, 0x0⟩
/-- SPINE.SESSION_QSPI.ROLE [1:0]. -/
def Reg.sessionQspiRole : Fld := ⟨0x14, 0, 2, 0x0⟩
/-- SPINE.SESSION_QSPI.KEY_SLOT [2:2]. -/
def Reg.sessionQspiKeySlot : Fld := ⟨0x14, 2, 1, 0x0⟩
/-- SPINE.SESSION_QSPI.LOCKOUT [3:3]. -/
def Reg.sessionQspiLockout : Fld := ⟨0x14, 3, 1, 0x0⟩
/-- SPINE.SESSION_QSPI.FAILS [6:4]. -/
def Reg.sessionQspiFails : Fld := ⟨0x14, 4, 3, 0x0⟩
/-- SPINE.CMD.OPCODE [7:0]. -/
def Reg.cmdOpcode : Fld := ⟨0x40, 0, 8, 0x0⟩
/-- SPINE.CMD_STATUS.CODE [2:0]. -/
def Reg.cmdStatusCode : Fld := ⟨0x44, 0, 3, 0x0⟩
/-- SPINE.CMD_STATUS.RUNNING [4:4]. -/
def Reg.cmdStatusRunning : Fld := ⟨0x44, 4, 1, 0x0⟩
/-- SPINE.CMD_STATUS.PORT [5:5]. -/
def Reg.cmdStatusPort : Fld := ⟨0x44, 5, 1, 0x0⟩
/-- SPINE.CMD_STATUS.OPCODE [15:8]. -/
def Reg.cmdStatusOpcode : Fld := ⟨0x44, 8, 8, 0x0⟩
/-- SPINE.CMD_STATUS.SEQ [31:16]. -/
def Reg.cmdStatusSeq : Fld := ⟨0x44, 16, 16, 0x0⟩
/-- SPINE.CMD_CLAIM.OWNER [1:0]. -/
def Reg.cmdClaimOwner : Fld := ⟨0x48, 0, 2, 0x0⟩
/-- SPINE.CMD_CLAIM.CLAIM [8:8]. -/
def Reg.cmdClaimClaim : Fld := ⟨0x48, 8, 1, 0x0⟩
/-- SPINE.CMD_CLAIM.RELEASE [9:9]. -/
def Reg.cmdClaimRelease : Fld := ⟨0x48, 9, 1, 0x0⟩
/-- SPINE.CMD_BOUNCE.PCIE [15:0]. -/
def Reg.cmdBouncePcie : Fld := ⟨0x4C, 0, 16, 0x0⟩
/-- SPINE.CMD_BOUNCE.QSPI [31:16]. -/
def Reg.cmdBounceQspi : Fld := ⟨0x4C, 16, 16, 0x0⟩
/-- SPINE.ARG_i [31:0]. -/
def Reg.arg (i : Nat) : Fld := ⟨0x80 + i * 0x4, 0, 32, 0x0⟩
/-- SPINE.JOURNAL_STATUS.UNACKED [12:0]. -/
def Reg.journalStatusUnacked : Fld := ⟨0x200, 0, 13, 0x0⟩
/-- SPINE.JOURNAL_STATUS.NEAR_FULL [13:13]. -/
def Reg.journalStatusNearFull : Fld := ⟨0x200, 13, 1, 0x0⟩
/-- SPINE.JOURNAL_STATUS.CAPSULE_VALID [14:14]. -/
def Reg.journalStatusCapsuleValid : Fld := ⟨0x200, 14, 1, 0x0⟩
/-- SPINE.JOURNAL_STATUS.RETURNED [19:16]. -/
def Reg.journalStatusReturned : Fld := ⟨0x200, 16, 4, 0x0⟩
/-- SPINE.JOURNAL_SEQ [31:0]. -/
def Reg.journalSeq : Fld := ⟨0x204, 0, 32, 0x0⟩
/-- SPINE.SCRATCH.BASE [10:0]. -/
def Reg.scratchBase : Fld := ⟨0x510, 0, 11, 0x0⟩
/-- SPINE.SCRATCH.LEN [26:16]. -/
def Reg.scratchLen : Fld := ⟨0x510, 16, 11, 0x0⟩
/-- SPINE.DOMAIN_ABSENT_I [9:0]. -/
def Reg.domainAbsentI : Fld := ⟨0x520, 0, 10, 0x0⟩
/-- SPINE.DOMAIN_ABSENT_O [9:0]. -/
def Reg.domainAbsentO : Fld := ⟨0x524, 0, 10, 0x0⟩
/-- SPINE.KERNEL_MASK.CORES [7:0]. -/
def Reg.kernelMaskCores : Fld := ⟨0x528, 0, 8, 0x0⟩
/-- HOSTPORT.PCIE_LINK.SPEED [3:0]. -/
def Reg.pcieLinkSpeed : Fld := ⟨0x1A00000, 0, 4, 0x0⟩
/-- HOSTPORT.PCIE_LINK.WIDTH [7:4]. -/
def Reg.pcieLinkWidth : Fld := ⟨0x1A00000, 4, 4, 0x0⟩
/-- HOSTPORT.PCIE_LINK.DL_ACTIVE [8:8]. -/
def Reg.pcieLinkDlActive : Fld := ⟨0x1A00000, 8, 1, 0x0⟩
/-- HOSTPORT.PCIE_LINK.L1 [9:9]. -/
def Reg.pcieLinkL1 : Fld := ⟨0x1A00000, 9, 1, 0x0⟩
/-- HOSTPORT.ACCESS_LOG_ADDR [31:0]. -/
def Reg.accessLogAddr : Fld := ⟨0x1A00010, 0, 32, 0x0⟩
/-- HOSTPORT.ACCESS_LOG_INFO.CAUSE [3:0]. -/
def Reg.accessLogInfoCause : Fld := ⟨0x1A00014, 0, 4, 0x0⟩
/-- HOSTPORT.ACCESS_LOG_INFO.PORT [4:4]. -/
def Reg.accessLogInfoPort : Fld := ⟨0x1A00014, 4, 1, 0x0⟩
/-- HOSTPORT.ACCESS_LOG_INFO.WRITE [5:5]. -/
def Reg.accessLogInfoWrite : Fld := ⟨0x1A00014, 5, 1, 0x0⟩
/-- HOSTPORT.ACCESS_LOG_INFO.CLEAR [15:15]. -/
def Reg.accessLogInfoClear : Fld := ⟨0x1A00014, 15, 1, 0x0⟩
/-- HOSTPORT.ACCESS_LOG_INFO.COUNT [31:16]. -/
def Reg.accessLogInfoCount : Fld := ⟨0x1A00014, 16, 16, 0x0⟩
/-- HOSTPORT MSI-X table entry v, ADDR_LO [31:0]. -/
def Reg.msixAddrLo (v : Nat) : Fld := ⟨0x1A10000 + v * 0x10, 0, 32, 0x0⟩
/-- HOSTPORT MSI-X table entry v, ADDR_HI [31:0]. -/
def Reg.msixAddrHi (v : Nat) : Fld := ⟨0x1A10004 + v * 0x10, 0, 32, 0x0⟩
/-- HOSTPORT MSI-X table entry v, DATA [31:0]. -/
def Reg.msixData (v : Nat) : Fld := ⟨0x1A10008 + v * 0x10, 0, 32, 0x0⟩
/-- HOSTPORT MSI-X table entry v, CONTROL.MASK [0:0]. -/
def Reg.msixControlMask (v : Nat) : Fld := ⟨0x1A1000C + v * 0x10, 0, 1, 0x1⟩

/-- The register families of the block at 0x0 (R519). -/
def regFamsSpine : List RegFam := [
  ⟨0x400, [], [⟨0, 1, .rw, [.operator], 0x0⟩, ⟨1, 1, .rw, [.operator], 0x0⟩, ⟨2, 1, .rw, [.operator], 0x0⟩, ⟨3, 1, .rw, [.operator], 0x0⟩]⟩,
  ⟨0x404, [], [⟨0, 16, .rw, [.operator], 0x28⟩]⟩,
  ⟨0x408, [], [⟨0, 16, .rw, [.installer], 0x28⟩]⟩,
  ⟨0x40C, [], [⟨0, 16, .rw, [.operator], 0xC8⟩]⟩,
  ⟨0x410, [], [⟨0, 16, .rw, [.operator], 0x28⟩]⟩,
  ⟨0x414, [], [⟨0, 16, .rw, [.operator], 0x0⟩, ⟨16, 6, .rw, [.operator], 0x0⟩, ⟨22, 6, .rw, [.operator], 0x0⟩]⟩,
  ⟨0x418, [], [⟨0, 1, .ro, [], 0x0⟩, ⟨1, 1, .ro, [], 0x0⟩, ⟨2, 1, .ro, [], 0x0⟩, ⟨3, 1, .ro, [], 0x0⟩]⟩,
  ⟨0x41C, [], [⟨0, 16, .ro, [], 0x0⟩, ⟨16, 16, .ro, [], 0x0⟩]⟩,
  ⟨0x420, [], [⟨0, 32, .ro, [], 0x0⟩]⟩,
  ⟨0x500, [], [⟨0, 4, .rw, [.operator], 0x0⟩, ⟨4, 4, .rw, [.operator], 0x0⟩, ⟨8, 4, .rw, [.operator], 0x0⟩, ⟨12, 4, .rw, [.operator], 0x0⟩, ⟨16, 4, .rw, [.operator], 0x0⟩, ⟨20, 4, .rw, [.operator], 0x0⟩, ⟨24, 4, .rw, [.operator], 0x0⟩, ⟨28, 4, .rw, [.operator], 0x0⟩]⟩,
  ⟨0x0, [], [⟨0, 32, .ro, [], 0x64640A01⟩]⟩,
  ⟨0x4, [], [⟨0, 3, .ro, [], 0x0⟩]⟩,
  ⟨0x8, [], [⟨0, 32, .ro, [], 0x0⟩]⟩,
  ⟨0xC, [], [⟨0, 32, .ro, [], 0x0⟩]⟩,
  ⟨0x10, [], [⟨0, 2, .ro, [], 0x0⟩, ⟨2, 1, .ro, [], 0x0⟩, ⟨3, 1, .ro, [], 0x0⟩, ⟨4, 3, .ro, [], 0x0⟩]⟩,
  ⟨0x14, [], [⟨0, 2, .ro, [], 0x0⟩, ⟨2, 1, .ro, [], 0x0⟩, ⟨3, 1, .ro, [], 0x0⟩, ⟨4, 3, .ro, [], 0x0⟩]⟩,
  ⟨0x40, [], [⟨0, 8, .wo, [.maker, .installer, .operator], 0x0⟩]⟩,
  ⟨0x44, [], [⟨0, 3, .ro, [], 0x0⟩, ⟨4, 1, .ro, [], 0x0⟩, ⟨5, 1, .ro, [], 0x0⟩, ⟨8, 8, .ro, [], 0x0⟩, ⟨16, 16, .ro, [], 0x0⟩]⟩,
  ⟨0x48, [], [⟨0, 2, .ro, [], 0x0⟩, ⟨8, 1, .w1s, [.maker, .installer, .operator], 0x0⟩, ⟨9, 1, .w1s, [.maker, .installer, .operator], 0x0⟩]⟩,
  ⟨0x4C, [], [⟨0, 16, .ro, [], 0x0⟩, ⟨16, 16, .ro, [], 0x0⟩]⟩,
  ⟨0x80, [(0x4, 16)], [⟨0, 32, .rw, [.maker, .installer, .operator], 0x0⟩]⟩,
  ⟨0x200, [], [⟨0, 13, .ro, [], 0x0⟩, ⟨13, 1, .ro, [], 0x0⟩, ⟨14, 1, .ro, [], 0x0⟩, ⟨16, 4, .ro, [], 0x0⟩]⟩,
  ⟨0x204, [], [⟨0, 32, .ro, [], 0x0⟩]⟩,
  ⟨0x510, [], [⟨0, 11, .rw, [.operator], 0x0⟩, ⟨16, 11, .rw, [.operator], 0x0⟩]⟩,
  ⟨0x520, [], [⟨0, 10, .rw, [.installer], 0x0⟩]⟩,
  ⟨0x524, [], [⟨0, 10, .rw, [.operator], 0x0⟩]⟩,
  ⟨0x528, [], [⟨0, 8, .rw, [.maker], 0x0⟩]⟩]

/-- The register families of the block at 0x100000 (R519). -/
def regFamsEvents : List RegFam := [
  ⟨0x100000, [(0x4, 4)], [⟨0, 32, .w1c, [], 0x0⟩]⟩,
  ⟨0x100010, [(0x4, 4)], [⟨0, 32, .rw, [.installer, .operator], 0x0⟩]⟩,
  ⟨0x100100, [(0x4, 32)], [⟨0, 8, .rw, [.installer, .operator], 0x0⟩, ⟨8, 8, .rw, [.installer, .operator], 0x0⟩, ⟨16, 8, .rw, [.installer, .operator], 0x0⟩, ⟨24, 8, .rw, [.installer, .operator], 0x0⟩]⟩,
  ⟨0x100200, [], [⟨0, 32, .ro, [], 0x0⟩]⟩,
  ⟨0x100204, [], [⟨0, 1, .ro, [], 0x0⟩, ⟨1, 1, .ro, [], 0x0⟩]⟩]

/-- The register families of the block at 0x180000 (R519). -/
def regFamsTime : List RegFam := [
  ⟨0x180000, [], [⟨0, 2, .ro, [], 0x0⟩, ⟨2, 1, .ro, [], 0x0⟩, ⟨3, 1, .ro, [], 0x0⟩, ⟨4, 4, .ro, [], 0x0⟩]⟩,
  ⟨0x180004, [], [⟨0, 30, .ro, [], 0x0⟩]⟩,
  ⟨0x180008, [], [⟨0, 32, .ro, [], 0x0⟩]⟩,
  ⟨0x18000C, [], [⟨0, 16, .ro, [], 0x0⟩]⟩,
  ⟨0x180010, [], [⟨0, 32, .ro, [], 0x0⟩]⟩,
  ⟨0x180014, [], [⟨0, 32, .ro, [], 0x0⟩]⟩,
  ⟨0x180020, [], [⟨0, 32, .rw, [.operator], 0x11AAAAAB⟩]⟩,
  ⟨0x180024, [], [⟨0, 8, .rw, [.operator], 0x4⟩]⟩,
  ⟨0x180100, [(0x10, 8)], [⟨0, 32, .rw, [.installer, .operator], 0x0⟩]⟩,
  ⟨0x180104, [(0x10, 8)], [⟨0, 32, .rw, [.installer, .operator], 0x0⟩]⟩,
  ⟨0x180108, [(0x10, 8)], [⟨0, 1, .rw, [.installer, .operator], 0x0⟩, ⟨1, 2, .rw, [.installer, .operator], 0x0⟩]⟩,
  ⟨0x180200, [], [⟨0, 1, .rw, [.installer], 0x0⟩, ⟨1, 1, .rw, [.installer], 0x0⟩, ⟨16, 16, .rw, [.installer], 0x64⟩]⟩,
  ⟨0x180204, [], [⟨0, 32, .rw, [.installer], 0x0⟩]⟩,
  ⟨0x180208, [], [⟨0, 30, .ro, [], 0x0⟩]⟩,
  ⟨0x18020C, [], [⟨0, 32, .ro, [], 0x0⟩]⟩,
  ⟨0x180210, [], [⟨0, 16, .ro, [], 0x0⟩]⟩,
  ⟨0x180214, [], [⟨0, 32, .ro, [], 0x0⟩]⟩,
  ⟨0x180220, [], [⟨0, 2, .rw, [.installer], 0x0⟩]⟩,
  ⟨0x180300, [], [⟨0, 1, .rw, [.installer, .operator], 0x0⟩, ⟨1, 1, .rw, [.installer, .operator], 0x0⟩]⟩,
  ⟨0x180304, [], [⟨0, 22, .rw, [.installer, .operator], 0x0⟩]⟩,
  ⟨0x180308, [], [⟨0, 22, .rw, [.installer, .operator], 0x0⟩]⟩,
  ⟨0x18030C, [], [⟨0, 22, .ro, [], 0x0⟩]⟩,
  ⟨0x180310, [], [⟨0, 22, .rw, [.installer, .operator], 0x0⟩]⟩,
  ⟨0x180314, [], [⟨0, 22, .rw, [.installer, .operator], 0x0⟩]⟩,
  ⟨0x180318, [], [⟨0, 22, .rw, [.installer, .operator], 0x0⟩]⟩,
  ⟨0x18031C, [], [⟨0, 22, .rw, [.installer, .operator], 0x0⟩]⟩,
  ⟨0x180320, [], [⟨0, 22, .ro, [], 0x0⟩]⟩,
  ⟨0x180330, [], [⟨0, 16, .rw, [.installer], 0x0⟩, ⟨16, 16, .rw, [.installer], 0x0⟩]⟩,
  ⟨0x180340, [], [⟨0, 17, .ro, [], 0x0⟩]⟩,
  ⟨0x180344, [], [⟨0, 30, .ro, [], 0x0⟩]⟩,
  ⟨0x180348, [], [⟨0, 32, .ro, [], 0x0⟩]⟩,
  ⟨0x18034C, [], [⟨0, 16, .ro, [], 0x0⟩]⟩,
  ⟨0x180350, [], [⟨0, 1, .wo, [.installer, .operator], 0x0⟩]⟩,
  ⟨0x180380, [(0x4, 6)], [⟨0, 32, .ro, [], 0x0⟩]⟩]

/-- The register families of the block at 0x200000 (R519). -/
def regFamsBudget : List RegFam := [
  ⟨0x200000, [(0x20, 16), (0x4, 5)], [⟨0, 16, .sh, [.operator], 0x0⟩, ⟨16, 16, .sh, [.operator], 0xFFFF⟩]⟩,
  ⟨0x200400, [(0x20, 16), (0x4, 5)], [⟨0, 16, .ro, [], 0x0⟩]⟩,
  ⟨0x200800, [], [⟨0, 1, .ro, [], 0x0⟩, ⟨1, 1, .w1c, [], 0x0⟩]⟩,
  ⟨0x200804, [], [⟨0, 16, .w1c, [], 0x0⟩]⟩,
  ⟨0x200808, [], [⟨0, 16, .ro, [], 0x0⟩]⟩,
  ⟨0x200900, [], [⟨0, 1, .w1s, [.installer, .operator], 0x0⟩, ⟨1, 1, .w1s, [.installer, .operator], 0x0⟩, ⟨8, 4, .rw, [.installer, .operator], 0x0⟩]⟩,
  ⟨0x200904, [], [⟨0, 16, .ro, [], 0x0⟩]⟩,
  ⟨0x200908, [], [⟨0, 16, .ro, [], 0x0⟩, ⟨16, 16, .ro, [], 0x0⟩]⟩]

/-- The register families of the block at 0x400000 (R519). -/
def regFamsPath : List RegFam := [
  ⟨0x400000, [(0x4000, 64)], [⟨0, 1, .rw, [.installer], 0x1⟩, ⟨1, 1, .rw, [.installer], 0x1⟩, ⟨2, 1, .sh, [.operator], 0x0⟩, ⟨3, 1, .rw, [.installer], 0x1⟩, ⟨31, 1, .wo, [.operator], 0x0⟩]⟩,
  ⟨0x400004, [(0x4000, 64)], [⟨0, 5, .sh, [.installer, .operator], 0x1F⟩, ⟨8, 5, .ro, [], 0x1F⟩]⟩,
  ⟨0x400008, [(0x4000, 64)], [⟨0, 5, .rw, [.installer], 0x0⟩, ⟨8, 5, .rw, [.installer], 0x1F⟩, ⟨16, 5, .rw, [.operator], 0xC⟩]⟩,
  ⟨0x40000C, [(0x4000, 64)], [⟨0, 1, .sh, [.operator], 0x0⟩, ⟨8, 1, .ro, [], 0x0⟩]⟩,
  ⟨0x400010, [(0x4000, 64)], [⟨0, 16, .rw, [.installer], 0x0⟩, ⟨16, 16, .rw, [.installer], 0x0⟩]⟩,
  ⟨0x400014, [(0x4000, 64)], [⟨0, 1, .w1c, [], 0x0⟩, ⟨1, 1, .w1c, [], 0x0⟩, ⟨2, 1, .w1c, [], 0x0⟩, ⟨3, 1, .w1c, [], 0x0⟩, ⟨4, 1, .w1c, [], 0x0⟩, ⟨5, 1, .w1c, [], 0x0⟩]⟩,
  ⟨0x400018, [(0x4000, 64)], [⟨0, 8, .ro, [], 0xFF⟩]⟩,
  ⟨0x40001C, [(0x4000, 64)], [⟨0, 32, .ro, [], 0x0⟩]⟩,
  ⟨0x400020, [(0x4000, 64)], [⟨0, 32, .ro, [], 0x0⟩]⟩,
  ⟨0x400100, [(0x4000, 64)], [⟨0, 1, .rw, [.installer, .operator], 0x1⟩, ⟨1, 1, .sh, [.operator], 0x0⟩, ⟨2, 1, .sh, [.installer], 0x0⟩, ⟨3, 1, .rw, [.installer], 0x1⟩, ⟨4, 1, .rw, [.installer], 0x1⟩, ⟨31, 1, .wo, [.operator], 0x0⟩]⟩,
  ⟨0x400104, [(0x4000, 64)], [⟨0, 8, .sh, [.operator], 0xFF⟩, ⟨8, 8, .ro, [], 0xFF⟩]⟩,
  ⟨0x400108, [(0x4000, 64)], [⟨0, 8, .rw, [.installer], 0xFF⟩]⟩,
  ⟨0x40010C, [(0x4000, 64)], [⟨0, 16, .sh, [.operator], 0x8000⟩, ⟨16, 1, .sh, [.operator], 0x0⟩, ⟨17, 1, .sh, [.operator], 0x0⟩, ⟨18, 1, .ro, [], 0x0⟩]⟩,
  ⟨0x400110, [(0x4000, 64)], [⟨0, 1, .rw, [.installer, .operator], 0x0⟩, ⟨1, 1, .ro, [], 0x0⟩, ⟨2, 1, .ro, [], 0x0⟩, ⟨8, 8, .ro, [], 0x0⟩, ⟨16, 16, .ro, [], 0x0⟩]⟩,
  ⟨0x400114, [(0x4000, 64)], [⟨0, 8, .ro, [], 0x0⟩, ⟨8, 8, .ro, [], 0x0⟩, ⟨16, 8, .ro, [], 0x0⟩]⟩,
  ⟨0x400118, [(0x4000, 64)], [⟨0, 16, .rw, [.installer], 0x0⟩, ⟨16, 16, .rw, [.installer], 0x0⟩]⟩,
  ⟨0x40011C, [(0x4000, 64)], [⟨0, 16, .rw, [.installer], 0x0⟩, ⟨16, 16, .rw, [.installer], 0x0⟩]⟩,
  ⟨0x400120, [(0x4000, 64)], [⟨0, 5, .rw, [.installer], 0x10⟩, ⟨8, 16, .rw, [.installer], 0x0⟩]⟩,
  ⟨0x400124, [(0x4000, 64)], [⟨0, 1, .w1c, [], 0x0⟩, ⟨1, 1, .w1c, [], 0x0⟩, ⟨2, 1, .w1c, [], 0x0⟩]⟩,
  ⟨0x400128, [(0x4000, 64)], [⟨0, 32, .ro, [], 0x0⟩]⟩,
  ⟨0x40012C, [(0x4000, 64)], [⟨0, 24, .ro, [], 0x0⟩, ⟨24, 8, .ro, [], 0x0⟩]⟩,
  ⟨0x400130, [(0x4000, 64)], [⟨0, 1, .sh, [.installer], 0x0⟩, ⟨1, 1, .sh, [.installer], 0x0⟩, ⟨16, 16, .sh, [.installer], 0x0⟩]⟩,
  ⟨0x400200, [(0x4000, 64)], [⟨0, 3, .ro, [], 0x0⟩, ⟨8, 4, .ro, [], 0x0⟩]⟩,
  ⟨0x400204, [(0x4000, 64)], [⟨0, 8, .ro, [], 0x0⟩, ⟨8, 5, .ro, [], 0x0⟩, ⟨16, 8, .ro, [], 0x0⟩]⟩,
  ⟨0x400134, [(0x4000, 64)], [⟨0, 32, .sh, [.installer], 0x0⟩]⟩,
  ⟨0x400138, [(0x4000, 64)], [⟨0, 32, .sh, [.installer], 0x0⟩]⟩,
  ⟨0x400400, [(0x4000, 64), (0x100, 2)], [⟨0, 16, .rw, [.installer, .operator], 0x1000⟩, ⟨16, 16, .rw, [.installer, .operator], 0x0⟩]⟩,
  ⟨0x400404, [(0x4000, 64), (0x100, 2), (0x4, 39)], [⟨0, 16, .rw, [.installer, .operator], 0x0⟩, ⟨16, 16, .rw, [.installer, .operator], 0x0⟩]⟩]

/-- The register families of the block at 0x500000 (R519). -/
def regFamsSynth : List RegFam := [
  ⟨0x500000, [(0x1000, 4)], [⟨0, 3, .ro, [], 0x0⟩, ⟨3, 1, .ro, [], 0x0⟩, ⟨4, 1, .w1c, [], 0x0⟩, ⟨5, 1, .ro, [], 0x0⟩, ⟨8, 8, .ro, [], 0x0⟩]⟩,
  ⟨0x500004, [(0x1000, 4)], [⟨0, 23, .ro, [], 0x0⟩]⟩,
  ⟨0x500008, [(0x1000, 4)], [⟨0, 16, .rw, [.installer], 0x258⟩, ⟨16, 16, .rw, [.installer], 0x1068⟩]⟩,
  ⟨0x50000C, [(0x1000, 4)], [⟨0, 16, .ro, [], 0x0⟩, ⟨16, 8, .ro, [], 0x0⟩, ⟨24, 8, .ro, [], 0x0⟩]⟩,
  ⟨0x500010, [(0x1000, 4)], [⟨0, 32, .ro, [], 0x0⟩]⟩,
  ⟨0x500400, [(0x1000, 4), (0x8, 256)], [⟨0, 23, .ro, [], 0x0⟩, ⟨23, 1, .ro, [], 0x0⟩, ⟨24, 1, .ro, [], 0x0⟩]⟩,
  ⟨0x500404, [(0x1000, 4), (0x8, 256)], [⟨0, 8, .ro, [], 0x0⟩]⟩,
  ⟨0x504000, [], [⟨0, 6, .rw, [.installer], 0x14⟩]⟩]

/-- The register families of the block at 0x580000 (R519). -/
def regFamsTile : List RegFam := [
  ⟨0x580000, [(0x100, 8)], [⟨0, 1, .rw, [.installer], 0x1⟩, ⟨1, 1, .rw, [.installer], 0x0⟩, ⟨8, 8, .rw, [.installer], 0xA⟩]⟩,
  ⟨0x580004, [(0x100, 8)], [⟨0, 3, .ro, [], 0x0⟩, ⟨3, 1, .ro, [], 0x0⟩, ⟨4, 1, .ro, [], 0x0⟩, ⟨5, 1, .ro, [], 0x0⟩, ⟨8, 3, .ro, [], 0x0⟩]⟩,
  ⟨0x580008, [(0x100, 8), (0x4, 2)], [⟨0, 8, .ro, [], 0x0⟩, ⟨8, 12, .ro, [], 0x0⟩, ⟨20, 4, .ro, [], 0x0⟩]⟩,
  ⟨0x581000, [(0x4, 16)], [⟨0, 12, .rw, [.installer], 0x0⟩, ⟨12, 1, .rw, [.installer], 0x0⟩, ⟨13, 1, .ro, [], 0x0⟩, ⟨14, 1, .ro, [], 0x1⟩, ⟨16, 12, .ro, [], 0x0⟩]⟩,
  ⟨0x581040, [], [⟨0, 1, .wo, [.installer], 0x0⟩, ⟨1, 1, .rw, [.installer], 0x0⟩]⟩,
  ⟨0x581080, [], [⟨0, 8, .rw, [.installer], 0x28⟩, ⟨8, 8, .rw, [.installer], 0x64⟩, ⟨16, 1, .rw, [.installer], 0x0⟩]⟩]

/-- The register families of the block at 0x600000 (R519). -/
def regFamsDfe : List RegFam := [
  ⟨0x600000, [(0x4, 2)], [⟨0, 32, .sh, [.operator], 0x0⟩]⟩,
  ⟨0x600010, [(0x8, 4)], [⟨0, 1, .sh, [.operator], 0x0⟩, ⟨4, 3, .sh, [.operator], 0x0⟩]⟩,
  ⟨0x600014, [(0x8, 4)], [⟨0, 32, .sh, [.operator], 0x0⟩]⟩,
  ⟨0x600400, [(0x200, 2), (0x100, 2)], [⟨0, 18, .rw, [.operator], 0x10000⟩]⟩,
  ⟨0x600404, [(0x200, 2), (0x100, 2), (0x4, 63)], [⟨0, 18, .rw, [.operator], 0x0⟩]⟩,
  ⟨0x600040, [(0x4, 2)], [⟨0, 32, .sh, [.operator], 0x0⟩]⟩,
  ⟨0x600050, [(0x8, 4)], [⟨0, 1, .sh, [.operator], 0x0⟩, ⟨4, 3, .sh, [.operator], 0x0⟩]⟩,
  ⟨0x600054, [(0x8, 4)], [⟨0, 32, .sh, [.operator], 0x0⟩]⟩,
  ⟨0x600080, [(0x4, 4)], [⟨0, 4, .ro, [], 0x0⟩, ⟨4, 2, .ro, [], 0x0⟩, ⟨6, 1, .ro, [], 0x0⟩, ⟨8, 4, .ro, [], 0x0⟩]⟩,
  ⟨0x600800, [(0x400, 2), (0x200, 2), (0x4, 63)], [⟨0, 16, .rw, [.operator], 0x0⟩, ⟨16, 16, .rw, [.operator], 0x0⟩]⟩,
  ⟨0x6008FC, [(0x400, 2), (0x200, 2)], [⟨0, 16, .rw, [.operator], 0x7FFF⟩, ⟨16, 16, .rw, [.operator], 0x0⟩]⟩,
  ⟨0x600900, [(0x400, 2), (0x200, 2), (0x4, 63)], [⟨0, 16, .rw, [.operator], 0x0⟩, ⟨16, 16, .rw, [.operator], 0x0⟩]⟩,
  ⟨0x600100, [(0x20, 8)], [⟨0, 17, .ro, [], 0x0⟩, ⟨17, 3, .ro, [], 0x0⟩, ⟨20, 6, .ro, [], 0x0⟩, ⟨26, 1, .ro, [], 0x0⟩, ⟨27, 4, .ro, [], 0x0⟩, ⟨31, 1, .ro, [], 0x0⟩]⟩,
  ⟨0x600104, [(0x20, 8)], [⟨0, 18, .rw, [.installer, .operator], 0x0⟩]⟩,
  ⟨0x600108, [(0x20, 8)], [⟨0, 17, .ro, [], 0x0⟩]⟩,
  ⟨0x60010C, [(0x20, 8)], [⟨0, 17, .rw, [.installer, .operator], 0x0⟩]⟩,
  ⟨0x600110, [(0x20, 8)], [⟨0, 1, .ro, [], 0x0⟩, ⟨1, 1, .ro, [], 0x0⟩, ⟨2, 1, .ro, [], 0x0⟩, ⟨3, 1, .w1c, [], 0x0⟩, ⟨4, 12, .ro, [], 0x0⟩, ⟨16, 16, .ro, [], 0x0⟩]⟩]

/-- The register families of the block at 0x800000 (R519). -/
def regFamsSpectral : List RegFam := [
  ⟨0x800000, [], [⟨0, 1, .sh, [.operator], 0x0⟩]⟩,
  ⟨0x800100, [(0x40, 2), (0x10, 4)], [⟨0, 1, .sh, [.operator], 0x0⟩, ⟨4, 4, .sh, [.operator], 0x7⟩, ⟨8, 2, .sh, [.operator], 0x1⟩, ⟨16, 9, .sh, [.operator], 0x1⟩]⟩,
  ⟨0x800104, [(0x40, 2), (0x10, 4)], [⟨0, 4, .sh, [.operator], 0x0⟩, ⟨8, 9, .sh, [.operator], 0x0⟩]⟩,
  ⟨0x801000, [(0x400, 2), (0x10, 48)], [⟨0, 1, .sh, [.operator], 0x0⟩, ⟨1, 1, .sh, [.operator], 0x0⟩, ⟨2, 2, .sh, [.operator], 0x0⟩, ⟨4, 3, .sh, [.operator], 0x1⟩, ⟨16, 10, .sh, [.operator], 0x0⟩]⟩,
  ⟨0x801004, [(0x400, 2), (0x10, 48)], [⟨0, 1, .ro, [], 0x0⟩, ⟨1, 1, .ro, [], 0x0⟩, ⟨2, 1, .ro, [], 0x0⟩, ⟨3, 1, .ro, [], 0x0⟩, ⟨16, 10, .ro, [], 0x0⟩]⟩,
  ⟨0x802000, [(0x4, 64)], [⟨0, 4, .rw, [.installer], 0x0⟩, ⟨4, 4, .rw, [.installer], 0x0⟩, ⟨8, 1, .rw, [.installer], 0x0⟩]⟩,
  ⟨0x802100, [], [⟨0, 1, .rw, [.installer], 0x0⟩, ⟨4, 4, .rw, [.installer], 0x0⟩, ⟨8, 12, .rw, [.installer], 0x50⟩, ⟨20, 12, .rw, [.installer], 0x50⟩]⟩,
  ⟨0x802200, [], [⟨0, 2, .rw, [.operator], 0x0⟩, ⟨4, 4, .rw, [.operator], 0x0⟩, ⟨8, 9, .rw, [.operator], 0x0⟩, ⟨20, 4, .rw, [.operator], 0x0⟩, ⟨24, 1, .ro, [], 0x0⟩]⟩,
  ⟨0x802204, [], [⟨0, 18, .rw, [.operator], 0x0⟩]⟩,
  ⟨0x802208, [], [⟨0, 18, .rw, [.operator], 0x0⟩]⟩,
  ⟨0x802300, [], [⟨0, 16, .rw, [.installer], 0x0⟩, ⟨16, 1, .ro, [], 0x0⟩]⟩,
  ⟨0x802400, [], [⟨0, 16, .ro, [], 0x0⟩, ⟨16, 8, .ro, [], 0x0⟩]⟩,
  ⟨0x802404, [], [⟨0, 16, .ro, [], 0x0⟩]⟩,
  ⟨0x802408, [], [⟨0, 32, .ro, [], 0x0⟩]⟩]

/-- The register families of the block at 0xC00000 (R519). -/
def regFamsRegistry : List RegFam := [
  ⟨0xC00000, [], [⟨0, 1, .rw, [.operator], 0x0⟩, ⟨1, 1, .rw, [.operator], 0x1⟩, ⟨8, 8, .rw, [.operator], 0x30⟩]⟩,
  ⟨0xC00004, [], [⟨0, 19, .rw, [.operator], 0x40000⟩]⟩,
  ⟨0xC00008, [], [⟨0, 32, .ro, [], 0x0⟩]⟩,
  ⟨0xC0000C, [], [⟨0, 6, .ro, [], 0x0⟩, ⟨31, 1, .ro, [], 0x1⟩]⟩,
  ⟨0xC00010, [], [⟨0, 4, .ro, [], 0x0⟩, ⟨4, 11, .ro, [], 0x0⟩, ⟨16, 12, .ro, [], 0xE00⟩]⟩,
  ⟨0xC00014, [], [⟨0, 9, .ro, [], 0x0⟩, ⟨12, 18, .ro, [], 0x0⟩]⟩,
  ⟨0xC00020, [(0x4, 10)], [⟨0, 32, .ro, [], 0x0⟩]⟩,
  ⟨0xC00100, [(0x8, 16)], [⟨0, 4, .rw, [.operator], 0x0⟩, ⟨4, 2, .rw, [.operator], 0x2⟩, ⟨6, 1, .rw, [.operator], 0x1⟩, ⟨7, 1, .rw, [.operator], 0x0⟩, ⟨8, 14, .rw, [.operator], 0x4⟩]⟩,
  ⟨0xC00104, [(0x8, 16)], [⟨0, 16, .rw, [.operator], 0x0⟩, ⟨16, 8, .rw, [.operator], 0x0⟩]⟩,
  ⟨0xC00200, [], [⟨0, 17, .rw, [.operator], 0x0⟩]⟩,
  ⟨0xC00204, [], [⟨0, 17, .rw, [.operator], 0x0⟩]⟩,
  ⟨0xC00208, [], [⟨0, 17, .ro, [], 0x0⟩]⟩,
  ⟨0xC0020C, [], [⟨0, 17, .rw, [.installer, .operator], 0x0⟩]⟩]

/-- The register families of the block at 0x1000000 (R519). -/
def regFamsFaeror : List RegFam := [
  ⟨0x1000000, [(0x10000, 24)], [⟨0, 1, .rw, [.operator], 0x0⟩]⟩,
  ⟨0x1000004, [(0x10000, 24)], [⟨0, 2, .ro, [], 0x0⟩, ⟨2, 2, .ro, [], 0x0⟩, ⟨4, 1, .ro, [], 0x0⟩, ⟨5, 1, .ro, [], 0x0⟩, ⟨8, 4, .ro, [], 0x0⟩, ⟨12, 4, .ro, [], 0x0⟩, ⟨16, 1, .ro, [], 0x0⟩]⟩,
  ⟨0x1000008, [(0x10000, 24)], [⟨0, 14, .ro, [], 0x0⟩, ⟨16, 4, .ro, [], 0x0⟩, ⟨24, 8, .ro, [], 0x0⟩]⟩,
  ⟨0x100000C, [(0x10000, 24)], [⟨0, 17, .ro, [], 0x0⟩]⟩,
  ⟨0x1000010, [(0x10000, 24)], [⟨0, 14, .ro, [], 0x0⟩]⟩,
  ⟨0x1000014, [(0x10000, 24)], [⟨0, 8, .ro, [], 0x0⟩, ⟨8, 8, .ro, [], 0x0⟩]⟩,
  ⟨0x1000018, [(0x10000, 24)], [⟨0, 32, .rw, [.operator], 0x0⟩]⟩,
  ⟨0x100001C, [(0x10000, 24)], [⟨0, 32, .ro, [], 0x0⟩]⟩,
  ⟨0x1180000, [], [⟨0, 5, .rw, [.installer, .operator], 0x0⟩]⟩,
  ⟨0x1180004, [], [⟨0, 24, .ro, [], 0x0⟩]⟩,
  ⟨0x1180008, [], [⟨0, 24, .ro, [], 0x0⟩]⟩]

/-- The register families of the block at 0x1400000 (R519). -/
def regFamsLink : List RegFam := [
  ⟨0x1400000, [], [⟨0, 1, .rw, [.installer], 0x1⟩, ⟨1, 1, .rw, [.installer], 0x0⟩, ⟨2, 1, .rw, [.installer], 0x1⟩, ⟨3, 1, .rw, [.operator], 0x0⟩, ⟨4, 1, .rw, [.operator], 0x0⟩, ⟨5, 1, .rw, [.operator], 0x0⟩, ⟨31, 1, .wo, [.installer, .operator], 0x0⟩]⟩,
  ⟨0x1400004, [], [⟨0, 12, .rw, [.installer], 0x0⟩, ⟨12, 3, .rw, [.installer], 0x6⟩]⟩,
  ⟨0x1400008, [], [⟨0, 14, .rw, [.installer], 0x2400⟩]⟩,
  ⟨0x140000C, [], [⟨0, 16, .rw, [.operator], 0x12C⟩]⟩,
  ⟨0x1400010, [], [⟨0, 32, .ro, [], 0x0⟩]⟩,
  ⟨0x1400014, [], [⟨0, 16, .ro, [], 0x0⟩]⟩,
  ⟨0x1400018, [], [⟨0, 32, .rw, [.installer], 0xFFFFFFFF⟩]⟩,
  ⟨0x140001C, [], [⟨0, 16, .rw, [.installer], 0xFFFF⟩]⟩,
  ⟨0x1400020, [], [⟨0, 32, .ro, [], 0x0⟩]⟩,
  ⟨0x1400024, [], [⟨0, 16, .ro, [], 0x0⟩]⟩,
  ⟨0x1400028, [], [⟨0, 32, .ro, [], 0x0⟩]⟩,
  ⟨0x140002C, [], [⟨0, 32, .ro, [], 0x0⟩]⟩,
  ⟨0x1400030, [], [⟨0, 32, .rw, [.installer], 0x0⟩]⟩,
  ⟨0x1400034, [], [⟨0, 32, .rw, [.installer], 0x0⟩]⟩,
  ⟨0x1400040, [], [⟨0, 1, .ro, [], 0x0⟩, ⟨1, 1, .ro, [], 0x0⟩, ⟨2, 1, .ro, [], 0x0⟩, ⟨3, 1, .ro, [], 0x0⟩, ⟨4, 4, .ro, [], 0x0⟩, ⟨8, 2, .ro, [], 0x0⟩]⟩,
  ⟨0x1400044, [], [⟨0, 1, .w1s, [.installer, .operator], 0x0⟩, ⟨1, 1, .ro, [], 0x0⟩, ⟨2, 1, .w1c, [], 0x0⟩, ⟨3, 1, .w1c, [], 0x0⟩, ⟨8, 8, .ro, [], 0x0⟩]⟩,
  ⟨0x1400048, [], [⟨0, 32, .ro, [], 0x0⟩]⟩,
  ⟨0x140004C, [], [⟨0, 32, .ro, [], 0x0⟩]⟩,
  ⟨0x1400050, [], [⟨0, 32, .ro, [], 0x0⟩]⟩,
  ⟨0x1400080, [(0x4, 16)], [⟨0, 32, .ro, [], 0x0⟩]⟩]

/-- The register families of the block at 0x1500000 (R519). -/
def regFamsBridge : List RegFam := [
  ⟨0x1500000, [], [⟨0, 2, .ro, [], 0x0⟩]⟩,
  ⟨0x1500004, [], [⟨0, 1, .rw, [.installer], 0x1⟩]⟩,
  ⟨0x1500008, [], [⟨0, 1, .ro, [], 0x0⟩, ⟨1, 1, .ro, [], 0x0⟩, ⟨2, 1, .ro, [], 0x0⟩, ⟨3, 1, .ro, [], 0x0⟩, ⟨4, 3, .ro, [], 0x0⟩, ⟨8, 4, .ro, [], 0x0⟩, ⟨12, 3, .ro, [], 0x0⟩]⟩,
  ⟨0x150000C, [], [⟨0, 32, .ro, [], 0x0⟩]⟩,
  ⟨0x1500010, [], [⟨0, 32, .ro, [], 0x0⟩]⟩,
  ⟨0x1500014, [], [⟨0, 10, .ro, [], 0x0⟩]⟩,
  ⟨0x1500018, [], [⟨0, 16, .ro, [], 0x0⟩]⟩,
  ⟨0x150001C, [], [⟨0, 11, .ro, [], 0x0⟩, ⟨16, 16, .ro, [], 0x0⟩]⟩,
  ⟨0x1500040, [(0x4, 8)], [⟨0, 32, .ro, [], 0x0⟩]⟩]

/-- The register families of the block at 0x1600000 (R519). -/
def regFamsMonitor : List RegFam := [
  ⟨0x1600000, [(0x10, 2)], [⟨0, 1, .rw, [.installer, .operator], 0x0⟩, ⟨1, 1, .rw, [.installer, .operator], 0x0⟩, ⟨4, 4, .rw, [.installer, .operator], 0x0⟩, ⟨8, 4, .rw, [.installer, .operator], 0x0⟩, ⟨16, 16, .rw, [.installer, .operator], 0x1⟩]⟩,
  ⟨0x1600004, [(0x10, 2)], [⟨0, 1, .ro, [], 0x0⟩, ⟨1, 1, .ro, [], 0x0⟩, ⟨16, 16, .ro, [], 0x0⟩]⟩,
  ⟨0x1600100, [(0x200, 2), (0x20, 16)], [⟨0, 5, .sh, [.installer, .operator], 0x0⟩, ⟨5, 2, .sh, [.installer, .operator], 0x0⟩, ⟨8, 4, .sh, [.installer, .operator], 0x0⟩, ⟨12, 4, .sh, [.installer, .operator], 0x0⟩, ⟨16, 4, .sh, [.installer, .operator], 0x0⟩, ⟨20, 4, .sh, [.installer, .operator], 0x0⟩, ⟨24, 4, .sh, [.installer, .operator], 0x0⟩]⟩,
  ⟨0x1600104, [(0x200, 2), (0x20, 16)], [⟨0, 16, .ro, [], 0x0⟩, ⟨16, 12, .ro, [], 0x0⟩, ⟨28, 1, .ro, [], 0x0⟩]⟩,
  ⟨0x1600108, [(0x200, 2), (0x20, 16)], [⟨0, 16, .ro, [], 0x7FFF⟩, ⟨16, 16, .ro, [], 0x8000⟩]⟩,
  ⟨0x160010C, [(0x200, 2), (0x20, 16)], [⟨0, 32, .ro, [], 0x0⟩]⟩,
  ⟨0x1600110, [(0x200, 2), (0x20, 16)], [⟨0, 32, .ro, [], 0x0⟩]⟩,
  ⟨0x1600114, [(0x200, 2), (0x20, 16)], [⟨0, 16, .rw, [.installer, .operator], 0x8000⟩, ⟨16, 16, .rw, [.installer, .operator], 0x7FFF⟩]⟩,
  ⟨0x1600118, [(0x200, 2), (0x20, 16)], [⟨0, 2, .rw, [.installer, .operator], 0x0⟩, ⟨2, 1, .rw, [.installer, .operator], 0x0⟩, ⟨8, 8, .rw, [.installer, .operator], 0x1⟩]⟩,
  ⟨0x1600500, [(0x4, 2)], [⟨0, 16, .w1c, [], 0x0⟩]⟩,
  ⟨0x1600600, [(0x4, 16)], [⟨0, 12, .ro, [], 0x0⟩, ⟨12, 1, .ro, [], 0x0⟩, ⟨13, 1, .ro, [], 0x0⟩, ⟨14, 1, .ro, [], 0x0⟩]⟩,
  ⟨0x1600700, [], [⟨0, 8, .rw, [.installer], 0x69⟩, ⟨8, 8, .rw, [.installer], 0x70⟩, ⟨16, 4, .rw, [.installer], 0x5⟩, ⟨20, 1, .rw, [.installer], 0x1⟩, ⟨21, 1, .rw, [.installer], 0x1⟩, ⟨24, 8, .rw, [.installer], 0x8⟩]⟩,
  ⟨0x1600704, [], [⟨0, 12, .ro, [], 0x0⟩, ⟨12, 1, .ro, [], 0x0⟩, ⟨13, 1, .ro, [], 0x0⟩, ⟨14, 1, .ro, [], 0x0⟩, ⟨15, 1, .ro, [], 0x0⟩, ⟨16, 16, .ro, [], 0x0⟩]⟩,
  ⟨0x1600708, [], [⟨0, 16, .ro, [], 0x0⟩]⟩,
  ⟨0x1600800, [], [⟨0, 1, .rw, [.installer], 0x0⟩, ⟨1, 1, .rw, [.installer], 0x0⟩, ⟨8, 8, .rw, [.installer], 0x4⟩, ⟨16, 8, .rw, [.installer], 0xC⟩, ⟨24, 8, .rw, [.installer], 0x0⟩]⟩,
  ⟨0x1600804, [], [⟨0, 12, .rw, [.installer], 0x0⟩, ⟨16, 12, .rw, [.installer], 0x0⟩]⟩,
  ⟨0x1600808, [], [⟨0, 12, .rw, [.installer], 0x0⟩, ⟨16, 8, .rw, [.installer], 0x0⟩, ⟨24, 8, .rw, [.installer], 0x0⟩]⟩,
  ⟨0x160080C, [], [⟨0, 16, .rw, [.installer], 0x0⟩, ⟨16, 16, .rw, [.installer], 0x0⟩]⟩,
  ⟨0x1600810, [], [⟨0, 3, .ro, [], 0x0⟩, ⟨3, 1, .ro, [], 0x0⟩, ⟨4, 1, .w1c, [], 0x0⟩, ⟨16, 16, .ro, [], 0x0⟩]⟩]

/-- The register families of the block at 0x1700000 (R519). -/
def regFamsCal : List RegFam := [
  ⟨0x1700000, [], [⟨0, 1, .rw, [.installer], 0x1⟩, ⟨1, 1, .rw, [.installer], 0x0⟩, ⟨2, 1, .rw, [.installer], 0x0⟩, ⟨3, 1, .rw, [.installer], 0x1⟩, ⟨8, 8, .rw, [.installer], 0xF⟩]⟩,
  ⟨0x1700004, [], [⟨0, 23, .rw, [.installer], 0x0⟩]⟩,
  ⟨0x1700008, [], [⟨0, 16, .rw, [.installer], 0x0⟩, ⟨16, 8, .rw, [.installer], 0x0⟩]⟩,
  ⟨0x170000C, [], [⟨0, 1, .ro, [], 0x0⟩, ⟨16, 16, .ro, [], 0x0⟩]⟩,
  ⟨0x1700010, [], [⟨0, 16, .rw, [.installer], 0x0⟩, ⟨16, 6, .rw, [.installer], 0x0⟩]⟩,
  ⟨0x1700014, [], [⟨0, 16, .rw, [.installer], 0x0⟩]⟩,
  ⟨0x1700018, [], [⟨0, 8, .ro, [], 0xFF⟩, ⟨8, 1, .ro, [], 0x0⟩, ⟨16, 16, .ro, [], 0x0⟩]⟩,
  ⟨0x1700100, [(0x10, 64)], [⟨0, 1, .ro, [], 0x0⟩, ⟨1, 1, .ro, [], 0x0⟩, ⟨2, 1, .ro, [], 0x0⟩, ⟨8, 4, .ro, [], 0x0⟩, ⟨12, 3, .ro, [], 0x0⟩, ⟨16, 16, .ro, [], 0x0⟩]⟩,
  ⟨0x1700104, [(0x10, 64)], [⟨0, 8, .ro, [], 0x0⟩, ⟨8, 8, .ro, [], 0x0⟩, ⟨16, 8, .ro, [], 0x0⟩, ⟨24, 8, .ro, [], 0x0⟩]⟩,
  ⟨0x1700108, [(0x10, 64)], [⟨0, 16, .rw, [.installer], 0x0⟩, ⟨16, 16, .rw, [.installer], 0x0⟩]⟩,
  ⟨0x170010C, [(0x10, 64)], [⟨0, 32, .ro, [], 0x0⟩]⟩,
  ⟨0x1700800, [(0x4, 64)], [⟨0, 4, .ro, [], 0x0⟩, ⟨4, 4, .ro, [], 0x0⟩, ⟨16, 16, .ro, [], 0x0⟩]⟩,
  ⟨0x1700900, [], [⟨0, 4, .ro, [], 0x0⟩]⟩,
  ⟨0x1701000, [(0x4, 32)], [⟨0, 24, .ro, [], 0x0⟩, ⟨24, 1, .ro, [], 0x0⟩, ⟨25, 1, .ro, [], 0x0⟩]⟩,
  ⟨0x1701100, [], [⟨0, 8, .ro, [], 0x3C⟩, ⟨8, 2, .ro, [], 0x3⟩, ⟨16, 12, .ro, [], 0xA8⟩]⟩,
  ⟨0x1701104, [], [⟨0, 16, .ro, [], 0x64⟩]⟩,
  ⟨0x1701108, [], [⟨0, 8, .rw, [.installer], 0x0⟩, ⟨8, 2, .rw, [.installer], 0x0⟩, ⟨16, 12, .rw, [.installer], 0x0⟩, ⟨28, 1, .rw, [.installer], 0x0⟩, ⟨29, 1, .rw, [.installer], 0x0⟩, ⟨30, 1, .rw, [.installer], 0x0⟩]⟩,
  ⟨0x170110C, [], [⟨0, 16, .rw, [.installer], 0x0⟩, ⟨31, 1, .rw, [.installer], 0x0⟩]⟩,
  ⟨0x1701110, [], [⟨0, 1, .ro, [], 0x0⟩, ⟨1, 1, .ro, [], 0x0⟩, ⟨16, 16, .ro, [], 0x0⟩]⟩]

/-- The register families of the block at 0x1800000 (R519). -/
def regFamsMemint : List RegFam := [
  ⟨0x1800000, [], [⟨0, 6, .rw, [.installer], 0x3F⟩]⟩,
  ⟨0x1800100, [(0x20, 6)], [⟨0, 32, .ro, [], 0x0⟩]⟩,
  ⟨0x1800104, [(0x20, 6)], [⟨0, 16, .ro, [], 0x0⟩, ⟨16, 16, .ro, [], 0x0⟩]⟩,
  ⟨0x1800108, [(0x20, 6)], [⟨0, 16, .ro, [], 0x0⟩, ⟨16, 16, .ro, [], 0x0⟩]⟩,
  ⟨0x180010C, [(0x20, 6)], [⟨0, 16, .ro, [], 0x0⟩, ⟨16, 16, .ro, [], 0x0⟩]⟩,
  ⟨0x1800110, [(0x20, 6)], [⟨0, 24, .ro, [], 0x0⟩]⟩,
  ⟨0x1800114, [(0x20, 6)], [⟨0, 8, .ro, [], 0x0⟩, ⟨8, 8, .ro, [], 0x0⟩, ⟨16, 8, .ro, [], 0x0⟩]⟩,
  ⟨0x1800400, [], [⟨0, 5, .ro, [], 0x0⟩, ⟨16, 16, .ro, [], 0x0⟩]⟩,
  ⟨0x1800404, [], [⟨0, 24, .ro, [], 0x0⟩, ⟨31, 1, .ro, [], 0x1⟩]⟩,
  ⟨0x1800408, [], [⟨0, 3, .ro, [], 0x0⟩, ⟨8, 3, .ro, [], 0x0⟩, ⟨16, 4, .ro, [], 0x0⟩, ⟨24, 7, .ro, [], 0x0⟩]⟩,
  ⟨0x180040C, [], [⟨0, 32, .ro, [], 0x0⟩]⟩,
  ⟨0x1800410, [], [⟨0, 1, .wo, [.installer, .operator], 0x0⟩]⟩]

/-- The register families of the block at 0x1900000 (R519). -/
def regFamsHod : List RegFam := [
  ⟨0x1900000, [(0x40, 16)], [⟨0, 2, .ro, [], 0x0⟩, ⟨4, 4, .ro, [], 0x0⟩, ⟨8, 1, .ro, [], 0x0⟩, ⟨9, 1, .w1c, [], 0x0⟩]⟩,
  ⟨0x1900004, [(0x40, 16)], [⟨0, 32, .ro, [], 0x0⟩]⟩,
  ⟨0x1900008, [(0x40, 16)], [⟨0, 32, .ro, [], 0x0⟩]⟩,
  ⟨0x190000C, [(0x40, 16)], [⟨0, 16, .rw, [.installer, .operator], 0x1000⟩, ⟨16, 16, .ro, [], 0x0⟩]⟩,
  ⟨0x1900010, [(0x40, 16)], [⟨0, 24, .ro, [], 0x0⟩]⟩,
  ⟨0x1900014, [(0x40, 16)], [⟨0, 32, .ro, [], 0x0⟩]⟩,
  ⟨0x1900018, [(0x40, 16)], [⟨0, 32, .ro, [], 0x0⟩]⟩,
  ⟨0x190001C, [(0x40, 16)], [⟨0, 2, .ro, [], 0x0⟩, ⟨8, 5, .ro, [], 0x0⟩]⟩,
  ⟨0x1900400, [], [⟨0, 16, .ro, [], 0x0⟩]⟩]

/-- The register families of the block at 0x1A00000 (R519). -/
def regFamsHostport : List RegFam := [
  ⟨0x1A00000, [], [⟨0, 4, .ro, [], 0x0⟩, ⟨4, 4, .ro, [], 0x0⟩, ⟨8, 1, .ro, [], 0x0⟩, ⟨9, 1, .ro, [], 0x0⟩]⟩,
  ⟨0x1A00010, [], [⟨0, 32, .ro, [], 0x0⟩]⟩,
  ⟨0x1A00014, [], [⟨0, 4, .ro, [], 0x0⟩, ⟨4, 1, .ro, [], 0x0⟩, ⟨5, 1, .ro, [], 0x0⟩, ⟨15, 1, .wo, [.installer, .operator], 0x0⟩, ⟨16, 16, .ro, [], 0x0⟩]⟩,
  ⟨0x1A10000, [(0x10, 32)], [⟨0, 32, .rw, [.maker, .installer, .operator], 0x0⟩]⟩,
  ⟨0x1A10004, [(0x10, 32)], [⟨0, 32, .rw, [.maker, .installer, .operator], 0x0⟩]⟩,
  ⟨0x1A10008, [(0x10, 32)], [⟨0, 32, .rw, [.maker, .installer, .operator], 0x0⟩]⟩,
  ⟨0x1A1000C, [(0x10, 32)], [⟨0, 1, .rw, [.maker, .installer, .operator], 0x1⟩]⟩]

/-- The register families of the block that holds a byte address of the index-0 BAR (R519). -/
def blockFams (a : Nat) : List RegFam :=
  if a < 0x100000 then regFamsSpine
  else if a < 0x180000 then regFamsEvents
  else if a < 0x200000 then regFamsTime
  else if a < 0x400000 then regFamsBudget
  else if a < 0x500000 then regFamsPath
  else if a < 0x580000 then regFamsSynth
  else if a < 0x600000 then regFamsTile
  else if a < 0x800000 then regFamsDfe
  else if a < 0xC00000 then regFamsSpectral
  else if a < 0x1000000 then regFamsRegistry
  else if a < 0x1400000 then regFamsFaeror
  else if a < 0x1500000 then regFamsLink
  else if a < 0x1600000 then regFamsBridge
  else if a < 0x1700000 then regFamsMonitor
  else if a < 0x1800000 then regFamsCal
  else if a < 0x1900000 then regFamsMemint
  else if a < 0x1A00000 then regFamsHod
  else if a < 0x1B00000 then regFamsHostport
  else []

end Sys2Proof.Machine
end

