-- ==== Sys2Proof/Machine/Ops.lean ====
section
/-! DEFINITION. The named operations on the state: keyed maps in canonical form, register fields, bytes, events,
device time, domains, budgets and the completion of commands. -/

namespace Sys2Proof.Machine

/-! ## Keyed maps in canonical form -/

/-- The value at a key; a key that is not listed holds the default. -/
def mapGet {β : Type} (d : β) (k : Nat) : List (Nat × β) → β
  | [] => d
  | p :: t => if p.1 = k then p.2 else mapGet d k t

/-- Put an entry at its place in the rising order of keys. -/
def mapInsert {β : Type} (k : Nat) (v : β) : List (Nat × β) → List (Nat × β)
  | [] => [(k, v)]
  | p :: t => if k < p.1 then (k, v) :: p :: t else p :: mapInsert k v t

/-- Take a key out. -/
def mapErase {β : Type} (k : Nat) : List (Nat × β) → List (Nat × β)
  | [] => []
  | p :: t => if p.1 = k then mapErase k t else p :: mapErase k t

/-- Set the value at a key: the default is not listed. -/
def mapSet {β : Type} [DecidableEq β] (d : β) (k : Nat) (v : β) (m : List (Nat × β)) : List (Nat × β) :=
  if v = d then mapErase k m else mapInsert k v (mapErase k m)

/-- Every key of the list lies above a bound. -/
def keysAbove {β : Type} (n : Nat) : List (Nat × β) → Bool
  | [] => true
  | p :: t => decide (n < p.1) && keysAbove n t

/-- The canonical form: keys strictly rising, and no entry equal to the default. -/
def mapWf {β : Type} [DecidableEq β] (d : β) : List (Nat × β) → Bool
  | [] => true
  | p :: t => decide (p.2 ≠ d) && keysAbove p.1 t && mapWf d t

/-! ## Arrays of like things -/

/-- Replace the element at an index that the array has. -/
def vecSet {α : Type} {n : Nat} (v : Vector α n) (k : Nat) (x : α) : Vector α n := v.setIfInBounds k x

/-- Change the element at an index that the array has. -/
def vecModify {α : Type} {n : Nat} (v : Vector α n) (k : Nat) (f : α → α) : Vector α n :=
  match v[k]? with
  | some x => vecSet v k (f x)
  | none => v

/-- The element at an index, or a default. -/
def vecGet {α : Type} {n : Nat} (v : Vector α n) (k : Nat) (d : α) : α := (v[k]?).getD d

/-! ## Numbers and bytes -/

/-- 1 for true, 0 for false. -/
def bit (b : Bool) : Nat := if b then 1 else 0

/-- Bit `i` of a number. -/
def testBit (n i : Nat) : Bool := n / 2 ^ i % 2 == 1

/-- Bits `lo + w - 1` to `lo` of a number. -/
def bits (n lo w : Nat) : Nat := n / 2 ^ lo % 2 ^ w

/-- The two's-complement value of the low `w` bits. -/
def toSigned (w n : Nat) : Int :=
  let m := n % 2 ^ w
  if 2 * m < 2 ^ w then (m : Int) else (m : Int) - (2 ^ w : Nat)

/-- The low `w` bits of an integer in two's complement. -/
def ofSigned (w : Nat) (i : Int) : Nat := (i % (2 ^ w : Nat)).toNat

/-- An integer held within two bounds. -/
def clampInt (lo hi i : Int) : Int := if i < lo then lo else if hi < i then hi else i

/-- A number as `n` bytes, least significant first (R4). -/
def leBytes (n v : Nat) : List Byte := (List.range n).map fun i => BitVec.ofNat 8 (v / 2 ^ (8 * i))

/-- A number as `n` bytes, most significant first (network order, and the digests of R28). -/
def beBytes (n v : Nat) : List Byte := (leBytes n v).reverse

/-- The number that bytes spell, least significant first. -/
def ofLe : List Byte → Nat
  | [] => 0
  | b :: t => b.toNat + 256 * ofLe t

/-- The number that bytes spell, most significant first. -/
def ofBe (l : List Byte) : Nat := ofLe l.reverse

/-- Bytes `off` to `off + n - 1` of a list; bytes past its end read 0. -/
def slice (off n : Nat) (l : List Byte) : List Byte := (List.range n).map fun i => l.getD (off + i) 0

/-- The little-endian field of `n` bytes at an offset. -/
def leAt (off n : Nat) (l : List Byte) : Nat := ofLe (slice off n l)

/-- The indices whose bit is set in the low `n` bits. -/
def maskList (n m : Nat) : List Nat := (List.range n).filter fun i => testBit m i

/-- The mask with the bits of a list set. -/
def listMask (l : List Nat) : Nat := l.eraseDups.foldl (fun a i => a + 2 ^ i) 0

/-- Put a number into a rising list, once. -/
def insertOnce (n : Nat) : List Nat → List Nat
  | [] => [n]
  | x :: t => if n < x then n :: x :: t else if n = x then x :: t else x :: insertOnce n t

/-! ## Register fields -/

/-- The key of a field in the register maps: its address and its lowest bit. -/
def Fld.key (f : Fld) : Nat := f.addr * 32 + f.lo

/-- The value in force of a field; for a field with access SH, its active copy. -/
def State.getF (s : State) (f : Fld) : Nat := mapGet f.rst f.key s.regs

/-- Set the value in force of a field. -/
def State.setF (s : State) (f : Fld) (v : Nat) : State :=
  { s with regs := mapSet f.rst f.key (v % 2 ^ f.w) s.regs }

/-- The shadow copy of a field with access SH (R415). -/
def State.getSh (s : State) (f : Fld) : Nat := mapGet f.rst f.key s.shadow

/-- Set the shadow copy of a field. -/
def State.setSh (s : State) (f : Fld) (v : Nat) : State :=
  { s with shadow := mapSet f.rst f.key (v % 2 ^ f.w) s.shadow }

/-- A one-bit field as a truth value. -/
def State.flag (s : State) (f : Fld) : Bool := s.getF f == 1

/-- Set a one-bit field. -/
def State.setFlag (s : State) (f : Fld) (b : Bool) : State := s.setF f (bit b)

/-- Add to a count that wraps. -/
def State.addWrap (s : State) (f : Fld) (n : Nat) : State := s.setF f (s.getF f + n)

/-- Add to a count that stops at its largest value. -/
def State.addSat (s : State) (f : Fld) (n : Nat) : State := s.setF f (min (s.getF f + n) (2 ^ f.w - 1))

/-- Do one thing for every element of a list, in order. -/
def State.each {α : Type} (s : State) (l : List α) (f : State → α → State) : State := l.foldl f s

/-- Do a thing only if a condition holds. -/
def State.when (s : State) (c : Bool) (f : State → State) : State := if c then f s else s

/-! ## Device time (R378 to R381, R245) -/

/-- The active increment INC in units of 2^-32 ns (R378). -/
def State.inc (s : State) : Nat := s.getF Reg.incHi * 2 ^ 32 + s.getF Reg.incLo

/-- Whole nanoseconds of device time: SECONDS × 10^9 + NANOSECONDS. -/
def State.nowNs (s : State) : Nat := s.time.now / 2 ^ 32

/-- Short time (R380). -/
def State.short (s : State) : Nat := s.nowNs % 2 ^ 32

/-- The signed difference of two short times (R380). -/
def shortDiff (a b : Nat) : Int := toSigned 32 (a % 2 ^ 32 + 2 ^ 32 - b % 2 ^ 32)

/-- The number of the bar in which an instant in ns lies, without the wrap of R245. -/
def barOfNs (ns : Nat) : Nat := ns / 10000000

/-- The present bar number (R245). -/
def State.bar (s : State) : Nat := barOfNs s.nowNs % 2 ^ 32

/-- The frets since device time 0: 40 per bar (R381). -/
def State.absFret (s : State) : Nat := s.nowNs / 250000

/-- The signed difference of two bar numbers, later minus earlier (R245). -/
def barDiff (a b : Nat) : Int := toSigned 32 (a % 2 ^ 32 + 2 ^ 32 - b % 2 ^ 32)

/-- Device time is valid while STATE is UNLOCKED or LOCKED (R383). -/
def State.timeValid (s : State) : Bool := s.getF Reg.timeStatusState != 0

/-- The ticks after which device time is first at or after an instant in ns (R378, R381). -/
def State.ticksTo (s : State) (ns : Nat) : Nat :=
  if ns * 2 ^ 32 ≤ s.time.now then 0 else (ns * 2 ^ 32 - s.time.now + s.inc - 1) / s.inc

/-- The index of the first path sample at or after a tick: 61.44 MS/s is one sample per 4 ticks (R15). -/
def sampleAt (ticks : Nat) : Nat := (ticks + 3) / 4

/-- Put a span of samples into a list in order of its first sample. -/
def insertRun (x : Nat × Nat) : List (Nat × Nat) → List (Nat × Nat)
  | [] => [x]
  | y :: t => if x.1 ≤ y.1 then x :: y :: t else y :: insertRun x t

/-- How many samples from `a` on lie in at least one run of a list in order. -/
def runsLength (a : Nat) : List (Nat × Nat) → Nat
  | [] => 0
  | x :: t =>
    let lo := max a x.1
    if x.2 ≤ lo then runsLength a t else x.2 - lo + runsLength x.2 t

/-- The invalid samples of a path, in every carrier's stream, among path samples `a` to `b - 1` (R130). -/
def State.invalidCount (s : State) (p a b : Nat) : Nat :=
  let runs := (s.rx.spans.filter fun x => x.carrier.isNone && decide (x.lo ≤ p) && decide (p ≤ x.hi)).map fun x =>
    (x.first, match x.stop with | some e => min e b | none => b)
  runsLength a (runs.foldl (fun l x => insertRun x l) [])

/-- RX_INVALID_SAMPLES of the ACTIVE paths over path samples `a` to `b - 1`. -/
def State.countInvalid (s : State) (a b : Nat) : State :=
  if s.rx.spans.isEmpty then s
  else s.each (List.range 64) fun s p =>
    if s.getF (Reg.pathStateState p) = 3 then s.addSat (Reg.rxInvalidSamplesCount p) (s.invalidCount p a b) else s

/-- Let `n` periods of the tick clock pass. Device time runs from spine release (R378, R382). -/
def State.passTicks (s : State) (n : Nat) : State :=
  let s := s.when (s.phase == .run) fun s => s.countInvalid (sampleAt s.drone.ticks) (sampleAt (s.drone.ticks + n))
  { s with
    drone := { s.drone with ticks := s.drone.ticks + n }
    time := { s.time with now := if s.phase = .run then s.time.now + n * s.inc else s.time.now } }

/-- Carry device time forward to the first tick at or after an instant in ns. -/
def State.passTo (s : State) (ns : Nat) : State := s.passTicks (s.ticksTo ns)

/-- The instant of the next fret boundary in ns (R381). -/
def State.nextFretNs (s : State) : Nat := (s.absFret + 1) * 250000

/-- Carry the tick count forward to at least a given count. -/
def State.passTickCount (s : State) (n : Nat) : State := s.passTicks (n - s.drone.ticks)

/-- Device time in ns at a tick to come. -/
def State.tickNs (s : State) (n : Nat) : Nat := (s.time.now + (n - s.drone.ticks) * s.inc) / 2 ^ 32

/-- An instant lies behind a fret boundary that has not been carried out; in Light Hold none is carried out (R381). -/
def State.beyondFret (s : State) (ns : Nat) : Bool :=
  s.phase == .run && s.dev != .lightHold && decide (s.nextFretNs ≤ ns)

/-- What happens at a tick count: device time is carried forward to it, unless a fret boundary lies before it, which is
a step of its own. -/
def State.reach (s : State) (n : Nat) (f : State → State) : State :=
  if s.beyondFret (s.tickNs n) then s else f (s.passTickCount n)

/-- What happens at an instant in ns, unless a fret boundary lies before it. -/
def State.reachNs (s : State) (ns : Nat) (f : State → State) : State :=
  if s.beyondFret ns then s else f (s.passTo ns)

/-- Ticks of a span in nanoseconds at 245.76 MHz, rounded up. -/
def nsTicks (ns : Nat) : Nat := (ns * 24576 + 99999) / 100000

/-- The index of the first path sample at or after the present tick. -/
def State.pathSample (s : State) : Nat := sampleAt s.drone.ticks

/-- A SERVICE_START is pending that no command of this chip waits for: passed by the twin, or the device's own (R88). -/
def State.startPending (s : State) : Bool := s.bridge.passedStart.isSome || s.bridge.autoStart.isSome

/-! ## Events (R420) -/

/-- Raise event `n`: set its STATUS bit and note it for the failure capsule (R66, R420). -/
def State.raise (s : State) (n : Nat) : State :=
  let f := Reg.evStatus (n / 32)
  let v := s.getF f
  let s := if testBit v (n % 32) then s else s.setF f (v + 2 ^ (n % 32))
  { s with events := { s.events with log := ((n, s.nowNs) :: s.events.log).take 64 } }

/-! ## Codes of states, roles and ports -/

/-- The SPINE.STATE code of a state. -/
def DevState.code : DevState → Nat
  | .bare => 0
  | .unlathed => 1
  | .lathed => 2
  | .service => 3
  | .doze => 4
  | .lightHold => 5
  | .fault => 6
  | .maker => 7

/-- The role code of sessions, journal records and lath records. -/
def roleCode : Role → Nat
  | .maker => 1
  | .installer => 2
  | .operator => 3

/-- The role that a code names. -/
def roleOfCode : Nat → Option Role
  | 1 => some .maker
  | 2 => some .installer
  | 3 => some .operator
  | _ => none

/-- The port code of the journal and of the command status. -/
def portCode : Port → Nat
  | .pcie => 0
  | .qspi => 1

/-- The session of a port. -/
def State.session (s : State) : Port → Session
  | .pcie => s.pcie
  | .qspi => s.qspi

/-- Set the session of a port. -/
def State.setSession (s : State) (p : Port) (x : Session) : State :=
  match p with
  | .pcie => { s with pcie := x }
  | .qspi => { s with qspi := x }

/-- SERVICE or DOZE. -/
def State.inService (s : State) : Bool := s.phase == .run && (s.dev == .service || s.dev == .doze)

/-- LATHED, SERVICE or DOZE. -/
def State.inLathedUp (s : State) : Bool :=
  s.phase == .run && (s.dev == .lathed || s.dev == .service || s.dev == .doze)

/-- BARE, UNLATHED or FAULT: the states in which no session role is asked for (R60, R425). -/
def DevState.keyless : DevState → Bool
  | .bare => true
  | .unlathed => true
  | .fault => true
  | _ => false

/-! ## Power domains (R20 to R24) -/

/-- The power domains (01, power domains). -/
inductive Domain where
  | drone
  | spine
  | link
  | bridge
  | registry
  | faeror
  | spectral
  | dfeWest
  | dfeEast
  | analogWest
  | analogEast
  | monitor
  deriving DecidableEq, Repr

/-- The four conditions of a domain. -/
inductive DomCond where
  | on
  | gated
  | retained
  | off
  deriving DecidableEq, Repr

/-- The bit of a domain in SPINE.DOMAIN_ABSENT_I and _O (R546); DRONE and SPINE have none. -/
def Domain.absentBit : Domain → Option Nat
  | .link => some 0
  | .bridge => some 1
  | .registry => some 2
  | .faeror => some 3
  | .spectral => some 4
  | .dfeWest => some 5
  | .dfeEast => some 6
  | .analogWest => some 7
  | .analogEast => some 8
  | .monitor => some 9
  | .drone => none
  | .spine => none

/-- Whether a map marks a domain absent; a DFE domain marked absent holds its analog half absent (R21, R546). -/
def markedAbsent (m : Nat) : Domain → Bool
  | .analogWest => testBit m 7 || testBit m 5
  | .analogEast => testBit m 8 || testBit m 6
  | d => match d.absentBit with
    | some i => testBit m i
    | none => false

/-- A domain is absent while either map marks it (R21). -/
def State.absent (s : State) (d : Domain) : Bool :=
  markedAbsent (s.getF Reg.domainAbsentI) d || markedAbsent (s.getF Reg.domainAbsentO) d

/-- The condition of a domain in a device state, the analog halves by their switches (R20, R73). A wake from Light Hold
raises the domains at its start (R103, steps 1 to 4). -/
def domainIn (dev : DevState) (west east waking : Bool) (d : Domain) : DomCond :=
  let held := dev == .lightHold && !waking
  match d with
  | .drone => .on
  | .spine => if held then .gated else .on
  | .link => .on
  | .bridge => if held then .gated else .on
  | .registry => if held then .retained else .on
  | .faeror => if held then .retained else .on
  | .spectral => if held then .retained else .on
  | .dfeWest => if held then .retained else if dev == .doze && !waking then .gated else .on
  | .dfeEast => if held then .retained else if dev == .doze && !waking then .gated else .on
  | .analogWest => if west then .on else .off
  | .analogEast => if east then .on else .off
  | .monitor => if held then .off else .on

/-- The condition of a domain: Off while absent, while the spine is in a reset and in Deep Hold (R20, R21). -/
def State.domain (s : State) (d : Domain) : DomCond :=
  if d = .drone then .on
  else if s.absent d then .off
  else match s.phase with
    | .run => domainIn s.dev s.analogWest s.analogEast (s.flag Reg.dozeStatusWaking) d
    | .deepEntry => domainIn s.dev s.analogWest s.analogEast false d
    | _ => .off

/-- The transform and combiner datapath of SPECTRAL is clocked: it is Gated in DOZE until a wake begins (R20, R93). -/
def State.combinerOn (s : State) : Bool :=
  s.domain .spectral == .on && !(s.dev == .doze && !s.flag Reg.dozeStatusWaking)

/-- A domain whose registers are reached: On or Gated (R515). -/
def State.reached (s : State) (d : Domain) : Bool :=
  match s.domain d with
  | .on => true
  | .gated => true
  | _ => false

/-- Whether the spine runs: from spine release, Light Hold included (R514, R523). -/
def State.spineRuns (s : State) : Bool := s.phase == .run || s.phase == .deepEntry

/-- The half of a path: 0 West, 1 East (R8). -/
def halfOf (path : Nat) : Nat := path / 32

/-- Whether the analog half `h` is On. -/
def State.analogOn (s : State) (h : Nat) : Bool := if h = 0 then s.analogWest else s.analogEast

/-- The idle bit of a half in SPINE.DOZE_STATUS. -/
def idleBit (h : Nat) : Fld := if h = 0 then Reg.dozeStatusWestIdle else Reg.dozeStatusEastIdle

/-- The DFE domain of a half. -/
def dfeOf (h : Nat) : Domain := if h = 0 then .dfeWest else .dfeEast

/-- The analog domain of a half. -/
def analogOf (h : Nat) : Domain := if h = 0 then .analogWest else .analogEast

/-! ## Budgets (R404 to R414) -/

/-- The grains that resource `r` offers each fret: a cycle count is 256 to the grain but for resource 2 (R9, R408). -/
def grainSize (r : Nat) : Nat := if r = 2 then 1 else 256

/-- A sag stage sheds a class, whatever ENFORCING is; ULBF and DLBF are never shed (R470). -/
def State.shed (s : State) (c : Nat) : Bool :=
  decide (2 ≤ c) && ((decide (1 ≤ s.getF Reg.sagStatusStage) && testBit (s.getF Reg.sagShedShedMask1) c) ||
    (decide (2 ≤ s.getF Reg.sagStatusStage) && testBit (s.getF Reg.sagShedShedMask2) c))

/-- The cycles that ULBF or DLBF has reserved on resource 0 or 3 in this fret: its FLOOR as the fret's Tc found it, which
no later setting reduces within the fret (R10, R406). -/
def State.reserve (s : State) (c r : Nat) : Nat := mapGet 0 (8 * c + r) s.budget.reserve * 256

/-- Take the reservations of ULBF and DLBF over from their FLOORs, in Tc (R10, R17). -/
def State.latchReserve (s : State) : State :=
  let l := [0, 3, 8, 11].map fun k => (k, s.getF (Reg.budgetClassFloor (k / 8) (k % 8)))
  { s with budget := { s.budget with reserve := l.foldl (fun m x => mapSet 0 x.1 x.2 m) s.budget.reserve } }

/-- A class whose requests on a resource are served at step 1 of R409. -/
def reservedClass (c r : Nat) : Bool := decide (c < 2) && (r == 0 || r == 3)

/-- The ceiling of a class on a resource in used units; none while budgets are not enforced or CEIL is 0xFFFF.
A CEIL below FLOOR acts as FLOOR; for ULBF and DLBF on resources 0 and 3 it is the reservation (R405, R406, R413). -/
def State.ceiling (s : State) (c r : Nat) : Option Nat :=
  let fl := s.getF (Reg.budgetClassFloor c r)
  let ce := s.getF (Reg.budgetClassCeil c r)
  if s.shed c then some 0
  else if s.getF Reg.budgetStatusEnforcing = 0 then none
  else if reservedClass c r then some (s.reserve c r)
  else if ce = 65535 then none
  else some (max ce fl * grainSize r)

/-- What a class is charged of a resource in the present fret, in cycles (grains for resource 2): those granted, and
those of requests that the fret covers and the arbiter still owes. -/
def State.used (s : State) (c r : Nat) : Nat := mapGet 0 (8 * c + r) s.budget.used

/-- Whether a class may still be granted a resource: its ceiling is not reached (R408). -/
def State.mayUse (s : State) (c r : Nat) : Bool :=
  match s.ceiling c r with
  | none => true
  | some x => decide (s.used c r < x)

/-- Charge a class with units of a resource. -/
def State.charge (s : State) (c r n : Nat) : State :=
  { s with budget := { s.budget with used := mapSet 0 (8 * c + r) (s.used c r + n) s.budget.used } }

/-- A class has a request pending on a resource whose ceiling it has reached: it is exhausted (R408, R410). -/
def State.exhaust (s : State) (c : Nat) : State :=
  let set (s : State) (f : Fld) : State :=
    if testBit (s.getF f) c then s else s.setF f (s.getF f + 2 ^ c)
  let s := set (set s Reg.exhausted) Reg.exhaustedNow
  if s.budget.raised then s
  else ({ s with budget := { s.budget with raised := true } }).raise 7

/-- Core cycles per fret of the registry port, of stencil memory and of the fabric: 480 grains (R9). -/
def fretCycles : Nat := 122880

/-- Core cycles per fret of one Faeror core: 960 grains (R9). -/
def coreFretCycles : Nat := 245760

/-- The arbiter of one resource at work (R409): the cycle of the fret that it has come to, the cycles asked for and not
granted and those granted in this fret, by class, and the classes last granted at the round robin and at step 1. -/
structure Arbiter where
  cycle : Nat
  owed : List Nat
  got : List Nat
  turn : Nat
  alt : Nat
  deriving DecidableEq, Repr

/-- What an arbiter goes by in a fret: the cycles reserved for ULBF and for DLBF, on resources 0 and 3, and the floors of
the classes in cycles, 0 while budgets are not enforced (R413). -/
structure ArbiterRule where
  reserve : Option (Nat × Nat)
  floors : List Nat
  deriving DecidableEq, Repr

/-- Class `c` is granted the next `n` cycles. -/
def Arbiter.give (a : Arbiter) (c n : Nat) : Arbiter :=
  { a with
    cycle := a.cycle + n, owed := a.owed.set c (a.owed.getD c 0 - n), got := a.got.set c (a.got.getD c 0 + n) }

/-- Step 1 of R409 up to a cycle: ULBF and DLBF, alternately while both ask. -/
def Arbiter.first (a : Arbiter) (stop : Nat) : Arbiter :=
  let u := a.owed.getD 0 0
  let d := a.owed.getD 1 0
  let m := min (min u d) ((stop - a.cycle) / 2)
  if 0 < m then (a.give 0 m).give 1 m
  else
    let c := if u = 0 then 1 else if d = 0 then 0 else 1 - a.alt
    let n := if u = 0 ∨ d = 0 then min (u + d) (stop - a.cycle) else 1
    { a.give c n with alt := c }

/-- Steps 2 to 4 of R409 for at most `room` cycles: a class below its floor, else the round robin, whole rounds at once,
else SKIM. -/
def Arbiter.rest (a : Arbiter) (floors : List Nat) (stop room : Nat) : Arbiter :=
  let asks (c : Nat) : Bool := c != 7 && decide (0 < a.owed.getD c 0)
  let short (c : Nat) : Nat := floors.getD c 0 - a.got.getD c 0
  match (List.range 16).find? fun c => asks c && decide (0 < short c) with
  | some c => a.give c (min room (min (a.owed.getD c 0) (short c)))
  | none =>
    let l := List.range 16
    match (l.drop (a.turn + 1) ++ l.take (a.turn + 1)).filter asks with
    | [] => if a.owed.getD 7 0 = 0 then { a with cycle := stop } else a.give 7 (min room (a.owed.getD 7 0))
    | c :: t =>
      let m := t.foldl (fun m x => min m (a.owed.getD x 0)) (min (a.owed.getD c 0) (room / (t.length + 1)))
      if m = 0 then { a.give c 1 with turn := c }
      else { (c :: t).foldl (fun a x => a.give x m) a with turn := t.getLast?.getD c }

/-- The next grants of an arbiter up to a cycle. Below step 1 a cycle passes only while the cycles left after it exceed
the reserved cycles not yet used. -/
def Arbiter.next (q : ArbiterRule) (stop : Nat) (a : Arbiter) : Arbiter :=
  match q.reserve with
  | none => a.rest q.floors stop (stop - a.cycle)
  | some (u, d) =>
    if 0 < a.owed.getD 0 0 ∨ 0 < a.owed.getD 1 0 then a.first stop
    else
      let room := min stop (fretCycles - 1 - ((u - a.got.getD 0 0) + (d - a.got.getD 1 0))) - a.cycle
      if room = 0 then { a with cycle := stop } else a.rest q.floors stop room

/-- Grant cycle by cycle up to a cycle of the fret. Each round serves a class to its end, or to its floor, or ends a
round robin, so that 80 rounds see every request through. -/
def Arbiter.run (q : ArbiterRule) (stop : Nat) : Nat → Arbiter → Arbiter
  | 0, a => a
  | n + 1, a => if stop ≤ a.cycle then a else (a.next q stop).run q stop n

/-- The rule of a resource's arbiter in this fret. -/
def State.arbiterRule (s : State) (r : Nat) : ArbiterRule :=
  { reserve := if r = 4 then none else some (s.reserve 0 r, s.reserve 1 r)
    floors := (List.range 16).map fun c =>
      if s.getF Reg.budgetStatusEnforcing = 0 ∨ reservedClass c r then 0 else s.getF (Reg.budgetClassFloor c r) * 256 }

/-- The cycles that a resource owes to a class: charged, and not granted yet. -/
def State.owed (s : State) (c r : Nat) : Nat := mapGet 0 (8 * c + r) s.budget.owed

/-- The cycle of the present fret at the present time. -/
def State.fretCycle (s : State) : Nat := s.nowNs % 250000 * fretCycles / 250000

/-- The arbiter of resource 0, 3 or 4, at the cycle `stop` at least (R409). -/
def State.arbiterAt (s : State) (r stop : Nat) : Arbiter :=
  Arbiter.run (s.arbiterRule r) stop 80
    { cycle := mapGet 0 r s.budget.busy
      owed := (List.range 16).map (s.owed · r)
      got := (List.range 16).map fun c => s.used c r - s.owed c r
      turn := mapGet 0 r s.budget.turn
      alt := mapGet 0 (8 + r) s.budget.turn }

/-- Let the arbiter of a resource come to a cycle of the fret. -/
def State.arbitrate (s : State) (r stop : Nat) : State :=
  let a := s.arbiterAt r stop
  { s with budget := { s.budget with
      busy := mapSet 0 r a.cycle s.budget.busy
      owed := (List.range 16).foldl (fun m c => mapSet 0 (8 * c + r) (a.owed.getD c 0) m) s.budget.owed
      turn := mapSet 0 (8 + r) a.alt (mapSet 0 r a.turn s.budget.turn) } }

/-- Of `n` cycles that a class asks for now, those that it gets in this fret: within its ceiling, and granted before the
fret ends if nothing more is asked of the resource (R408, R409). -/
def State.drawable (s : State) (c r n : Nat) : Nat :=
  let m := match s.ceiling c r with
    | none => n
    | some x => min n (x - s.used c r)
  let a := s.arbiterAt r s.fretCycle
  let b := Arbiter.run (s.arbiterRule r) fretCycles 80 { a with owed := a.owed.set c (a.owed.getD c 0 + m) }
  m - b.owed.getD c 0

/-- The cycles already granted toward a class's pending request. -/
def State.part (s : State) (c r : Nat) : Nat := mapGet 0 (8 * c + r) s.budget.part

/-- A request for `n` cycles of resource 0, 3 or 4 is granted whole in this fret. -/
def State.covers (s : State) (c r n : Nat) : Bool := decide (n - s.part c r ≤ s.drawable c r (n - s.part c r))

/-- Charge a class with `n` cycles, which the arbiter then owes it: it grants them in its order, beside what is asked for
later (R408, R409). -/
def State.grant (s : State) (c r n : Nat) : State :=
  if n = 0 then s
  else
    let t := (s.arbitrate r s.fretCycle).charge c r n
    { t with budget := { t.budget with owed := mapSet 0 (8 * c + r) (t.owed c r + n) t.budget.owed } }

/-- A request of a class that is granted whole: the cycles still missing, and nothing of it pends any more. -/
def State.grantRest (s : State) (c r n : Nat) : State :=
  let t := s.grant c r (n - s.part c r)
  { t with budget := { t.budget with
      part := mapErase (8 * c + r) t.budget.part, asking := t.budget.asking.filter fun k => k != 8 * c + r } }

/-- A request of a class for `n` cycles that the fret does not cover: it is granted what there is, and pends; a class
whose ceiling is reached is exhausted (R408). -/
def State.grantPart (s : State) (c r n : Nat) : State :=
  let k := s.drawable c r (n - s.part c r)
  let t := s.grant c r k
  let t := { t with budget := { t.budget with
      part := mapSet 0 (8 * c + r) (s.part c r + k) t.budget.part, asking := insertOnce (8 * c + r) t.budget.asking } }
  if t.mayUse c r then t else t.exhaust c

/-- A class asks for cycles of resource 0, 3 or 4: it is granted them and told true, or it waits and is told false. -/
def State.ask (s : State) (c r n : Nat) : State × Bool :=
  if s.covers c r n then (s.grantRest c r n, true) else (s.grantPart c r n, false)

/-- A class asks for cycles of several resources: all are granted, or what is granted stands toward the pending request
(R408: its grants on other resources are unaffected). -/
def State.askAll (s : State) (c : Nat) (l : List (Nat × Nat)) : State × Bool :=
  if l.all fun x => s.covers c x.1 x.2 then (s.each l fun s x => s.grantRest c x.1 x.2, true)
  else (s.each l fun s x =>
    if s.covers c x.1 x.2 then
      let k := x.2 - s.part c x.1
      let t := s.grant c x.1 k
      { t with budget := { t.budget with part := mapSet 0 (8 * c + x.1) (s.part c x.1 + k) t.budget.part } }
    else s.grantPart c x.1 x.2, false)

/-- A class asks for grains of observation time: its ceiling covers the whole grant, or it waits (R163, R408). -/
def State.coversObs (s : State) (c n : Nat) : Bool :=
  match s.ceiling c 2 with
  | none => true
  | some x => decide (s.used c 2 + n ≤ x)

/-- Another class than SKIM has a request pending on a resource (R409, step 4). -/
def State.othersAsk (s : State) (r : Nat) : Bool := s.budget.asking.any fun k => k % 8 == r && k / 8 != 7

/-- The resources that a class is charged for (R404). -/
def classResources : Nat → List Nat
  | 0 => [0, 3]
  | 1 => [0, 3]
  | 2 => [0, 1, 4]
  | 3 => [1, 4]
  | 4 => [1, 2, 4]
  | 5 => [1, 2, 4]
  | 6 => [0, 1, 2, 3, 4]
  | 7 => [0, 3, 4]
  | 8 => [4]
  | 9 => [0, 4]
  | 10 => [0, 3, 4]
  | 11 => [2]
  | 12 => [0, 1, 4]
  | 13 => [4]
  | 14 => [1, 4]
  | 15 => [1]
  | _ => []

/-- A class has CEIL = 0 on one of its resources while budgets are enforced (R414), or is shed (R470). -/
def State.deferred (s : State) (c : Nat) : Bool :=
  s.shed c || s.getF Reg.budgetStatusEnforcing == 1 &&
    (classResources c).any fun r => s.getF (Reg.budgetClassCeil c r) == 0

/-! ## Command arguments, results and completion (R529, R530) -/

/-- Argument word `i`, as the host left it. -/
def State.argW (s : State) (i : Nat) : Nat := s.getF (Reg.arg i)

/-- Write result words from offset 0 of the argument block. -/
def State.results (s : State) (l : List Nat) : State :=
  s.each ((List.range l.length).zip l) fun s p => s.setF (Reg.arg p.1) p.2

/-- The final codes of CMD_STATUS. -/
inductive CmdCode where
  | done
  | busy
  | stateReject
  | roleReject
  | argReject
  | budgetDefer
  | failed
  deriving DecidableEq, Repr

/-- The number of a final code. -/
def CmdCode.code : CmdCode → Nat
  | .done => 0
  | .busy => 1
  | .stateReject => 2
  | .roleReject => 3
  | .argReject => 4
  | .budgetDefer => 5
  | .failed => 6

/-- Complete the running command: CODE, RUNNING, SEQ and EV_8 in one cycle (R530). -/
def State.complete (s : State) (c : CmdCode) : State :=
  (((({ s with job := none }).setF Reg.cmdStatusCode c.code).setF Reg.cmdStatusRunning 0).addWrap
    Reg.cmdStatusSeq 1).raise 8

/-- Complete with DONE after writing results. -/
def State.completeDone (s : State) (res : List Nat) : State := (s.results res).complete .done

/-- Complete with FAILED and a REASON in word 0. -/
def State.completeFail (s : State) (reason : Nat) : State := (s.results [reason]).complete .failed

/-- The port that wrote the running command (CMD_STATUS.PORT). -/
def State.cmdPort (s : State) : Port := if s.getF Reg.cmdStatusPort = 1 then .qspi else .pcie

/-- Draw the next fresh free value: the value and the state with the model's counter advanced. -/
def State.draw (s : State) : Nat × State := (Config.freeValue s.drawn, { s with drawn := s.drawn + 1 })

/-! ## Cores and Hod channels -/

/-- Core FA_n. -/
def State.core (s : State) (n : Nat) : Core := vecGet s.cores n .blank

/-- Replace core FA_n. -/
def State.setCore (s : State) (n : Nat) (c : Core) : State := { s with cores := vecSet s.cores n c }

/-- Make an interrupt line of a core pending (R285). -/
def State.pendLine (s : State) (n k : Nat) : State :=
  let c := s.core n
  s.setCore n { c with irq := c.irq ||| 2 ^ k }

/-- Who owns a Hod channel (R493). -/
inductive HodOwner where
  | host
  | maker (n : Nat)
  | operator (n : Nat)
  deriving DecidableEq, Repr

/-- The HOD_ASSIGN field of channel 8 + j. -/
def hodAssign (j : Nat) : Fld := ⟨0x500, 4 * j, 4, 0⟩

/-- The owner of channel k (R493). -/
def State.hodOwner (s : State) (k : Nat) : HodOwner :=
  if k < 4 then .host
  else if k < 8 then .maker (k - 4)
  else
    let v := s.getF (hodAssign (k - 8))
    if 1 ≤ v ∧ v ≤ 8 ∧ (s.core (15 + v)).operator then .operator (15 + v) else .host

/-! ## Access log (R515, R518) -/

/-- The causes of HOSTPORT.ACCESS_LOG_INFO. -/
inductive LogCause where
  | role
  | journalFull
  | off
  | unmapped
  | claimed
  | argLocked
  deriving DecidableEq, Repr

/-- The number of a cause. -/
def LogCause.code : LogCause → Nat
  | .role => 1
  | .journalFull => 2
  | .off => 3
  | .unmapped => 4
  | .claimed => 5
  | .argLocked => 6

/-- Log an access: the space address, the port, whether it wrote, and the cause (R518). -/
def State.logAccess (s : State) (p : Port) (space : Nat) (write : Bool) (c : LogCause) : State :=
  ((((s.setF Reg.accessLogAddr space).setF Reg.accessLogInfoCause c.code).setF Reg.accessLogInfoPort
    (portCode p)).setFlag Reg.accessLogInfoWrite write).addSat Reg.accessLogInfoCount 1

end Sys2Proof.Machine
end

