-- ==== Sys2Proof/Machine/Memory.lean ====
section
/-! DEFINITION. The coded memories (chapter 17): reads, whole and partial writes, poison, the hardware fill and the
error log. -/

namespace Sys2Proof.Machine

/-- The coded memories, in the order of their IDs (R476). -/
inductive MemId where
  | registry
  | stencil
  | capture
  | spine
  | faProg
  | faData
  deriving DecidableEq, Repr

/-- The ID of a memory (R476). -/
def MemId.code : MemId → Nat
  | .registry => 0
  | .stencil => 1
  | .capture => 2
  | .spine => 3
  | .faProg => 4
  | .faData => 5

/-- The memory that an ID names. -/
def memOfCode : Nat → Option MemId
  | 0 => some .registry
  | 1 => some .stencil
  | 2 => some .capture
  | 3 => some .spine
  | 4 => some .faProg
  | 5 => some .faData
  | _ => none

/-- The size of a memory in words of 256 bits (R476). -/
def MemId.words : MemId → Nat
  | .registry => 524288
  | .stencil => 98304
  | .capture => 131072
  | .spine => 40960
  | .faProg => 49152
  | .faData => 98304

/-- The domain that holds a memory (R476). -/
def MemId.domain : MemId → Domain
  | .registry => .registry
  | .stencil => .spectral
  | .capture => .spine
  | .spine => .spine
  | .faProg => .faeror
  | .faData => .faeror

/-- The contents of a memory. -/
def State.mem (s : State) : MemId → CodedMem
  | .registry => s.registryMem
  | .stencil => s.stencilMem
  | .capture => s.captureMem
  | .spine => s.spineMem
  | .faProg => s.faProg
  | .faData => s.faData

/-- Replace the contents of a memory. -/
def State.setMem (s : State) (m : MemId) (x : CodedMem) : State :=
  match m with
  | .registry => { s with registryMem := x }
  | .stencil => { s with stencilMem := x }
  | .capture => { s with captureMem := x }
  | .spine => { s with spineMem := x }
  | .faProg => { s with faProg := x }
  | .faData => { s with faData := x }

/-- A memory as the hardware fill leaves it: every word the zero codeword, but for the Faeror data memories, whose words
read poisoned until they are written (R481). -/
def CodedMem.filled (m : MemId) : CodedMem := ⟨[], [], if m = .faData then .poisoned else .clean⟩

/-- The canonical form of a memory: rising addresses, no listed byte equal to 0, no listed mark equal to the resting
mark. -/
def CodedMem.wf (x : CodedMem) : Bool := mapWf 0 x.bytes && mapWf x.rest x.marks

/-- One stored byte. -/
def CodedMem.byte (x : CodedMem) (a : Nat) : Byte := mapGet 0 a x.bytes

/-- The bytes of a run that differ from 0, with their addresses. -/
def runCells (a : Nat) : List Byte → List Host.Cell
  | [] => []
  | b :: t => if b = 0 then runCells (a + 1) t else (a, b) :: runCells (a + 1) t

/-- Store bytes from an address on: the cells below the run, the run, and the cells above it. -/
def CodedMem.setBytes (x : CodedMem) (a : Nat) (l : List Byte) : CodedMem :=
  { x with bytes := x.bytes.filter (fun c => decide (c.1 < a)) ++ runCells a l ++
      x.bytes.filter fun c => decide (a + l.length ≤ c.1) }

/-- What a word decodes as. -/
def State.wordMark (s : State) (m : MemId) (w : Nat) : Mark := mapGet (s.mem m).rest w (s.mem m).marks

/-- Set what a word decodes as. -/
def State.setMark (s : State) (m : MemId) (w : Nat) (k : Mark) : State :=
  s.setMem m { (s.mem m) with marks := mapSet (s.mem m).rest w k (s.mem m).marks }

/-- Bytes of a memory as they stand. -/
def State.rawBytes (s : State) (m : MemId) (a n : Nat) : List Byte :=
  (List.range n).map fun i => (s.mem m).byte (a + i)

/-- The error log's requester codes (R492). -/
inductive Requester where
  | skim
  | hostPcie
  | hostQspi
  | hod
  | core
  | scheduler
  | spectral
  | fronthaul
  | bridge
  | spine
  | capture
  deriving DecidableEq, Repr

/-- The number of a requester. -/
def Requester.code : Requester → Nat
  | .skim => 0
  | .hostPcie => 1
  | .hostQspi => 2
  | .hod => 3
  | .core => 4
  | .scheduler => 5
  | .spectral => 6
  | .fronthaul => 7
  | .bridge => 8
  | .spine => 9
  | .capture => 10

/-- The requester of a host port. -/
def portReq : Port → Requester
  | .pcie => .hostPcie
  | .qspi => .hostQspi

/-- Append a record to the error log; a full log drops it and counts it (R492). -/
def State.logErr (s : State) (m : MemId) (w kind : Nat) (r : Requester) (sym : Nat) : State :=
  if s.memint.log.length < 16 then
    { s with memint := { s.memint with log := s.memint.log ++ [⟨w, m.code, kind, r.code, sym, s.short⟩] } }
  else s.addSat Reg.logStatusLost 1

/-- A corrected codeword no longer waits to be written back. -/
def State.cancelWriteBack (s : State) (m : MemId) (w : Nat) : State :=
  { s with memint := { s.memint with writeBacks := s.memint.writeBacks.filter fun p => p ≠ (m.code, w) } }

/-- What a read of one word gives: its data as delivered or as stored, and whether it is good. -/
structure WordRead where
  data : List Byte
  good : Bool
  deriving DecidableEq, Repr

/-- Read one word (R477, R482, R483). `silent` is the Faeror load, for which EV_97 is not raised. -/
def State.readWord (s : State) (m : MemId) (w : Nat) (r : Requester) (silent : Bool) : State × WordRead :=
  let d := s.rawBytes m (32 * w) 32
  match s.wordMark m w with
  | .clean => (s, ⟨d, true⟩)
  | .correctable sym _ =>
    let s := ((s.addSat (Reg.memCe m.code) 1).logErr m w 0 r sym).raise 96
    let q := s.memint.writeBacks
    let s := if q.contains (m.code, w) then s
      else { s with memint := { s.memint with writeBacks := q ++ [(m.code, w)] } }
    (s, ⟨d, true⟩)
  | .uncorrectable =>
    let s := (s.addSat (Reg.memUeUeRead m.code) 1).logErr m w 1 r 0x7F
    (if silent then s else s.raise 97, ⟨d, false⟩)
  | .poisoned =>
    let s := (s.addSat (Reg.memUeUeRead m.code) 1).logErr m w 2 r 0x7F
    (if silent then s else s.raise 97, ⟨d, false⟩)

/-- Read whole words from a word on: the bytes, and whether every word was good. -/
def State.readWords (s : State) (m : MemId) (r : Requester) (w : Nat) : Nat → State × List Byte × Bool
  | 0 => (s, [], true)
  | n + 1 =>
    let x := s.readWord m w r false
    let y := x.1.readWords m r (w + 1) n
    (y.1, x.2.data ++ y.2.1, x.2.good && y.2.2)

/-- Read bytes of a memory through the words that hold them: the bytes, and whether every word was good. -/
def State.readBytes (s : State) (m : MemId) (r : Requester) (a n : Nat) : State × List Byte × Bool :=
  if n = 0 then (s, [], true)
  else
    let w := a / 32
    let x := s.readWords m r w ((a + n - 1) / 32 + 1 - w)
    (x.1, slice (a % 32) n x.2.1, x.2.2)

/-- Write a whole word: a fresh codeword, whatever the word held (R485). -/
def State.writeWhole (s : State) (m : MemId) (w : Nat) (d : List Byte) : State :=
  let s := s.cancelWriteBack m w
  (s.setMem m ((s.mem m).setBytes (32 * w) d)).setMark m w .clean

/-- Write part of a word: read, merge and write as one operation (R485, R486). -/
def State.writePart (s : State) (m : MemId) (r : Requester) (a : Nat) (d : List Byte) : State :=
  let w := a / 32
  let s := s.cancelWriteBack m w
  let put (s : State) : State := s.setMem m ((s.mem m).setBytes a d)
  match s.wordMark m w with
  | .clean => put s
  | .correctable _ _ =>
    (((put s).setMark m w .clean).addSat (Reg.memCe m.code) 1).raise 96
  | .uncorrectable =>
    ((((put s).setMark m w .poisoned).addSat (Reg.memPartialUePartial m.code) 1).logErr m w 4 r 0x7F).raise 99
  | .poisoned =>
    (((put s).addSat (Reg.memPartialUePartial m.code) 1).logErr m w 4 r 0x7F).raise 99

/-- Write bytes that lie in one word: the whole word or a part. -/
def State.writeInWord (s : State) (m : MemId) (r : Requester) (a : Nat) (d : List Byte) : State :=
  if d.length = 32 && a % 32 == 0 then s.writeWhole m (a / 32) d
  else if d.isEmpty then s else s.writePart m r a d

/-- Write bytes from an address on, word by word; `fuel` bounds the number of words. -/
def State.writeRun (s : State) (m : MemId) (r : Requester) : Nat → Nat → List Byte → State
  | 0, _, _ => s
  | fuel + 1, a, d =>
    if d.isEmpty then s
    else
      let n := 32 - a % 32
      (s.writeInWord m r a (d.take n)).writeRun m r fuel (a + n) (d.drop n)

/-- Write bytes of a memory. -/
def State.writeBytes (s : State) (m : MemId) (r : Requester) (a : Nat) (d : List Byte) : State :=
  s.writeRun m r (d.length / 32 + 2) a d

/-- Write a word poisoned, with the data bits given (R479, R484). -/
def State.writePoisoned (s : State) (m : MemId) (w : Nat) (d : List Byte) : State :=
  let s := s.cancelWriteBack m w
  (s.setMem m ((s.mem m).setBytes (32 * w) d)).setMark m w .poisoned

/-- Write zero codewords into words `w` to `w + n - 1`, by taking every byte and mark of that range out. -/
def State.zeroWords (s : State) (m : MemId) (w n : Nat) : State :=
  let x := s.mem m
  let inside (k : Nat) : Bool := decide (w ≤ k) && decide (k < w + n)
  let s := { s with memint := { s.memint with
    writeBacks := s.memint.writeBacks.filter fun p => !(p.1 == m.code && inside p.2) } }
  let s := s.setMem m { x with
    bytes := x.bytes.filter fun p => !inside (p.1 / 32), marks := x.marks.filter fun p => !inside p.1 }
  if x.rest = .clean then s else s.each (List.range n) fun s i => s.setMark m (w + i) .clean

/-- Fill a whole memory with zero codewords. -/
def State.zeroMem (s : State) (m : MemId) : State :=
  ({ s with memint := { s.memint with
    writeBacks := s.memint.writeBacks.filter fun p => !(p.1 == m.code) } }).setMem m .zeroed

/-- The bytes from `a` on of a run that may wrap at the end of a ring of `len` bytes at `base`. -/
def ringOffset (base len off : Nat) : Nat := if len = 0 then base else base + off % len

end Sys2Proof.Machine
end

