-- ==== Sys2Proof/Machine/Journal.lean ====
section
/-! DEFINITION. Bridge frames out, and the change journal (R61 to R65): record images, fullness, the tail latch and
the twin's copy. -/

namespace Sys2Proof.Machine

/-- SOLO, LEAD, FOLLOW, ISOLATED: the codes of BRIDGE.ROLE. -/
def roleSolo : Nat := 0
def roleLead : Nat := 1
def roleFollow : Nat := 2
def roleIsolated : Nat := 3

/-- The chip is LEAD or FOLLOW of a formed pair whose Bridge is trained. -/
def State.inPair (s : State) : Bool :=
  s.bridge.paired && s.flag Reg.bridgeStatusTrained &&
    (s.getF Reg.bridgeRole == roleLead || s.getF Reg.bridgeRole == roleFollow)

/-- Send a Bridge frame: its kind's next SEQ and the present EPOCH go into the header (R357). -/
def State.bridgeSend (s : State) (kind : Nat) (payload : List Byte) : State :=
  let q := mapGet 0 kind s.bridge.seqTx
  { s with
    bridge := { s.bridge with seqTx := mapSet 0 kind ((q + 1) % 65536) s.bridge.seqTx }
    out := { s.out with bridge := s.out.bridge ++ [⟨kind, q, s.getF Reg.linkEpoch, payload⟩] } }

/-- The KINDs of journal records (R61). -/
inductive JournalKind where
  | genesis
  | lathApplied
  | lathRejected
  | enrolled
  | sessionOpen
  | sessionFail
  | sessionClose
  | fieldWrite
  | fault
  | makerEntry
  | lostRecords
  | relathCancelled
  deriving DecidableEq, Repr

/-- The number of a KIND. -/
def JournalKind.code : JournalKind → Nat
  | .genesis => 1
  | .lathApplied => 2
  | .lathRejected => 3
  | .enrolled => 4
  | .sessionOpen => 5
  | .sessionFail => 6
  | .sessionClose => 7
  | .fieldWrite => 8
  | .fault => 9
  | .makerEntry => 10
  | .lostRecords => 11
  | .relathCancelled => 12

/-- The kinds that use the last four places (R63). -/
def JournalKind.reserve : JournalKind → Bool
  | .fault => true
  | .makerEntry => true
  | .sessionOpen => true
  | .sessionFail => true
  | .sessionClose => true
  | _ => false

/-- What a record says beside its SEQ, time and chain. -/
structure JournalNote where
  kind : JournalKind
  role : Nat
  port : Nat
  detail : Nat
  subject : Nat
  digest : Nat
  deriving DecidableEq, Repr

/-- Unacknowledged records (R63). -/
def State.unacked (s : State) : Nat := s.journal.next - s.journal.first

/-- 4,092 or more records are unacknowledged: a command or host write that would create a record fails (R63). -/
def State.journalFull (s : State) : Bool := decide (4092 ≤ s.unacked)

/-- The CHAIN of the next record: the tail latch's, or the digest of DEVICE_UID (R62). -/
def State.chain (s : State) : Nat :=
  match s.drone.tail with
  | some t => t.2.toNat
  | none => (Config.sha384 (leBytes 8 Config.deviceUid.toNat)).toNat

/-- The 128-byte image of the next record (R61). -/
def State.journalImage (s : State) (n : JournalNote) : List Byte :=
  leBytes 4 s.journal.next ++ leBytes 1 n.kind.code ++ leBytes 1 n.role ++ leBytes 1 n.port ++
    leBytes 1 (bit s.timeValid + 2 * bit s.returnedPart) ++ leBytes 6 (s.nowNs / 1000000000) ++ leBytes 2 0 ++
    leBytes 4 (s.nowNs % 1000000000) ++ leBytes 4 n.detail ++ leBytes 8 n.subject ++ beBytes 48 n.digest ++
    beBytes 48 s.chain

/-- The byte of spine memory at which the journal holds the record with a SEQ: 4,096 places of 128 bytes. -/
def journalAddr (seq : Nat) : Nat := seq % 4096 * 128

/-- The byte of spine memory at which the twin ring holds its n-th record. -/
def twinRingAddr (n : Nat) : Nat := 524288 + n % 4096 * 128

/-- The first bytes of the failure capsule, the divergence log and the margin plan in spine memory. -/
def capsuleAddr : Nat := 1048576
def divergenceAddr : Nat := 1064960
def planAddr : Nat := 1130496

/-- Write the next record into its place; the tail latch follows in the same cycle (R62). EV_5 is raised as the count
rises to 3,584 (R63). -/
def State.journalAppend (s : State) (n : JournalNote) : State :=
  let img := s.journalImage n
  let q := s.journal.next
  let before := s.unacked
  let s := s.writeBytes .spine .spine (journalAddr q) img
  let s := { s with
    journal := { s.journal with next := q + 1 }
    drone := { s.drone with tail := some (q, Config.sha384 img) } }
  if before = 3583 then s.raise 5 else s

/-- Write the waiting LOST_RECORDS record once a place below the last four is free (R63). -/
def State.journalFlush (s : State) : State :=
  if s.journal.lost = 0 || s.journalFull then s
  else
    let n := s.journal.lost
    ({ s with journal := { s.journal with lost := 0 } }).journalAppend ⟨.lostRecords, 0, 4, n, 0, 0⟩

/-- Send the records that the twin has not been sent, at most the 4,096 that the journal holds (R371), each charged to JOURNAL while it has grains (R65, R404). A
record that reads as damaged is lost and not sent (R483). -/
def State.journalSendUpTo (s : State) : Nat → State
  | 0 => s
  | fuel + 1 =>
    if !s.inPair || s.journal.next ≤ s.journal.sent then s
    else
      let a := s.ask 13 4 4
      if !a.2 then a.1
      else
        let q := max s.journal.sent (s.journal.next - 4096)
        let r := a.1.readBytes .spine .spine (journalAddr q) 128
        let s := { r.1 with journal := { r.1.journal with sent := q + 1 } }
        let s := if r.2.2 then s.bridgeSend 0x40 r.2.1 else s
        s.journalSendUpTo fuel

/-- Send every record that waits for the twin. -/
def State.journalSend (s : State) : State := s.journalSendUpTo (s.journal.next - s.journal.sent)

/-- Write a record, or count it as lost where it finds no place (R63). A device record keeps out of the last four
places; FAULT, MAKER_ENTRY and session records may take them. An entry into Deep Hold writes no further record
(R108). -/
def State.note (s : State) (n : JournalNote) : State :=
  if s.phase = .deepEntry then s
  else
  let s := s.journalFlush
  let limit := if n.kind.reserve then 4096 else 4092
  if s.unacked < limit then
    let q := s.journal.next
    let s := s.journalAppend n
    let s := if n.kind = .fault then { s with journal := { s.journal with lastFault := some q } } else s
    s.journalSend
  else { s with journal := { s.journal with lost := s.journal.lost + 1 } }

/-- The role of a session as the journal writes it. -/
def sessionRole (x : Session) : Nat :=
  match x.role with
  | some r => roleCode r
  | none => 0

/-- End a port's session, with its SESSION_CLOSE record if it held a role (R46, R61). -/
def State.endSession (s : State) (p : Port) : State :=
  let x := s.session p
  match x.role with
  | none => s
  | some r => (s.setSession p { x with role := none, keySlot := 0 }).note ⟨.sessionClose, roleCode r, portCode p, 0, 0, 0⟩

end Sys2Proof.Machine
end

