-- ==== Sys2Proof/Machine/RegRead.lean ====
section
/-! DEFINITION. Reading registers: the family and row of an address, the fields in their bit ranges, and the registers
whose value is held elsewhere in the state. -/

namespace Sys2Proof.Machine

/-- What is left of an address offset after the strides of a family, if every index lies in its range. -/
def dimsLeft : Nat → List (Nat × Nat) → Option Nat
  | r, [] => some r
  | r, d :: t => if r / d.1 < d.2 then dimsLeft (r % d.1) t else none

/-- Whether an address is an instance of a family. -/
def RegFam.covers (f : RegFam) (a : Nat) : Bool :=
  decide (f.base ≤ a) && dimsLeft (a - f.base) f.dims == some 0

/-- The field rows of the register at a byte address of the index-0 BAR, or none for an unmapped offset (R515). -/
def fieldRows (a : Nat) : Option (List FieldRow) :=
  ((blockFams a).find? fun f => f.covers a).map RegFam.fields

/-- The handle of a field row at an address. -/
def FieldRow.fld (r : FieldRow) (a : Nat) : Fld := ⟨a, r.lo, r.w, r.rst⟩

/-- The value that a host read sees of one field, in place: the shadow of an SH field, 0 of a WO field (R5, R415). -/
def State.fieldView (s : State) (a : Nat) (r : FieldRow) : Nat :=
  (match r.access with
    | .sh => s.getSh (r.fld a)
    | .wo => 0
    | _ => s.getF (r.fld a)) * 2 ^ r.lo

/-- The fields of a register put together. -/
def State.regFields (s : State) (a : Nat) : Nat :=
  match fieldRows a with
  | none => 0
  | some l => l.foldl (fun n r => n + s.fieldView a r) 0

/-- The session register of a port (SPINE.SESSION_PCIE and SESSION_QSPI). -/
def sessionWord (x : Session) : Nat :=
  sessionRole x + 4 * (x.keySlot % 2) + 8 * bit x.lockedAt.isSome + 16 * (x.fails % 8)

/-- The number of a RUNSTATE. -/
def RunState.code : RunState → Nat
  | .halted => 0
  | .running => 1
  | .waiting => 2
  | .stalled => 3

/-- The register of a core at an offset of its block (09, registers). -/
def Core.reg (c : Core) (off : Nat) : Nat :=
  if off = 0 then bit (c.run != .halted)
  else if off = 4 then
    c.run.code + 4 * c.start + 16 * bit c.loaded + 32 * bit c.operator + 256 * c.cls + 4096 * bits c.st 4 4 +
      65536 * bits c.st 8 1
  else if off = 8 then c.haltPc + 65536 * c.cause + 2 ^ 24 * c.restarts
  else if off = 0xC then c.haltAddr
  else if off = 0x10 then c.entry
  else if off = 0x14 then c.irq + 256 * c.ien
  else if off = 0x18 then (if c.operator then c.dbell.toNat else 0)
  else if off = 0x1C then c.cycles
  else 0

/-- The OWNER register of a Hod channel. -/
def HodOwner.reg : HodOwner → Nat
  | .host => 0
  | .maker n => 1 + 256 * n
  | .operator n => 2 + 256 * n

/-- The mask of the cores for which something holds. -/
def State.coreMask (s : State) (f : Core → Bool) : Nat := listMask ((List.range 24).filter fun n => f (s.core n))

/-- The macros of a coded memory: 256 KiB each, one per core for the Faeror memories (R490). -/
def memMacros : Nat → Nat
  | 0 => 64
  | 1 => 12
  | 2 => 16
  | 3 => 5
  | _ => 24

/-- The scan settings are consistent: the scan is active (R236). -/
def State.scanOk (s : State) : Bool :=
  let n := s.getF Reg.scanPrbCount
  let c := s.getF Reg.scanCarrier
  decide (1 ≤ n) && decide (n ≤ 12) && s.flag (Reg.carConfigEnable 0 c) &&
    decide (s.getF Reg.scanPrbStart + n ≤ s.getF (Reg.carConfigPrbCount 0 c))

/-- Registers whose value is held elsewhere in the state. -/
def State.viewReg (s : State) (a : Nat) : Option Nat :=
  if a = 0x4 then some s.dev.code
  else if a = 0x8 then some (Config.deviceUid.toNat % 2 ^ 32)
  else if a = 0xC then some (Config.deviceUid.toNat / 2 ^ 32)
  else if a = 0x10 then some (sessionWord s.pcie)
  else if a = 0x14 then some (sessionWord s.qspi)
  else if a = 0x200 then
    some (s.unacked % 8192 + 8192 * bit (decide (3584 ≤ s.unacked)) + 16384 * bit s.journal.capsuleValid +
      65536 * s.fuses.returned)
  else if a = 0x204 then some ((match s.drone.tail with | some t => t.1 | none => 0) % 2 ^ 32)
  else if a = 0x180000 then some (s.regFields 0x180000 + 16 * s.time.txts.length)
  else if a = 0x180004 then some (s.nowNs % 1000000000)
  else if a = 0x180014 then some s.short
  else if a = 0x180340 then some (match s.time.txts with | [] => 65536 | e :: _ => e.1)
  else if a = 0x100200 then some (listMask s.events.vectors)
  else if a = 0x100204 then some (bit s.events.irqA + 2 * bit s.events.irqB)
  else if a = 0x802200 then some (s.regFields 0x802200 + 2 ^ 24 * bit s.scanOk)
  else if a = 0x1400010 then some (Config.linkMac.toNat % 2 ^ 32)
  else if a = 0x1400014 then some (Config.linkMac.toNat / 2 ^ 32)
  else if a = 0x1800400 then some (s.memint.log.length + s.regFields 0x1800400)
  else if a = 0x1800404 then
    some (match s.memint.log with | [] => 2 ^ 31 | e :: _ => e.addr % 2 ^ 24)
  else if 0x1800114 ≤ a && a < 0x18001D4 && a % 32 = 0x14 && s.phase == .run then
    let m := (a - 0x1800114) / 32
    some ((Config.spares m).1 % 256 + (Config.spares m).2 % 256 * 256 + memMacros m * 65536)
  else if 0x1000000 ≤ a && a < 0x1180000 then some ((s.core ((a - 0x1000000) / 65536)).reg (a % 65536))
  else if a = 0x1180004 then some (s.coreMask fun c => c.operator)
  else if a = 0x1180008 then some (s.coreMask fun c => c.loaded)
  else if 0x1900000 ≤ a && a < 0x1900400 && a % 64 = 0x1C then some (s.hodOwner ((a - 0x1900000) / 64)).reg
  else if a = 0x1900400 then
    some (listMask ((List.range 16).filter fun k => s.getF (Reg.chStatusState k) != 0))
  else if 0x1A11000 ≤ a && a < 0x1A11008 then
    some (if a = 0x1A11000 then listMask s.events.withheld else 0)
  else none

/-- The value of a register in force for its reader. -/
def State.regValue (s : State) (a : Nat) : Nat :=
  match s.viewReg a with
  | some v => v
  | none => s.regFields a

/-- Whether an address holds a register at all. -/
def isRegister (a : Nat) : Bool :=
  a % 4 == 0 && ((fieldRows a).isSome || (0x1A11000 ≤ a && a < 0x1A11008))
/-! ## The block map (R519) -/

/-- The domains of a DFE register: the half it serves, or both. -/
def dfeDomains (a : Nat) : List Domain :=
  let both := [Domain.dfeWest, .dfeEast]
  let half (h : Nat) := [dfeOf h]
  if a = (Reg.rxIfFtw 0).addr ∨ a = (Reg.txIfFtw 0).addr then half 0
  else if a = (Reg.rxIfFtw 1).addr ∨ a = (Reg.txIfFtw 1).addr then half 1
  else if 0x600080 ≤ a ∧ a < 0x600090 then half ((a - 0x600080) / 8)
  else if 0x600400 ≤ a ∧ a < 0x600800 then half ((a - 0x600400) / 512)
  else if 0x600800 ≤ a ∧ a < 0x601000 then half ((a - 0x600800) / 1024)
  else both

/-- The domains of the register at an address: it is reached while one of them is On or Gated. -/
def regDomains (a : Nat) : List Domain :=
  if a < 0x400000 then [.spine]
  else if a < 0x500000 then [dfeOf ((a - 0x400000) / 0x80000)]
  else if a < 0x504000 then [dfeOf ((a - 0x500000) / 0x2000)]
  else if a < 0x580000 then [.spine]
  else if a < 0x600000 then [.monitor]
  else if a < 0x800000 then dfeDomains a
  else if a < 0xC00000 then [.spectral]
  else if a < 0x1000000 then [.registry]
  else if a < 0x1400000 then [.faeror]
  else if a < 0x1500000 then [.link]
  else if a < 0x1600000 then [.bridge]
  else if a < 0x1700000 then [.monitor]
  else [.spine]

end Sys2Proof.Machine
end

