-- ==== Sys2Proof/Machine/Synth.lean ====
section
/-! DEFINITION. Path states and the LO synthesizers (chapter 06): lookup in the calibration store, the rules that an edge follows, the
lock, and the spans of samples that a retune marks. -/

namespace Sys2Proof.Machine

/-! ## Path states (R188) -/

/-- The codes of PATH_n.STATE.STATE. -/
def pathIdle : Nat := 0
def pathCal : Nat := 1
def pathReady : Nat := 2
def pathActive : Nat := 3
def pathMuted : Nat := 4
def pathFenced : Nat := 5

/-- The state of a path. -/
def State.path (s : State) (p : Nat) : Nat := s.getF (Reg.pathStateState p)

/-- Set the state of a path that is not fenced. -/
def State.setPath (s : State) (p st : Nat) : State :=
  (s.setF (Reg.pathStateState p) st).setF (Reg.pathStateFenceReason p) 0

/-! ## Spans of invalid samples (R130, R131) -/

/-- Mark a run of samples of paths `lo` to `hi`, from a path sample on, for a count or without end. -/
def State.addSpan (s : State) (lo hi : Nat) (carrier : Option Nat) (c : SpanCause) (first : Nat) (stop : Option Nat) :
    State :=
  { s with rx := { s.rx with spans := s.rx.spans ++ [⟨lo, hi, carrier, c, first, stop⟩] } }

/-- Close the open runs of a cause for the paths of a half at a path sample. -/
def State.closeSpans (s : State) (h : Nat) (c : SpanCause) (stop : Nat) : State :=
  { s with rx := { s.rx with spans := s.rx.spans.map fun x =>
      if x.cause = c ∧ x.stop = none ∧ x.lo / 32 = h then { x with stop := some stop } else x } }

/-- Do a thing for every path of a half. -/
def State.eachPathOf (s : State) (h : Nat) (f : State → Nat → State) : State :=
  s.each ((List.range 32).map (· + 32 * h)) f

/-! ## Synthesizers -/

/-- The codes of SYN_x.STATUS.STATE. -/
def synOff : Nat := 0
def synLocking : Nat := 1
def synLocked : Nat := 2
def synCal : Nat := 3
def synHopping : Nat := 4

/-- A synthesizer's hidden state. -/
def State.synth (s : State) (x : Nat) : SynState :=
  vecGet s.syn x ⟨none, none, none, false, none, [], [], [], false, false⟩

/-- Change a synthesizer's hidden state. -/
def State.setSynth (s : State) (x : Nat) (f : SynState → SynState) : State := { s with syn := vecModify s.syn x f }

/-- The state code of a synthesizer. -/
def State.synState (s : State) (x : Nat) : Nat := s.getF (Reg.synStatusState x)

/-- The sensor of a synthesizer's half: TS_6 for West, TS_9 for East. -/
def synSensor (x : Nat) : Nat := if x / 2 = 0 then 6 else 9

/-- The lowest sensor of a sensor's group: TS_0 to TS_7 West, TS_8 to TS_15 East (R464). -/
def sensorGroup (t : Nat) : List Nat := (List.range 8).map (· + 8 * (t / 8))

/-- The last reading of a sensor in 1/16 °C. -/
def State.sensorReading (s : State) (t : Nat) : Int := (vecGet s.mon.sensors t ⟨0, 0, 0⟩).reading

/-- Put a number into a rising list. -/
def insertInt (n : Int) : List Int → List Int
  | [] => [n]
  | x :: t => if n ≤ x then n :: x :: t else x :: insertInt n t

/-- Twice the median of a list: of an even number of values, the sum of the two in the middle. -/
def median2 (l : List Int) : Int :=
  let m := l.foldl (fun a x => insertInt x a) []
  let n := m.length
  m.getD ((n - 1) / 2) 0 + m.getD (n / 2) 0

/-- The readings of the unbroken sensors of a sensor's group, but for the sensor itself if `self` is false. -/
def State.groupReadings (s : State) (t : Nat) (self : Bool) : List Int :=
  ((sensorGroup t).filter fun k => s.flag (Reg.tempSensorValid k) && !s.flag (Reg.tempSensorBroken k) &&
    (self || k != t)).map s.sensorReading

/-- A named sensor's reading in 1/16 °C, if it has one: a broken sensor's is the median of the unbroken sensors of its
group, or else the one it gave before it broke (R466). -/
def State.sensorNow (s : State) (t : Nat) : Option Int :=
  if !s.flag (Reg.tempSensorValid t) then none
  else if s.flag (Reg.tempSensorBroken t) then
    let l := s.groupReadings t true
    some (if l.isEmpty then s.sensorReading t else median2 l / 2)
  else some (s.sensorReading t)

/-- The reading of a synthesizer's sensor in 1/16 °C, if there is one. -/
def State.synReading (s : State) (x : Nat) : Option Int := s.sensorNow (synSensor x)

/-- The reading of a synthesizer's sensor in whole °C, as a stamp holds it. -/
def State.synTemp (s : State) (x : Nat) : Option Int := (s.synReading x).map (· / 16)

/-- TEMP_WINDOW, clamped to 5 to 40 °C. -/
def State.tempWindow (s : State) : Int := clampInt 5 40 (s.getF Reg.synthCtrlTempWindow)

/-- The slot that holds a channel. -/
def State.synSlot (s : State) (x freq : Nat) : Option Nat :=
  (List.range 256).find? fun i => s.flag (Reg.synStore0Valid x i) && s.getF (Reg.synStore0FreqKhz x i) == freq

/-- The slot of the present channel. -/
def State.synPresent (s : State) (x : Nat) : Option Nat := s.synSlot x (s.getF (Reg.synFreqFreqKhz x))

/-- The sensor lies within TEMP_WINDOW of a slot's stamp. -/
def State.stampNear (s : State) (x i : Nat) : Bool :=
  match s.synReading x with
  | none => false
  | some t =>
    let d := t - 16 * toSigned 8 (s.getF (Reg.synStore1Stamp x i))
    decide (d ≤ 16 * s.tempWindow) && decide (-(16 * s.tempWindow) ≤ d)

/-- The rule that an edge follows on a channel (R179); a relock skips the hop rule (R184). -/
def State.synRule (s : State) (x freq : Nat) (relock : Bool) : SynWork :=
  match s.synSlot x freq with
  | none => .full
  | some i => if !relock && !(s.synth x).drift.contains i && s.stampNear x i then .hop else .fallback

/-- The branch number of SYN_HOP's result (R208). -/
def SynWork.branch : SynWork → Nat
  | .hop => 0
  | .fallback => 1
  | .full => 2

/-- Receive samples of the half are invalid from here until lock plus 96 (R130, R180). -/
def State.retuneOpen (s : State) (x : Nat) : State :=
  if x % 2 = 0 then s
  else
    let h := x / 2
    (s.addSpan (32 * h) (32 * h + 31) none .retune s.pathSample none).eachPathOf h
      fun s p => s.setF (Reg.rxStatusRetune p) 1

/-- Lock plus 96 samples ends the mark of a retune. -/
def State.retuneClose (s : State) (x : Nat) : State :=
  if x % 2 = 0 then s else s.closeSpans (x / 2) .retune (s.pathSample + 96)

/-- A calibration uses a synthesizer (R429, R434): IDs 5 to 7 the receive LO, the others the transmit LO, to which the
observation receivers are tied. -/
def usesLo (id x : Nat) : Bool := (decide (5 ≤ id) && decide (id ≤ 7)) == (x % 2 == 1)

/-- A path is under test: the lowest of its quarter that PATH_TEST has yet to test (R440, R441). -/
def State.underTest (s : State) (p : Nat) : Bool :=
  match s.job with
  | some (.pathTest left _ _ _) => testBit left p && (List.range (p % 16)).all fun i => !testBit left (p / 16 * 16 + i)
  | _ => false

/-- A path in CAL whose turn it is: the lowest in CAL of its quarter (R431). -/
def State.prepTurn (s : State) (p : Nat) : Bool :=
  s.path p == pathCal && (List.range (p % 16)).all fun i => s.path (p / 16 * 16 + i) != pathCal

/-- A run of a path's preparation, test or TX_COUPLER is in progress on a synthesizer of its half. -/
def State.runsOn (s : State) (x p : Nat) : Bool :=
  s.prepTurn p || s.underTest p ||
    (x % 2 == 0 && s.tx.starts.any fun y => y.cls == 5 && y.path == p && y.source == 0 && y.start.isSome)

/-- A LOCKED synthesizer is retuned, hopped or loses lock: the runs in progress that use it are discarded and run again
(R434). -/
def State.loMoves (s : State) (x : Nat) : State :=
  let again (l : List (Nat × Nat)) (k : Nat) : List (Nat × Nat) := mapSet 0 k (mapGet 0 k l + 1) l
  let paths := ((List.range 32).map (· + 32 * (x / 2))).filter (s.runsOn x)
  let keys := paths.map fun p => 2 * p + x % 2
  let run : Bool := match s.job with
    | some (.calRun id mask) => usesLo id x && (id == 0 || (maskList 64 mask).any fun p => halfOf p == x / 2)
    | _ => false
  { s with cal := { s.cal with repeats := (keys ++ if run then [128] else []).foldl again s.cal.repeats } }

/-- Edge E of a hop or lock on a channel (R179), which begins an unlocked period unless one runs. The first lock after the
half's power-up shows LOCKING (R175). -/
def State.synStart (s : State) (x freq : Nat) (relock first : Bool) : State :=
  let w := s.synRule x freq relock
  let s := if s.synState x = synLocked then s.loMoves x else s
  let fresh := s.synState x == synLocked || s.synState x == synOff
  let s := s.setSynth x fun y => { y with work := some w, relock := relock, dropRaised := y.dropRaised && !fresh }
  let s := s.setF (Reg.synFreqFreqKhz x) freq
  let s := s.setF (Reg.synStatusState x) (if first then synLocking else if w = .hop then synHopping else synCal)
  s.retuneOpen x

/-- The channel of the first lock: the one the last SYN_HOP named, or BAND_LO (R175). -/
def State.synFirstChannel (s : State) (x : Nat) : Nat :=
  ((s.synth x).named).getD (s.getF (Reg.synBandBandLo x) * 1000)

/-- A slot was used last. -/
def State.synUse (s : State) (x i : Nat) : State :=
  s.setSynth x fun y => { y with order := (y.order.filter fun j => j != i) ++ [i] }

/-- Restamp a slot with the sensor's reading. -/
def State.synStamp (s : State) (x i : Nat) : State :=
  match s.synTemp x with
  | some t => s.setF (Reg.synStore1Stamp x i) (ofSigned 8 t)
  | none => s

/-- A channel is a synthesizer's present one: the one in FREQ, or the one to which a SYN_CAL returns (R177, R209). -/
def State.isPresent (s : State) (x freq : Nat) : Bool :=
  freq == s.getF (Reg.synFreqFreqKhz x) || match (s.synth x).cal with
    | some (_, _, back) => freq == back
    | none => false

/-- The place of a new calibration (R178): a free slot, or the least recently used that is neither pinned nor present. -/
def State.synPlace (s : State) (x : Nat) : Option Nat :=
  match (List.range 256).find? fun i => !s.flag (Reg.synStore0Valid x i) with
  | some i => some i
  | none => (s.synth x).order.find? fun i =>
      !s.flag (Reg.synStore0Pinned x i) && !s.isPresent x (s.getF (Reg.synStore0FreqKhz x i))

/-- Write a calibration into a slot; the VCO band and capacitor code that it found are free. -/
def State.synWrite (s : State) (x i freq : Nat) : State :=
  let v := s.draw
  let s := v.2.setSynth x fun y => { y with
    codes := mapSet 0 i v.1 y.codes, drift := y.drift.filter fun j => j != i }
  (((s.setF (Reg.synStore0FreqKhz x i) freq).setF (Reg.synStore0Valid x i) 1).synStamp x i).synUse x i

/-- Store a new calibration (R178): in the slot that holds the channel already, else in a place found for it. The slot
used, if any. -/
def State.synStoreNew (s : State) (x freq : Nat) : State × Option Nat :=
  match s.synSlot x freq with
  | some i => (s.synWrite x i freq, some i)
  | none =>
    match s.synPlace x with
    | some i => ((s.synWrite x i freq).setF (Reg.synStore0Pinned x i) 0, some i)
    | none => (s.setF (Reg.synStatusStoreFull x) 1, none)

/-- Show the present channel's slot and whether it drifts. -/
def State.synShow (s : State) (x : Nat) : State :=
  match s.synPresent x with
  | some i => (s.setF (Reg.synStatusSlot x) i).setFlag (Reg.synStatusDrift x) ((s.synth x).drift.contains i)
  | none => s.setF (Reg.synStatusDrift x) 0

/-- Work that ends in lock: the store is brought up to date and counted (R178, R179). -/
def State.synFinish (s : State) (x : Nat) : State :=
  let freq := s.getF (Reg.synFreqFreqKhz x)
  match (s.synth x).work, s.synSlot x freq with
  | some .hop, some i => (s.addWrap (Reg.synCountsHops x) 1).synUse x i
  | some .hop, none => s.addWrap (Reg.synCountsHops x) 1
  | some .fallback, some i => (s.synWrite x i freq).addSat (Reg.synCountsFallbacks x) 1
  | some .fallback, none => s.addSat (Reg.synCountsFallbacks x) 1
  | some .full, _ => (s.synStoreNew x freq).1
  | none, _ => s

/-- A half that locked or woke resumes at the next timing-carrier symbol start at which nothing holds it (R97, R186). -/
def State.resumeHalf (s : State) (h : Nat) : State :=
  { s with tx := { s.tx with resuming := insertOnce h s.tx.resuming } }

/-- LOCKED (R179, R180): EV_33, and the mark of the retune ends. -/
def State.synLock (s : State) (x : Nat) : State :=
  let s := (s.synFinish x).setSynth x fun y => { y with work := none, relock := false }
  let s := if x % 2 = 0 then s.resumeHalf (x / 2) else s
  let s := (s.setF (Reg.synStatusState x) synLocked).setF (Reg.synStatusFailed x) 0
  ((s.synShow x).retuneClose x).raise 33

/-- Discarded downlink symbols of a half in an unlocked period (R187): once per carrier and symbol, EV_36 at the first.
In a wake they count in WAKE_LATE_DROP only (R99). -/
def State.dropSymbol (s : State) (x : Nat) : State :=
  let s := s.addSat (Reg.synTxDropDropped x) 1
  if (s.synth x).dropRaised then s
  else (s.setSynth x fun y => { y with dropRaised := true }).raise 36

/-- A transmit synthesizer has left LOCKED: the due symbols in progress of its half are discarded (R186). -/
def State.dropInProgress (s : State) (x : Nat) : State :=
  if x % 2 = 1 then s
  else
    let due := s.tx.dueNow.filter fun k => k / 4 == x / 2
    ({ s with tx := { s.tx with dueNow := s.tx.dueNow.filter fun k => k / 4 != x / 2 } } : State).each due
      fun s _ => s.dropSymbol x

/-- A half's synthesizers go OFF as its analog half is lowered (R176); a hop that has not taken effect lapses. -/
def State.synDown (s : State) (x : Nat) : State :=
  let s := s.setSynth x fun y => { y with pending := none, work := none, relock := false, cal := none }
  s.setF (Reg.synStatusState x) synOff

/-- Restamp or mark the present entry of a LOCKED synthesizer at a fret boundary (R177); `far` says that its tuning
voltage lies outside the central 60 %. -/
def State.synFret (s : State) (x : Nat) (far : Bool) : State :=
  if s.synState x != synLocked then s
  else match s.synPresent x with
    | none => s
    | some i =>
      if (s.synth x).drift.contains i then s
      else if far then
        (s.setSynth x fun y => { y with drift := insertOnce i y.drift }).setF (Reg.synStatusDrift x) 1
      else s.synStamp x i

end Sys2Proof.Machine
end

