-- ==== Sys2Proof/Machine/Power.lean ====
section
/-! DEFINITION. Changes of the device state: analog halves, the failure capsule, entry into FAULT and the withdrawal of
loads (chapters 01 to 03). -/

namespace Sys2Proof.Machine

/-! ## Analog halves (R22, R73, R176) -/

/-- Switch an analog half. A half whose DFE domain is Off, or which is absent, stays Off (R22). -/
def State.switchAnalog (s : State) (h : Nat) (on : Bool) : State :=
  let b := on && !s.absent (analogOf h) && !s.absent (dfeOf h)
  if h = 0 then { s with analogWest := b } else { s with analogEast := b }

/-- The passes that a half's paths run are abandoned, with the observation time that they hold (R434): of CAL_RUN and
PATH_TEST the paths of the other half go on, and PLUMB_REF, which needs every receiver, does not. -/
def State.passesLost (s : State) (h : Nat) : State :=
  let other (p : Nat) : Bool := halfOf p != h
  let rest (m : Nat) : Nat := listMask ((maskList 64 m).filter other)
  let s := { s with
    tx := { s.tx with
      granted := s.tx.granted.filter fun r => other r.path
      starts := s.tx.starts.filter fun x => other x.path }
    cal := { s.cal with
      coupler := s.cal.coupler.filter fun x => other x.1
      repeats := s.cal.repeats.filter fun x => other (x.1 / 2) } }
  match s.job with
  | some (.calRun id mask) => { s with job := some (if id = 0 then .calRun 1 0 else .calRun id (rest mask)) }
  | some (.pathTest left passed failed bad) => { s with job := some (.pathTest (rest left) passed failed bad) }
  | _ => s

/-- Lower an analog half: its synthesizers go OFF (R176), its paths' samples are invalid from here (R130), and passes of
calibrations and tests are abandoned (R434). -/
def State.lowerAnalog (s : State) (h : Nat) : State :=
  if !s.analogOn h then s
  else
    let s := s.switchAnalog h false
    let s := s.each [2 * h, 2 * h + 1] State.synDown
    (s.passesLost h).addSpan (32 * h) (32 * h + 31) none .retune s.pathSample none

/-! ## The failure capsule (R66, R67) -/

/-- The registers of the capsule's snapshot: SPINE, TIME, BUDGET, MEMINT and BRIDGE state and error registers. -/
def snapshotRegs : List Nat :=
  [0x4, 0x10, 0x14, 0x44, 0x48, 0x4C, 0x200, 0x204, 0x400, 0x404, 0x408, 0x40C, 0x410, 0x414, 0x418, 0x41C, 0x420,
   0x180000, 0x180004, 0x180008, 0x18000C, 0x180010, 0x180014, 0x180020, 0x180024,
   0x180208, 0x18020C, 0x180210, 0x180214, 0x18030C, 0x180320, 0x180340, 0x180344, 0x180348, 0x18034C,
   0x200800, 0x200804, 0x200808, 0x200900, 0x200904, 0x200908,
   0x1500000, 0x1500004, 0x1500008, 0x150000C, 0x1500010, 0x1500014, 0x1500018, 0x150001C] ++
  ((List.range 6).flatMap fun m => (List.range 6).map fun w => 0x1800100 + 32 * m + 4 * w) ++
  [0x1800000, 0x1800400, 0x1800404, 0x1800408, 0x180040C] ++
  ((List.range 8).map fun n => 0x1500040 + 4 * n) ++ ((List.range 6).map fun n => 0x180380 + 4 * n) ++
  ((List.range 16).flatMap fun c => (List.range 5).map fun r => 0x200400 + 32 * c + 4 * r)

/-- RESULT, MINMAX, ACC_LO and ACC_HI of a housekeeping slot: slot 16 x + s. -/
def hkResultAddr (i w : Nat) : Nat := 0x1600104 + i / 16 * 0x200 + i % 16 * 0x20 + 4 * w

/-- Pad or cut a byte string to a length. -/
def fit (n : Nat) (l : List Byte) : List Byte := slice 0 n l

/-- The last `n` records of the journal by SEQ, as long as their places still hold them: acknowledged ones too (R66). -/
def State.lastRecords (s : State) (n : Nat) : List Nat :=
  ((List.range n).map fun i => s.journal.next - n + i).filter fun q =>
    let d := s.rawBytes .spine (journalAddr q) 5
    decide (q < s.journal.next) && leAt 0 4 d == q % 2 ^ 32 && leAt 4 1 d != 0

/-- The 16 KiB of a capsule (R66); `role` is BRIDGE.ROLE before the fault. Which fields the header, the event records, the
halt records and the monitor part hold, R66 says; their order and widths, and the address and value pairs of the snapshot,
are a DESIGN CHOICE (log 10). A record that reads as damaged is left out, and the later ones move up. -/
def State.capsuleImage (s : State) (event role : Nat) : State × List Byte :=
  let head := fit 64 (leBytes 1 1 ++ leBytes 1 s.prev.code ++ leBytes 1 role ++ leBytes 1 0 ++
    leBytes 4 event ++ leBytes 6 (s.nowNs / 1000000000) ++ leBytes 2 0 ++ leBytes 4 (s.nowNs % 1000000000) ++
    leBytes 4 (s.journal.next - 1) ++ leBytes 4 0)
  let evs := fit 1024 (s.events.log.flatMap fun e =>
    leBytes 4 e.1 ++ leBytes 6 (e.2 / 1000000000) ++ leBytes 2 0 ++ leBytes 4 (e.2 % 1000000000))
  let recs := (s.lastRecords 16).foldl (fun (p : State × List Byte) q =>
    let r := p.1.readBytes .spine .spine (journalAddr q) 128
    (r.1, if r.2.2 then p.2 ++ r.2.1 else p.2)) (s, [])
  let s := recs.1
  let snap := fit 8192 (snapshotRegs.flatMap fun a => leBytes 4 a ++ leBytes 4 (s.regValue a))
  let halts := fit 4096 ((List.range 24).flatMap fun c =>
    leBytes 4 (s.regValue (0x1000004 + 65536 * c)) ++ leBytes 4 (s.regValue (0x1000008 + 65536 * c)) ++
      leBytes 4 (s.regValue (0x100000C + 65536 * c)) ++ leBytes 4 (s.regValue (0x100001C + 65536 * c)))
  let mon := fit 960 (((List.range 16).flatMap fun t => leBytes 4 (s.regValue (0x1600600 + 4 * t))) ++
    leBytes 4 (s.regValue 0x1600704) ++ leBytes 4 (s.regValue 0x1600708) ++ leBytes 4 (s.regValue 0x1600810) ++
    (List.range 32).flatMap fun i => (List.range 4).flatMap fun w => leBytes 4 (s.regValue (hkResultAddr i w)))
  (s, head ++ evs ++ fit 2048 recs.2 ++ snap ++ halts ++ mon)

/-- Fill the capsule on entry into FAULT, or count a later fault (R66). -/
def State.fillCapsule (s : State) (event role : Nat) : State :=
  if s.journal.capsuleValid then
    let n := s.journal.laterFaults + 1
    ({ s with journal := { s.journal with laterFaults := n } }).writeBytes .spine .spine (capsuleAddr + 24) (leBytes 4 n)
  else
    let r := s.capsuleImage event role
    let s := r.1.writeBytes .spine .spine capsuleAddr r.2
    { s with journal := { s.journal with capsuleValid := true, laterFaults := 0 } }

/-! ## Changes of SPINE.STATE -/

/-- The DETAIL of a LATH_REJECTED record: REASON and record index, 0xFF where none is named (R52, R61). -/
def rejectDetail (reason rec : Nat) : Nat := reason % 256 + 256 * (if 255 < rec then 255 else rec)

/-- Stop a running load, or withdraw an accepted one, when the state leaves those its mode allows (R549). `d` is the
new state. -/
def State.withdrawLoads (s : State) (d : DevState) : State :=
  let stays : Bool := d == .lathed || d == .service || d == .doze
  let stop (s : State) (serial : Nat) : State :=
    let s := s.note ⟨.lathRejected, 0, 4, rejectDetail 0 255, serial, 0⟩
    (((s.results [d.code]).complete .stateReject).raise 1).raise 3
  let keeps (mode : Nat) : Bool :=
    if mode = 0 then d == .bare || d == .unlathed else if mode = 1 then d == .lathed else stays
  let s := match s.job with
    | some (.lathStream offset _ mode _ received _) =>
      if keeps mode then s else stop s (if 28 ≤ received then leAt 20 8 (s.rawBytes .capture offset 28) else 0)
    | some (.lathWait offset _ mode _) => if keeps mode then s else stop s (leAt 20 8 (s.rawBytes .capture offset 28))
    | some (.lathChecked l) => if keeps l.mode then s else stop s l.serial
    | some (.lathAgree l) => if keeps l.mode then s else stop s l.serial
    | _ => s
  match s.lath.pending with
  | none => s
  | some l =>
    if stays then s
    else
      let s := { s with lath := { s.lath with pending := none, twinPending := none } }
      (s.note ⟨.relathCancelled, 3, 4, 0, l.serial, 0⟩).raise 3

/-- The values that move in eight steps take their new values whole (R436): row 2 is SEAM.PHASE, rows 0 and 1 the
calibration rows of stencil memory. -/
def State.stepWhole (s : State) : State :=
  let l := s.spectral.calSteps
  ({ s with spectral := { s.spectral with calSteps := [] } } : State).each l fun s x =>
    if x.row = 2 then s.setF Reg.seamPhase x.new
    else s.writePart .stencil .spectral (256 * (4608 + x.row) + 4 * x.path) (leBytes 4 x.new)

/-- A state in which service runs. -/
def DevState.serves (d : DevState) : Bool := d == .service || d == .doze

/-- Change SPINE.STATE: EV_0 but between SERVICE and DOZE (R75), with the loads that the new state ends (R549); where
service ends, the values under way take their end in the same cycle (R436). -/
def State.toDev (s : State) (d : DevState) : State :=
  if s.dev = d then s
  else
    let quiet : Bool := (s.dev == .service && d == .doze) || (s.dev == .doze && d == .service)
    let s := if s.dev.serves && !d.serves then s.stepWhole else s
    let s := { s with prev := s.dev, dev := d }
    let s := if quiet then s else { s.raise 0 with fh := { s.fh with statusDue := true } }
    s.withdrawLoads d

/-- Stop a Doze: the controller is at rest but for a HOLD_OFF, which lasts until its bar or its cancellation (R111). -/
def State.dozeRest (s : State) : State := { s with doze := { DozeState.rest with holdOff := s.doze.holdOff } }

/-- Send a NOTICE and leave the pair: heartbeats stop and EPOCH rises (R361). Reason 1 FAULT, 2 Deep Hold, 3 warm
reset. -/
def State.sendNotice (s : State) (reason : Nat) : State :=
  if !s.inPair then s
  else
    let s := s.addWrap Reg.linkEpoch 1
    let s := s.bridgeSend 3 (beBytes 8 reason)
    let s := { s with
      bridge := { s.bridge with paired := false, checkSuspended := false }
      sched := { s.sched with staleFrom := some 0 }
      fh := { s.fh with statusDue := true } }
    (((((s.setF Reg.seamOk 0).setF Reg.bridgeStatusTrained 0).setF Reg.bridgeStatusSynced 0).setF Reg.bridgeStatusDecidedBy 0).setF
      Reg.bridgeRole roleSolo).raise 85

/-- Enter FAULT (R76): the paths go IDLE and are muted, drains go low, both analog halves are lowered, a NOTICE is
sent, a FAULT record is written and the capsule is filled. MAKER has no transition to FAULT. -/
def State.enterFault (s : State) (event : Nat) : State :=
  if s.dev = .fault || s.dev = .maker then s
  else
    let role := s.getF Reg.bridgeRole
    let s := s.toDev .fault
    let s := (s.lowerAnalog 0).lowerAnalog 1
    let s := s.each (List.range 64) fun s p =>
      (s.setF (Reg.pathStateState p) 0).setF (Reg.pathStateFenceReason p) 0
    let s := s.each (List.range 4) fun s x => s.setSynth x fun y => { y with fencing := false }
    let s := ((s.setF Reg.dozeStatusWestIdle 0).setF Reg.dozeStatusEastIdle 0).setF Reg.dozeStatusWaking 0
    let s := s.setF Reg.dozeStatusLightPending 0
    let s := { s with
      doze := .rest
      bridge := { s.bridge with passedStart := none, autoStart := none } }
    let s := s.sendNotice 1
    let s := s.note ⟨.fault, 0, 4, event, 0, 0⟩
    s.fillCapsule event role

/-- Raise an analog half in a wake: its synthesizers start a hop on their present channel (R96, R176). -/
def State.wakeHalf (s : State) (h : Nat) : State :=
  let s := s.switchAnalog h true
  if !s.analogOn h then s
  else s.each [2 * h, 2 * h + 1] fun s x => s.synStart x (s.getF (Reg.synFreqFreqKhz x)) false false

/-- Begin the wake from Doze (R94, R96 step 1): the idled analog halves are raised. -/
def State.startWake (s : State) : State :=
  if s.dev != .doze || s.flag Reg.dozeStatusWaking then s
  else
    let s := s.setF Reg.dozeStatusWaking 1
    s.each [0, 1] fun s h =>
      if s.flag (if h = 0 then Reg.dozeStatusWestIdle else Reg.dozeStatusEastIdle) then s.wakeHalf h else s

/-- The effective lead L in ns (R92). -/
def State.leadNs (s : State) : Nat := 1000 * max 40 (max (s.getF Reg.dozeLeadWakeLead) (s.getF Reg.dozeFloorMinLead))

/-- The wake from Doze begins: the idled halves are raised, and the wake's tick is kept (R94, R96). -/
def State.beginWake (s : State) : State :=
  if s.dev != .doze || s.flag Reg.dozeStatusWaking then s
  else
    let s := s.startWake
    { s with doze := { s.doze with wakeTick := s.drone.ticks, late := false } }

/-- A need at an instant in ns while the device dozes: an earlier one moves the wake, and begins it if its time has
passed (R94, R95). -/
def State.needAt (s : State) (ns : Nat) : State :=
  if s.dev != .doze then s
  else if (match s.doze.need with | some n => decide (n ≤ ns) | none => false) then s
  else
    let at_ := ns - s.leadNs
    let s := { s with doze := { s.doze with need := some ns, wakeAt := some at_ } }
    if at_ ≤ s.nowNs then s.beginWake else s

/-- A command's read of spine memory that meets damage enters FAULT, but for the journal, the twin ring and the
divergence log (R76, R483): the bytes, and whether they are good. -/
def State.readSpine (s : State) (a n : Nat) : State × List Byte × Bool :=
  let r := s.readBytes .spine .spine a n
  if r.2.2 then r else (r.1.enterFault 97, r.2.1, false)

end Sys2Proof.Machine
end

