-- ==== Sys2Proof/Machine/Carriers.lean ====
section
/-! DEFINITION. The numbers of a carrier: its rate, its occupied span and its position (R114 to R116, R128, R141, R142,
R211), with the checks that the loader and host writes make of them. -/

namespace Sys2Proof.Machine

/-- A reading of register fields: the values in force, or the shadow copies, or those of a state still to come. -/
abbrev FieldView := Fld → Nat

/-- The subcarrier spacing in Hz that a CONFIG.SCS code names. -/
def scsHz : Nat → Nat
  | 0 => 3750
  | 1 => 15000
  | 2 => 30000
  | _ => 60000

/-- The ENABLE field of carrier `c` in the DFE: direction 0 receives, 1 transmits. -/
def dfeEnable (d c : Nat) : Fld := if d = 0 then Reg.rxcCtrlEnable c else Reg.txcCtrlEnable c

/-- The LOG2_D field of carrier `c` in the DFE. -/
def dfeLog2D (d c : Nat) : Fld := if d = 0 then Reg.rxcCtrlLog2D c else Reg.txcCtrlLog2D c

/-- The OFFSET field of carrier `c` in the DFE. -/
def dfeOffset (d c : Nat) : Fld := if d = 0 then Reg.rxcOffsetFtw c else Reg.txcOffsetFtw c

/-- The IF field of half `h`. -/
def dfeIf (d h : Nat) : Fld := if d = 0 then Reg.rxIfFtw h else Reg.txIfFtw h

/-- The carrier rate of the SPECTRAL block equals 61.44 MS/s / D of the DFE (R128, R142, R211). -/
def rateMatches (v : FieldView) (d c : Nat) : Bool :=
  2 ^ v (Reg.carConfigFftLog2 d c) * scsHz (v (Reg.carConfigScs d c)) * 2 ^ v (dfeLog2D d c) == 61440000

/-- FFT_LOG2 in 7 to 12, P in 1 to 272 and 12 P at most 0.85 N (R211). -/
def sizeOk (v : FieldView) (d c : Nat) : Bool :=
  let n := v (Reg.carConfigFftLog2 d c)
  let p := v (Reg.carConfigPrbCount d c)
  decide (7 ≤ n) && decide (n ≤ 12) && decide (1 ≤ p) && decide (p ≤ 272) && decide (1200 * p ≤ 85 * 2 ^ n)

/-- UL_WIN_ADV is at most 9 N / 256 (R215). -/
def winAdvOk (v : FieldView) (c : Nat) : Bool :=
  decide (256 * v (Reg.carXformWinAdv 0 c) ≤ 9 * 2 ^ v (Reg.carConfigFftLog2 0 c))

/-- The occupied span of carrier `c` in the low-IF spectrum of half `h` lies within −26 MHz to +26 MHz and keeps 200 kHz
from 0 Hz (R116). Frequencies stand in units of 2^-32 Hz. -/
def spanOk (v : FieldView) (d h c : Nat) : Bool :=
  let pos : Int := (toSigned 32 (v (dfeIf d h)) + toSigned 32 (v (dfeOffset d c))) * 61440000
  let half : Int := ((6 * v (Reg.carConfigPrbCount d c) * scsHz (v (Reg.carConfigScs d c)) * 2 ^ 32 : Nat) : Int)
  let mhz26 : Int := 26000000 * 2 ^ 32
  let khz200 : Int := 200000 * 2 ^ 32
  decide (-mhz26 ≤ pos - half) && decide (pos + half ≤ mhz26) &&
    (decide (khz200 ≤ pos - half) || decide (pos + half ≤ -khz200))

/-- A carrier is enabled in either block. -/
def carrierEnabled (v : FieldView) (d c : Nat) : Bool :=
  v (dfeEnable d c) == 1 || v (Reg.carConfigEnable d c) == 1

/-- R116 for every enabled carrier of a direction in both halves (R141 for transmit). -/
def spansOk (v : FieldView) : Bool :=
  (List.range 2).all fun d => (List.range 4).all fun c =>
    !carrierEnabled v d c || (List.range 2).all fun h => spanOk v d h c

/-- What the loader checks of a CARRIERS section (R116, R128, R141, R142, R211, R215). -/
def carriersOk (v : FieldView) : Bool :=
  spansOk v && (List.range 2).all fun d => (List.range 4).all fun c =>
    !carrierEnabled v d c || (rateMatches v d c && sizeOk v d c && (d == 1 || winAdvOk v c))

/-- The centre tap of every CFR pulse set is 1.0 within 2^-14: in signed 1.15, RE at least 0x7FFE and IM within 2
(R147). -/
def pulsesOk (v : FieldView) : Bool :=
  (List.range 2).all fun h => (List.range 2).all fun t =>
    decide (32766 ≤ toSigned 16 (v (Reg.cfrPulseMRe h t))) &&
      decide (-2 ≤ toSigned 16 (v (Reg.cfrPulseMIm h t))) &&
      decide (toSigned 16 (v (Reg.cfrPulseMIm h t)) ≤ 2)

/-- The grains that a resource offers each fret (R9); for resource 2, per receiver (R411). -/
def offeredGrains : Nat → Nat
  | 0 => 480
  | 1 => 23040
  | 2 => 250
  | _ => 480

/-- The FLOORs of all sixteen classes sum to no more than each resource offers (R411). -/
def floorsOk (v : FieldView) : Bool :=
  (List.range 5).all fun r =>
    decide (((List.range 16).map fun c => v (Reg.budgetClassFloor c r)).sum ≤ offeredGrains r)

end Sys2Proof.Machine
end

