-- ==== Sys2Proof/Machine/Command.lean ====
section
/-! DEFINITION. The command register (R77 to R80, R527 to R530): the checks that every command passes, in their
order. -/

namespace Sys2Proof.Machine

/-- What the spec's command tables give a command: its opcode, the states and roles it runs in, its argument check,
the budget classes it is charged to, whether its work uses a path (R113), and what it does once accepted. -/
structure CmdSpec where
  opcode : Nat
  states : DevState → Bool
  role : DevState → Option Role → Bool
  argOk : State → Bool
  classes : List Nat
  usesPath : Bool
  run : Port → State → State

/-- No session role is needed. -/
def roleNone : DevState → Option Role → Bool := fun _ _ => true

/-- Role operator. -/
def roleO : DevState → Option Role → Bool := fun _ r => r == some .operator

/-- Role installer. -/
def roleI : DevState → Option Role → Bool := fun _ r => r == some .installer

/-- Role installer or operator. -/
def roleIO : DevState → Option Role → Bool := fun _ r => r == some .installer || r == some .operator

/-- None in BARE, UNLATHED and FAULT; otherwise installer or operator (R60). -/
def roleKeylessIO : DevState → Option Role → Bool := fun d r => d.keyless || roleIO d r

/-- None in BARE, UNLATHED and FAULT; otherwise any role (R60). -/
def roleKeylessAny : DevState → Option Role → Bool := fun d r => d.keyless || r.isSome

/-- All states but LIGHT_HOLD. -/
def notLightHold : DevState → Bool := fun d => d != .lightHold

/-- LATHED, SERVICE or DOZE. -/
def lathedUp : DevState → Bool := fun d => d == .lathed || d == .service || d == .doze

/-- A command rejected by its state: the present state code in word 0, and EV_1 (R78). -/
def State.rejectState (s : State) : State := ((s.results [s.dev.code]).complete .stateReject).raise 1

/-- Steps 3 to 6 of R77, in their order, and then the command's work; a command that uses a path waits in DOZE for the
wake (R113). -/
def CmdSpec.check (c : CmdSpec) (p : Port) (s : State) : State :=
  if !c.states s.dev then s.rejectState
  else if !c.role s.dev (s.session p).role then s.complete .roleReject
  else if !c.argOk s then s.complete .argReject
  else if c.classes.any s.deferred then s.complete .budgetDefer
  else if c.usesPath && s.dev == .doze then ({ s with job := some (.waitWake c.opcode) }).beginWake
  else c.run p s

/-- The port that a claim names, none if the command register is free (R528). -/
def State.claimOwner (s : State) : Option Port :=
  match s.getF Reg.cmdClaimOwner with
  | 1 => some .pcie
  | 2 => some .qspi
  | _ => none

/-- The other port holds the command register (R528). -/
def State.claimedFrom (s : State) (p : Port) : Bool :=
  match s.claimOwner with
  | some q => q != p
  | none => false

/-- A bounced command: the writing port's count rises and nothing else changes (R529). -/
def State.bounce (s : State) (p : Port) : State :=
  match p with
  | .pcie => s.addSat Reg.cmdBouncePcie 1
  | .qspi => s.addSat Reg.cmdBounceQspi 1

/-- Start a command: RUNNING, CODE = BUSY, PORT and OPCODE are set in the cycle of decode (R529). -/
def State.begin (s : State) (p : Port) (opcode : Nat) : State :=
  (((s.setF Reg.cmdStatusRunning 1).setF Reg.cmdStatusCode 1).setF Reg.cmdStatusPort (portCode p)).setF
    Reg.cmdStatusOpcode opcode

/-! ## What a port's accesses meet (R513, R517, R523, R524, R526) -/

/-- An access is a read. -/
def HostAcc.isRead : HostAcc → Bool
  | .regRead _ => true
  | .winRead _ => true
  | .void => true
  | _ => false

/-- An access is a write. -/
def HostAcc.isWrite : HostAcc → Bool
  | .regWrite _ _ _ => true
  | .winWrite _ _ => true
  | _ => false

/-- The reads of a port that wait are abandoned, with no effect. -/
def State.dropReads (s : State) (p : Port) : State :=
  { s with hostQueue := s.hostQueue.filter fun q => q.port != p || !q.acc.isRead }

/-- A quad-SPI frame begins: reads that wait in the one before are abandoned, and every frame but RESET_ENABLE cancels
the enable. -/
def State.frame (s : State) : State :=
  let t := s.dropReads .qspi
  { t with drone := { t.drone with resetEnabled := false } }

/-- A port's access comes: over quad-SPI it is a frame. -/
def State.framed (s : State) : Port → State
  | .pcie => s
  | .qspi => s.frame

/-- The places of the quad-SPI write queue that are taken (R524). -/
def State.writesQueued (s : State) : Nat := (s.hostQueue.filter fun q => q.port == .qspi && q.acc.isWrite).length

/-- A word that finds no place, or no running spine, is dropped and counted (R524). -/
def State.dropWrite (s : State) : State :=
  { s with drone := { s.drone with writesDropped := min 65535 (s.drone.writesDropped + 1) } }

/-- An access of a port waits. -/
def State.portWaits (s : State) (p : Port) : Bool := s.hostQueue.any fun q => q.port == p

/-- A write of an opcode to SPINE.CMD waits behind the port's accesses that wait (R517, R520). -/
def State.queueOpcode (s : State) (p : Port) (opcode : Nat) : State :=
  if p = .qspi ∧ 64 ≤ s.writesQueued then s.dropWrite
  else { s with hostQueue := s.hostQueue ++ [⟨p, .regWrite 0x40 opcode 0xFFFFFFFF⟩] }

/-- A write of an opcode to SPINE.CMD from a port, up to the checks: refused while the other port holds the claim,
bounced while a command runs (R528, R529). -/
def State.issue (s : State) (p : Port) (opcode : Nat) (go : State → State) : State :=
  if !s.spineRuns then if p = .qspi then s.dropWrite else s
  else if s.portWaits p then s.queueOpcode p opcode
  else if s.claimedFrom p then s.logAccess p 0x40 true .claimed
  else if s.flag Reg.cmdStatusRunning then s.bounce p
  else go (s.begin p opcode)

/-- A host port issues a command. -/
def CmdSpec.issue (c : CmdSpec) (p : Port) (s : State) : State := s.issue p c.opcode (c.check p)

/-! ## Arguments that name capture memory or a bar -/

/-- The size of capture memory in bytes (R476). -/
def captureBytes : Nat := 4194304

/-- A capture-memory byte offset: a multiple of 4 with `n` bytes inside the memory (R60). -/
def offsetOk (off n : Nat) : Bool := off % 4 == 0 && decide (off + n ≤ captureBytes)

/-- Bytes as 32-bit result words, least significant byte first. -/
def wordsOf (l : List Byte) : List Nat := (List.range (l.length / 4)).map fun i => leAt (4 * i) 4 l

/-- DEVICE_UID as two result words (R28). -/
def uidWords : List Nat := wordsOf (leBytes 8 Config.deviceUid.toNat)

/-- The reason of a command whose source in capture memory reads as damaged (R483). -/
def reasonMemPoison : Nat := 25

/-- Read a command's source from capture memory. -/
def State.readCapture (s : State) (off n : Nat) : State × List Byte × Bool := s.readBytes .capture .spine off n

/-- The instant of a TARGET_BAR or START_BAR boundary in ns, from the present bar (R55, R245). -/
def State.barBoundary (s : State) (bar : Nat) : Nat :=
  ((barOfNs s.nowNs : Int) + barDiff bar s.bar).toNat * 10000000

/-- The present instant lies at most one fret before a boundary, or past it (R56). -/
def State.withinFret (s : State) (ns : Nat) : Bool := decide (ns < s.nowNs + 250000)

/-- Copy 128 or 64 bytes of spine memory to capture memory; damaged source leaves the destination words poisoned
(R483, R484). -/
def State.copyOut (s : State) (src n dst : Nat) : State :=
  let r := s.readBytes .spine .spine src n
  let s := r.1.writeBytes .capture .spine dst r.2.1
  if r.2.2 then s
  else s.each (List.range ((dst + n - 1) / 32 + 1 - dst / 32)) fun s i => s.setMark .capture (dst / 32 + i) .poisoned

/-- Copy records at a list of places to consecutive destinations. -/
def State.copyRecords (s : State) (n dst : Nat) : List Nat → State
  | [] => s
  | a :: t => (s.copyOut a n dst).copyRecords n (dst + n) t

end Sys2Proof.Machine
end

