-- ==== Sys2Proof/Machine/Settle.lean ====
section
/-! DEFINITION. What follows from every change of the state at once: lockouts and nonces end, drain enables and mute
switches follow their conditions, events reach their vectors and pins, and frames leave in their order. -/

namespace Sys2Proof.Machine

/-- The outcome of a command. -/
abbrev Outcome := Host.Outcome State Fault Refusal

/-! ## Paths -/

/-- Every prepared fret must be rebuilt (R190, R261, R262). -/
def State.undo (s : State) : State := { s with sched := { s.sched with staleFrom := some 0 } }

/-! ## Drains (R23, R72, R203) -/

/-- The codes of TILE_t.STATUS.STATE (R194). -/
def tileAbsent : Nat := 0
def tileDebounce : Nat := 1
def tileEnum : Nat := 2
def tileUp : Nat := 3
def tileRefused : Nat := 4
def tileReleased : Nat := 5

/-- The tick of the loading strobe of a tile, if its delay was started. -/
def State.strobeTick (s : State) (t : Nat) : Option Nat :=
  match s.tiles[t]? with
  | some x => x.strobeTick
  | none => none

/-- DRAIN_DELAY has passed since the strobe that set BIAS_READY (R203); 1 µs is 245.76 ticks. -/
def State.drainDelayOver (s : State) (t : Nat) : Bool :=
  match s.strobeTick t with
  | none => true
  | some k => decide (k + nsTicks (1000 * s.getF (Reg.tileCtrlDrainDelay t)) ≤ s.drone.ticks)

/-- The drain interlock of a tile, beside the device state and the analog half (R188, R203). -/
def State.interlock (s : State) (t : Nat) : Bool :=
  s.getF (Reg.tileStatusState t) == tileUp && s.flag (Reg.tileCtrlDrainAllow t) &&
    s.flag (Reg.tileStatusBiasReady t) && s.drainDelayOver t

/-- The device is in SERVICE, or a wake of a half has reached the step that raises its drains: the half rises at the
wake's start (R96 step 3, R103 step 5, R203). -/
def State.drainsRise (s : State) (h : Nat) : Bool :=
  s.dev == .service || s.flag Reg.dozeStatusWaking &&
    (s.dev == .doze && s.flag (idleBit h) || s.dev == .lightHold && s.holdFrom != .lathed)

/-- The level that DRAIN_EN_t must have (R23, R203). -/
def State.drainLevel (s : State) (t : Nat) : Bool :=
  s.phase == .run && s.drainsRise (t / 4) && s.analogOn (t / 4) && s.interlock t

/-- Drive every DRAIN_EN pin to its level. -/
def State.settleDrains (s : State) : State :=
  s.each (List.range 8) fun s t => s.setFlag (Reg.tileStatusDrain t) (s.drainLevel t)

/-- In SERVICE or DOZE an ACTIVE path whose tile's interlock is unmet becomes MUTED, but in an idled half (R188, R189). -/
def State.settlePaths (s : State) : State :=
  if !s.inService then s
  else s.each (List.range 64) fun s p =>
    if s.path p == pathActive && !s.interlock (p / 8) && !(s.dev == .doze && s.flag (idleBit (halfOf p))) then
      (s.setPath p pathMuted).undo
    else s

/-! ## Samples of paths that are not ACTIVE (R130) -/

/-- A path became ACTIVE: its samples are valid from here on, subject to the other causes. -/
def State.nowActive (s : State) (p : Nat) : State :=
  let mine (x : Span) : Bool := x.cause == .notActive && x.lo == p && x.stop.isNone
  if s.rx.spans.any mine then
    { s with rx := { s.rx with spans := s.rx.spans.map fun x => if mine x then { x with stop := some s.pathSample } else x } }
  else s.addSpan p p none .notActive 0 (some s.pathSample)

/-- Paths that became ACTIVE, or are ACTIVE no more, close or open the run of their invalid samples (R130, R190). -/
def State.settleActive (s : State) : State :=
  let now := (List.range 64).filter fun p => s.path p == pathActive
  if now = s.rx.active then s
  else
    let s := s.each (now.filter fun p => !s.rx.active.contains p) State.nowActive
    let gone := s.rx.active.filter fun p => !now.contains p
    let s := s.each gone fun s p => s.addSpan p p none .notActive s.pathSample none
    { s with rx := { s.rx with active := now } }

/-! ## Running commands -/

/-- FAULT ends a running command that could not go on in it; a load is withdrawn by R549, and an erase goes on. -/
def Job.endsInFault : Job → Bool
  | .lathStream _ _ _ _ _ _ => false
  | .lathWait _ _ _ _ => false
  | .lathChecked _ => false
  | .lathAgree _ => false
  | .makerErase => false
  | _ => true

/-- A synthesizer neither works nor holds a hop: it locks no more by itself (R176, R184). -/
def State.synIdle (s : State) (x : Nat) : Bool :=
  match s.syn[x]? with
  | some y => y.work.isNone && y.pending.isNone
  | none => true

/-- PATH_PREPARE ends with the last of its passes (R208); a SYN_HOP or SYN_CAL whose synthesizer has failed or gone OFF
before its lock completes with FAILED (log 201). -/
def State.settleJobs (s : State) : State :=
  match s.job with
  | none => s
  | some j =>
    if s.dev == .fault && j.endsInFault then ((s.results [s.dev.code]).complete .stateReject).raise 1
    else match j with
      | .pathPrepare left done =>
        let l := (maskList 64 left).filter fun p => s.path p == pathCal
        if l.isEmpty then s.completeDone [done % 2 ^ 32, done / 2 ^ 32]
        else { s with job := some (.pathPrepare (listMask l) done) }
      | .synHop left _ => if left.any s.synIdle then s.complete .failed else s
      | .synCal x _ => if s.synIdle x then s.complete .failed else s
      | _ => s

/-! ## Mute switches (R158) -/

/-- The timing carrier of every half: the lowest transmit carrier that is enabled (R143). -/
def State.timingCarrier (s : State) : Option Nat :=
  (List.range 4).find? fun c => s.flag (Reg.txcCtrlEnable c)

/-- The transmit synthesizer of a path's half. -/
def txSynOf (p : Nat) : Nat := 2 * halfOf p

/-- A condition that holds a path's mute switch open (R158). -/
def State.muteHolds (s : State) (p : Nat) : Bool :=
  !(s.phase == .run && s.dev == .service) || s.path p != pathActive || s.flag (Reg.txCtrlMute p) ||
    s.getF (Reg.synStatusState (txSynOf p)) != 2

/-- Open the mute switches on which a condition holds; without a timing carrier, close those on which none does (R143,
R158). -/
def State.settleMutes (s : State) : State :=
  let free := s.timingCarrier.isNone
  { s with tx := { s.tx with
    closed := (List.range 64).filter fun p => !s.muteHolds p && (free || s.tx.closed.contains p) } }

/-! ## What the transmit chains go by (R142, R159, R161) -/

/-- A path transmits: its mute switch is closed and its synthesizer is LOCKED. -/
def State.onAir (s : State) (p : Nat) : Bool := s.tx.closed.contains p && s.getF (Reg.synStatusState (txSynOf p)) == 2

/-- A calibration or a self-test, or in LATHED a tone, drives the DAC of a path over the internal loop-back while its switch
is open (R159, R161, R440, R452). -/
def State.loopDriven (s : State) (p : Nat) : Bool :=
  s.path p == pathCal || (s.dev == .lathed && s.tx.tones.any fun x => x.path == p) ||
    match s.job with
    | some (.calRun id mask) => decide (1 ≤ id) && decide (id ≤ 7) && testBit mask p
    | some (.pathTest left _ _ _) => testBit left p
    | _ => false

/-- What the chains go by now. -/
def State.chainView (s : State) : ChainView where
  carriers := (List.range 4).filter fun c => s.flag (Reg.txcCtrlEnable c) && !s.tx.restarting.contains c
  tones := s.tx.tones
  live := (List.range 64).filter fun p => s.tx.closed.contains p || s.loopDriven p
  onAir := s.tx.closed.filter s.onAir

/-- Keep what the chains went by up to here, for 1 ms. -/
def State.settleChain (s : State) : State :=
  let v := s.chainView
  if v = s.tx.view then s
  else { s with tx := { s.tx with
    view := v, past := (s.drone.ticks, s.tx.view) :: s.tx.past.filter fun x => decide (s.drone.ticks < x.1 + 245760) } }

/-- What the chains went by at a tick. -/
def State.viewAt (s : State) (tick : Nat) : ChainView :=
  ((s.tx.past.reverse.find? fun x => decide (tick < x.1)).map Prod.snd).getD s.chainView

/-- What the chains went by at any tick from `a` up to `b`. -/
def State.viewsIn (s : State) (a b : Nat) : List ChainView :=
  let ends := s.tx.past.map Prod.fst
  let old := (s.tx.past.zip (ends.drop 1 ++ [0])).filter fun x => decide (a < x.1.1) && decide (x.2 < b)
  (if ends.headD 0 < b then [s.chainView] else []) ++ old.map fun x => x.1.2

/-! ## Sessions (R44, R45) -/

/-- End a lockout whose 10 s have passed, and void a nonce that is older than 10 s. -/
def expireSession (ticks : Nat) (x : Session) : Session :=
  let x := match x.lockedAt with
    | some t => if t + 2457600000 ≤ ticks then { x with lockedAt := none, fails := 0 } else x
    | none => x
  match x.nonce with
  | some n => if n.since + 2457600000 < ticks then { x with nonce := none } else x
  | none => x

/-- Let the time limits of both sessions run out. -/
def State.settleSessions (s : State) : State :=
  { s with pcie := expireSession s.drone.ticks s.pcie, qspi := expireSession s.drone.ticks s.qspi }

/-! ## Observation receivers (R162) -/

/-- A grant whose time is over leaves its receiver idle. -/
def State.settleObs (s : State) : State :=
  s.each (List.range 4) fun s q =>
    match s.tx.obs[q]? with
    | some x => if x.until_ ≤ s.drone.ticks then s.setF (Reg.obsStatusBusy q) 0 else s
    | none => s

/-! ## Events to vectors and pins (R421 to R423) -/

/-- The ROUTE byte of an event. -/
def State.routeByte (s : State) (n : Nat) : Nat :=
  let r := n / 4
  s.getF (match n % 4 with
    | 0 => Reg.evRouteByte0 r
    | 1 => Reg.evRouteByte1 r
    | 2 => Reg.evRouteByte2 r
    | _ => Reg.evRouteByte3 r)

/-- The events whose STATUS and ENABLE bits are both set. -/
def State.deliveredEvents (s : State) : List Nat :=
  (List.range 4).flatMap fun w =>
    (maskList 32 (s.getF (Reg.evStatus w) &&& s.getF (Reg.evEnable w))).map (· + 32 * w)

/-- Send the message of a vector, or hold it back while the vector is masked (R422). -/
def State.sendVector (s : State) (v : Nat) : State :=
  if s.flag (Reg.msixControlMask v) then
    { s with events := { s.events with withheld := insertOnce v s.events.withheld } }
  else { s with out := { s.out with msix := s.out.msix ++ [v] } }

/-- Recompute the vectors' conditions and the pins, which keep their level in Light Hold; a vector whose condition becomes true is signalled. -/
def State.settleEvents (s : State) : State :=
  let routes := s.deliveredEvents.map s.routeByte
  let vs := (List.range 32).filter fun v => routes.any fun r => testBit r 5 && r % 32 == v
  let new := vs.filter fun v => !s.events.vectors.contains v
  let held := s.phase == .run && s.dev == .lightHold
  let s := { s with events := { s.events with
    vectors := vs
    irqA := if held then s.events.irqA else routes.any fun r => testBit r 6
    irqB := if held then s.events.irqB else routes.any fun r => testBit r 7 } }
  s.each new State.sendVector

/-! ## Frame order (R353) -/

/-- Put a frame behind the frames of its priority and of the priorities before it. -/
def insertLink (m : LinkMsg) : List LinkMsg → List LinkMsg
  | [] => [m]
  | x :: t => if m.prio < x.prio then m :: x :: t else x :: insertLink m t

/-- Order the frames of this step. -/
def State.settleLink (s : State) : State :=
  { s with out := { s.out with link := s.out.link.foldl (fun l m => insertLink m l) [] } }

/-- What follows from a change at once. -/
def settle (s : State) : State :=
  s.settleSessions.settleJobs.settleObs.settlePaths.settleActive.settleDrains.settleMutes.settleChain.settleEvents.settleLink

/-- The next state of a command with an effect: the queue is untouched, and the outputs are this step's. -/
def act (s : State) (f : State → State) : Outcome :=
  .next { settle (f { s with out := .empty }) with pending := s.pending }

end Sys2Proof.Machine
end

