-- ==== Sys2Proof/Machine/Budget.lean ====
section
/-! DEFINITION. Shadow registers, the copying of a commit, and the budget reload of a fret boundary (chapter 14). -/

namespace Sys2Proof.Machine

/-! ## Commit (R412, R415 to R418) -/

/-- The access of the field with a key. -/
def fieldAccess (k : Nat) : Option Access :=
  match fieldRows (k / 32) with
  | none => none
  | some l => (l.find? fun r => r.lo == k % 32).map FieldRow.access

/-- A key names a BUDGET.CLASS field. -/
def isBudgetKey (k : Nat) : Bool := decide (0x200000 ≤ k / 32) && decide (k / 32 < 0x200200)

/-- Copy every SH field whose shadow differs into its active copy; the fields under `keep` stay (R412, R415). -/
def State.copyShadows (s : State) (keep : Nat → Bool) : State :=
  let gone := (s.regs.filter fun x => !keep x.1 && fieldAccess x.1 == some .sh).map
    Prod.fst
  let r := gone.foldl (fun m k => mapErase k m) s.regs
  let r := (s.shadow.filter fun x => !keep x.1).foldl (fun m x => mapInsert x.1 x.2 (mapErase x.1 m)) r
  { s with regs := r }

/-- The copying of a commit, its count and its events. A commit that would break the floor sums leaves the budget table
as it is (R412). -/
def State.commitFields (s : State) : State :=
  let bad := !floorsOk s.getSh
  let s := s.copyShadows fun k => bad && isBudgetKey k
  let s := s.when bad fun s => (s.setF Reg.budgetStatusTableRefused 1).raise 10
  ((s.setF Reg.commitCtrlArm 0).addWrap Reg.shadowSeq 1).raise 9

/-- The commit point of COMMIT_CTRL: reserved values act as 0. -/
def State.commitPoint (s : State) : Nat :=
  let p := s.getF Reg.commitCtrlPoint
  if 8 ≤ p then p else 0

/-- A commit is due at a point: 0 a fret boundary, 8 to 15 a time compare. -/
def State.commitDue (s : State) (point : Nat) : Bool := s.flag Reg.commitCtrlArm && s.commitPoint == point

/-- A write of COMMIT_CTRL's ARM and DISARM bits: both together act as DISARM alone (R416). -/
def State.armWrite (s : State) (arm disarm : Bool) : State :=
  if disarm then s.setF Reg.commitCtrlArm 0 else if arm then s.setF Reg.commitCtrlArm 1 else s

/-- The consuming commit that a host write of an SH field records for its port (R417). -/
def State.shadowWritten (s : State) (p : Port) : State :=
  let v := s.getF Reg.shadowSeq + 1
  match p with
  | .pcie => s.setF Reg.shadowWseqPcie v
  | .qspi => s.setF Reg.shadowWseqQspi v

/-! ## The budget reload (R407, R410, R413) -/

/-- What a class has been granted, in grains rounded up. -/
def State.usedGrains (s : State) (c r : Nat) : Nat := (s.used c r - s.owed c r + grainSize r - 1) / grainSize r

/-- The arbiters come to the end of the fret, under its own table. -/
def State.arbitersEnd (s : State) : State := s.each [0, 3, 4] fun s r => s.arbitrate r fretCycles

/-- Tc of a fret boundary: used counts are shown and start at 0, but for what is still owed, and enforcement begins with
an applied table. -/
def State.budgetFret (s : State) : State :=
  let t := s.each (List.range 16) fun t c => t.each (List.range 5) fun t r =>
    t.setF (Reg.budgetUsed c r) (min 65535 (s.usedGrains c r))
  let t := t.setF Reg.exhaustedNow 0
  let t := t.when t.budget.due fun t => t.setF Reg.budgetStatusEnforcing 1
  { t with budget := { t.budget with used := t.budget.owed, busy := [], asking := [], raised := false, due := false } }

end Sys2Proof.Machine
end

