-- ==== Sys2Proof/Machine/Numeric.lean ====
section
/-! DEFINITION. The fixed-point numbers of the spec: rounding, saturation, cosine and sine of exact fractions of a turn,
weights and block-floating-point blocks. -/

namespace Sys2Proof.Machine

/-- `n / d` rounded half up, for a positive `d`. -/
def roundDiv (n : Int) (d : Nat) : Int := (2 * n + (d : Int)) / (2 * (d : Int))

/-- An integer saturated to `w` bits of two's complement. -/
def satSigned (w : Nat) (i : Int) : Int := clampInt (-(2 ^ (w - 1) : Nat)) ((2 ^ (w - 1) : Nat) - 1) i

/-- 2 π in units of 2^-80. -/
def twoPi80 : Nat := 7595904947272677161575987

/-- The terms of the cosine series: `term` is x^n / n! in units of 2^-80, `x2` is x² in those units. -/
def cosTerms (x2 : Int) : Nat → Nat → Int → Int
  | 0, _, _ => 0
  | fuel + 1, n, term => term + cosTerms x2 fuel (n + 2) (-(term * x2 / (2 ^ 80 : Nat)) / ((n + 1) * (n + 2) : Nat))

/-- The cosine of `q` / 2^64 of a turn up to a quarter, in units of 2^-80; a quarter turn gives 0. -/
def cosQuarter (q : Int) : Int :=
  if q = (2 ^ 62 : Nat) then 0
  else
    let x : Int := q * twoPi80 / (2 ^ 64 : Nat)
    cosTerms (x * x / (2 ^ 80 : Nat)) 32 0 (2 ^ 80 : Nat)

/-- The cosine of `t` / 2^64 of a turn, in units of 2^-80: exact at every quarter turn. -/
def cosTurn (t : Int) : Int :=
  let q : Int := t % (2 ^ 64 : Nat)
  let q := if (2 ^ 63 : Nat) ≤ q then (2 ^ 64 : Nat) - q else q
  if (2 ^ 62 : Nat) < q then -cosQuarter ((2 ^ 63 : Nat) - q) else cosQuarter q

/-- The sine of `t` / 2^64 of a turn, in units of 2^-80. -/
def sinTurn (t : Int) : Int := cosTurn (t - (2 ^ 62 : Nat))

/-- A complex weight: I and Q in signed 1.15 (R223). -/
structure Weight where
  i : Int
  q : Int
  deriving DecidableEq, Repr

/-- The weight of a 32-bit word: I in [15:0], Q in [31:16]. -/
def Weight.ofWord (n : Nat) : Weight := ⟨toSigned 16 n, toSigned 16 (n / 65536)⟩

/-- The 32-bit word of a weight. -/
def Weight.word (w : Weight) : Nat := ofSigned 16 w.i + 65536 * ofSigned 16 w.q

/-- 0.125 e^(j 2π t / 2^64) × cal, rounded half up to signed 1.15 (R226, R234). -/
def turnWeight (t : Int) (cal : Weight) : Weight :=
  let c := cosTurn t
  let n := sinTurn t
  ⟨satSigned 16 (roundDiv (c * cal.i - n * cal.q) (2 ^ 83)), satSigned 16 (roundDiv (c * cal.q + n * cal.i) (2 ^ 83))⟩

/-- A weight rotated by `t` / 2^64 of a turn (R237). -/
def rotateWeight (t : Int) (w : Weight) : Weight :=
  let c := cosTurn t
  let n := sinTurn t
  ⟨satSigned 16 (roundDiv (c * w.i - n * w.q) (2 ^ 80)), satSigned 16 (roundDiv (c * w.q + n * w.i) (2 ^ 80))⟩

/-- The weight of symbol `k` of `f` in a fade (R229). -/
def fadeWeight (a b : Weight) (k f : Nat) : Weight :=
  ⟨a.i + roundDiv ((b.i - a.i) * k) f, a.q + roundDiv ((b.q - a.q) * k) f⟩

/-- ln 10 and ln 2 in units of 2^-80. -/
def lnTen80 : Nat := 2783654570780253816072539
def lnTwo80 : Nat := 837963523372001241319908

/-- The terms of the exponential series: `term` is x^n / n! in units of 2^-80. -/
def expTerms (x : Int) : Nat → Nat → Int → Int
  | 0, _, _ => 0
  | fuel + 1, n, term => term + expTerms x fuel (n + 1) (term * x / (2 ^ 80 : Nat) / (n + 1 : Nat))

/-- 10^(e / 200000), the amplitude of `e` ten-thousandths of a decibel, in units of 2^-80. -/
def dbFine (e : Int) : Int :=
  let x : Int := e * lnTen80 / 200000
  let n := x / lnTwo80
  let m := expTerms (x % lnTwo80) 32 0 (2 ^ 80 : Nat)
  if n < 0 then m / (2 ^ (-n).toNat : Nat) else m * (2 ^ n.toNat : Nat)

/-- 10^(e / 2000), the amplitude of `e` hundredths of a decibel, in units of 2^-80. -/
def dbAmplitude (e : Int) : Int := dbFine (100 * e)

/-- The weight of an amplitude in hundredths of a decibel and a phase in 2^-64 of a turn, each part saturated (R430). -/
def polarWeight (e t : Int) : Weight :=
  let a := dbAmplitude e
  ⟨satSigned 16 (roundDiv (a * cosTurn t) (2 ^ 145)), satSigned 16 (roundDiv (a * sinTurn t) (2 ^ 145))⟩

/-! ## Block-floating-point blocks (R239, R240) -/

/-- The mantissa width that a BFP_WIDTH code names. -/
def bfpWidth : Nat → Nat
  | 0 => 8
  | 1 => 9
  | 2 => 10
  | 3 => 12
  | 4 => 14
  | _ => 16

/-- A value at an exponent: half up. -/
def bfpQ (e : Nat) (v : Int) : Int := (v + (if e = 0 then 0 else (2 ^ (e - 1) : Nat))) / (2 ^ e : Nat)

/-- A value at an exponent fits the mantissa width. -/
def bfpFits (m e : Nat) (v : Int) : Bool := bfpQ e v == satSigned m (bfpQ e v)

/-- The least exponent at which every value fits, or 15. -/
def bfpExponent (m : Nat) (l : List Int) : Nat :=
  ((List.range 16).find? fun e => l.all (bfpFits m e)).getD 15

/-- The bits of mantissas, most significant first, as one number. -/
def bfpBits (m : Nat) (l : List Int) : Nat := l.foldl (fun n v => n * 2 ^ m + ofSigned m v) 0

/-- One block of 24 values: the exponent byte and 3 M bytes of mantissas. -/
def bfpEncode (m : Nat) (l : List Int) : List Byte :=
  let e := bfpExponent m l
  leBytes 1 e ++ beBytes (3 * m) (bfpBits m (l.map fun v => satSigned m (bfpQ e v)))

/-- Decode a block: 24 values saturated to signed 8.16. -/
def bfpDecode (m : Nat) (b : List Byte) : List Int :=
  let e := leAt 0 1 b % 16
  let n := ofBe (slice 1 (3 * m) b)
  (List.range 24).map fun i => satSigned 24 (toSigned m (n / 2 ^ (m * (23 - i))) * (2 ^ e : Nat))

end Sys2Proof.Machine
end

