-- ==== Sys2Proof/Machine/Image.lean ====
section
/-! DEFINITION. The lath image (R28 to R42): its header, records, load lists, firmware sections and keys, and the checks
that the loader makes of the whole image before it applies any of it (R51, R52). -/

namespace Sys2Proof.Machine

/-- The TARGET_ID of this part type (R29). -/
def targetId : Nat := 0x64640A01

/-- The REASON numbers of a load and of the other lath commands (R52, R43). -/
def reasonBadHeader : Nat := 1
def reasonBadFraming : Nat := 2
def reasonOrder : Nat := 3
def reasonKeyUnknown : Nat := 4
def reasonSignature : Nat := 5
def reasonTarget : Nat := 6
def reasonVersion : Nat := 7
def reasonType : Nat := 8
def reasonField : Nat := 9
def reasonIncomplete : Nat := 10
def reasonInconsistent : Nat := 11
def reasonTwinMismatch : Nat := 12
def reasonTooLate : Nat := 13
def reasonJournalFull : Nat := 14
def reasonNoSlot : Nat := 15
def reasonLockout : Nat := 16
def reasonNotReady : Nat := 17
def reasonFuseFail : Nat := 26

/-- RECORD where a failure is tied to no record (R52). -/
def noRecord : Nat := 0xFFFFFFFF

/-- The register blocks that load lists name. -/
inductive Block where
  | spine
  | path
  | synth
  | tile
  | dfe
  | spectral
  | registry
  | link
  | bridge
  | monitor
  | cal
  | memint
  | budget
  | other
  deriving DecidableEq, Repr

/-- The block of a byte address of the index-0 BAR (R519). -/
def blockAt (a : Nat) : Block :=
  if a < 0x100000 then .spine
  else if a < 0x200000 then .other
  else if a < 0x400000 then .budget
  else if a < 0x500000 then .path
  else if a < 0x580000 then .synth
  else if a < 0x600000 then .tile
  else if a < 0x800000 then .dfe
  else if a < 0xC00000 then .spectral
  else if a < 0x1000000 then .registry
  else if a < 0x1400000 then .other
  else if a < 0x1500000 then .link
  else if a < 0x1600000 then .bridge
  else if a < 0x1700000 then .monitor
  else if a < 0x1800000 then .cal
  else if a < 0x1900000 then .memint
  else .other

/-- What a section's payload holds (R34). -/
inductive PayloadKind where
  | loadList
  | firmware
  | keyList
  deriving DecidableEq, Repr

/-- One row of the section table: type, signing role, payload, blocks written (none: any), how many records an image may
hold, and whether it is required (R34). -/
structure SectionRow where
  typ : Nat
  role : Nat
  kind : PayloadKind
  blocks : Option (List Block)
  most : Nat
  required : Bool
  deriving DecidableEq, Repr

/-- The section types (R34). -/
def sectionTable : List SectionRow := [
  ⟨0x0001, 1, .loadList, none, 1, true⟩,
  ⟨0x0002, 1, .loadList, some [.memint, .cal], 1, false⟩,
  ⟨0x0003, 1, .loadList, some [.spine], 1, false⟩,
  ⟨0x0004, 1, .firmware, some [], 16, true⟩,
  ⟨0x0101, 2, .loadList, some [.spectral, .path, .bridge], 1, true⟩,
  ⟨0x0102, 2, .loadList, some [.tile, .path, .spine], 1, true⟩,
  ⟨0x0103, 2, .loadList, some [.synth, .dfe], 1, true⟩,
  ⟨0x0104, 2, .loadList, some [.path, .dfe, .tile, .monitor], 1, true⟩,
  ⟨0x0105, 2, .loadList, some [.cal], 1, true⟩,
  ⟨0x0106, 2, .keyList, some [], 1, true⟩,
  ⟨0x0201, 3, .loadList, some [.spectral, .dfe, .link], 1, true⟩,
  ⟨0x0202, 3, .loadList, some [.dfe], 1, false⟩,
  ⟨0x0203, 3, .loadList, some [.spectral, .link], 1, true⟩,
  ⟨0x0204, 3, .loadList, some [.registry, .spine], 1, true⟩,
  ⟨0x0205, 3, .loadList, some [.budget], 1, true⟩,
  ⟨0x0206, 3, .firmware, some [], 8, false⟩,
  ⟨0x0207, 3, .loadList, some [.spine, .registry], 1, false⟩]

/-- The row of a section type. -/
def sectionRow (typ : Nat) : Option SectionRow := sectionTable.find? fun r => r.typ == typ

/-- The TYPE of OPERATOR_KEYS, of the two firmware sections, of BUDGETS, CARRIERS, FILTER_TOPOLOGY, TILE_MAP and
FEATURE_ENABLE. -/
def typOperatorKeys : Nat := 0x0106
def typFirmware : Nat := 0x0004
def typKernel : Nat := 0x0206
def typBudgets : Nat := 0x0205
def typCarriers : Nat := 0x0201
def typFilters : Nat := 0x0202
def typTileMap : Nat := 0x0102
def typFeature : Nat := 0x0003

/-- The TYPE of a KEY record (R31). -/
def typKey : Nat := 0x7FFF

/-! ## Payloads -/

/-- The payload of a signed record (R30). -/
def LathRec.payload (r : LathRec) : List Byte := slice 16 (leAt 4 4 r.bytes) r.bytes

/-- One write of a load list: register address, the bits it names, its data word, and whether it names its bits by a
MASK (OP 2). -/
structure LoadWrite where
  addr : Nat
  mask : Nat
  value : Nat
  masked : Bool
  deriving DecidableEq, Repr

/-- The writes of one entry with its header and data (R35). -/
def entryWrites (addr count op : Nat) (d : List Byte) : List LoadWrite :=
  (List.range count).map fun k =>
    if op = 2 then ⟨addr + 4 * k, leAt (8 * k) 4 d, leAt (8 * k + 4) 4 d, true⟩
    else if op = 1 then ⟨addr + 4 * k, 0xFFFFFFFF, leAt 0 4 d, false⟩
    else ⟨addr + 4 * k, 0xFFFFFFFF, leAt (4 * k) 4 d, false⟩

/-- The writes of a load list, or none where its framing is broken: a cut entry, OP 3, a reserved bit, a COUNT outside 1
to 4,096 or an unaligned ADDR. -/
def loadList : Nat → List Byte → Option (List LoadWrite)
  | 0, p => if p.isEmpty then some [] else none
  | fuel + 1, p =>
    if p.isEmpty then some []
    else
      let addr := leAt 0 4 p
      let w := leAt 4 4 p
      let count := w % 65536
      let op := w / 65536 % 4
      let words := if op = 2 then 2 * count else if op = 1 then 1 else count
      let len := 8 + 4 * words
      if p.length < 8 || addr % 4 != 0 || decide (2 ^ 18 ≤ w) || op == 3 || count == 0 || decide (4096 < count) ||
        decide (p.length < len) then none
      else match loadList fuel (p.drop len) with
        | none => none
        | some t => some (entryWrites addr count op ((p.drop 8).take (4 * words)) ++ t)

/-- The writes of a record's load list; a record of another kind has none. -/
def LathRec.writes (r : LathRec) : Option (List LoadWrite) :=
  match sectionRow r.typ with
  | some ⟨_, _, .loadList, _, _, _⟩ => loadList r.payload.length r.payload
  | _ => some []

/-- The mask of a field's bits in its register. -/
def FieldRow.mask (r : FieldRow) : Nat := (2 ^ r.w - 1) * 2 ^ r.lo

/-- A field that the loader may write: RW or SH (R35). -/
def FieldRow.loadable (r : FieldRow) : Bool := r.access == .rw || r.access == .sh

/-- Whether every bit that a load-list write writes may be written by a section of a role (R35); a write of no bit meets
the conditions. -/
def LoadWrite.allowed (x : LoadWrite) (role : Option Role) (blocks : Option (List Block)) : Bool :=
  let inBlock : Bool := match blocks with
    | none => true
    | some l => l.contains (blockAt x.addr)
  let rows := (fieldRows x.addr).getD []
  let mine (r : FieldRow) : Bool := r.loadable && (match role with | some q => r.roles.contains q | none => false)
  let writable := rows.filter FieldRow.loadable
  let cover := (writable.map FieldRow.mask).foldl Nat.lor 0
  if x.addr % 4 != 0 then false
  else if x.masked then
    x.mask == 0 || (inBlock && x.mask &&& cover == x.mask && writable.all fun r => x.mask &&& r.mask == 0 || mine r)
  else x.value &&& cover == x.value && (writable.isEmpty || (inBlock && writable.all mine))

/-- A firmware section: CORE_MASK, ENTRY, the program bytes and the data bytes (02, firmware sections). -/
structure Firmware where
  coreMask : Nat
  entry : Nat
  program : List Byte
  data : List Byte
  deriving DecidableEq, Repr

/-- Read a firmware payload; none where its counts and its length do not fit. -/
def firmwareOf (p : List Byte) : Option Firmware :=
  let pw := leAt 8 4 p
  let dw := leAt 12 4 p
  if p.length < 16 || pw == 0 || decide (16384 < pw) || decide (4096 < dw) ||
    p.length != 16 + 4 * pw + 32 * dw then none
  else some ⟨leAt 0 4 p, leAt 4 4 p, (p.drop 16).take (4 * pw), p.drop (16 + 4 * pw)⟩

/-- The OPERATOR_KEYS payload is well framed (R42). -/
def keyListOk (p : List Byte) : Bool :=
  p.length == 104 && (leAt 0 2 p == 1 || leAt 0 2 p == 2) && leAt 2 2 p == 0 &&
    (leAt 0 2 p == 2 || leAt 56 48 p == 0)

/-- The digest that an OPERATOR_KEYS payload holds for a slot (R42). -/
def operatorHash (p : List Byte) (slot : Nat) : Option (List Byte) :=
  if slot < leAt 0 2 p then some (slice (8 + 48 * slot) 48 p) else none

/-- A payload's own framing. An OPERATOR_KEYS payload that breaks the table of R42 fails with BAD_FRAMING (log 173). -/
def LathRec.payloadOk (r : LathRec) : Bool :=
  match sectionRow r.typ with
  | some ⟨_, _, .loadList, _, _, _⟩ => r.writes.isSome
  | some ⟨_, _, .firmware, _, _, _⟩ => (firmwareOf r.payload).isSome
  | some ⟨_, _, .keyList, _, _, _⟩ => keyListOk r.payload
  | none => false

/-! ## Keys (R32, R41) -/

/-- The 48 bytes of a digest, in the order of the hash. -/
def digestBytes (d : BitVec 384) : List Byte := beBytes 48 d.toNat

/-- The index of the active installer slot: the lowest that is VALID and not REVOKED (R41). -/
def activeSlot (l : List InstSlot) : Option Nat :=
  (List.range l.length).find? fun i =>
    match l[i]? with
    | some x => x.valid && !x.revoked
    | none => false

/-- The lowest slot whose VALID fuse is not blown (R43). -/
def freeSlot (l : List InstSlot) : Option Nat :=
  (List.range l.length).find? fun i =>
    match l[i]? with
    | some x => !x.valid
    | none => false

/-- The OPERATOR_KEYS payload of the active lath. -/
def State.operatorKeys (s : State) : Option (List Byte) :=
  (s.lath.recs.find? fun r => r.typ == typOperatorKeys).map LathRec.payload

/-- The digest that the device holds for a role and slot (R32). -/
def State.heldDigest (s : State) (opKeys : Option (List Byte)) (role slot : Nat) : Option (List Byte) :=
  if role = 1 then (if slot = 0 then some (digestBytes Config.makerKeyDigest) else none)
  else if role = 2 then
    if slot = 0 then
      match activeSlot s.fuses.slots.toList with
      | some i => (s.fuses.slots[i]?).map fun x => digestBytes x.digest
      | none => none
    else none
  else if role = 3 then
    match opKeys with
    | some p => operatorHash p slot
    | none => none
  else none

/-- Whether a 97-byte point is trusted for a role and slot (R32). -/
def State.trusts (s : State) (opKeys : Option (List Byte)) (role slot : Nat) (point : List Byte) : Bool :=
  s.heldDigest opKeys role slot == some (digestBytes (Config.sha384 point))

/-! ## The scan of an image (R52, steps 1 to 3) -/

/-- What the scan of records has gathered: the place of the next record, the last role, the keys, the signed records
with their indices, and the OPERATOR_KEYS payload that governs. -/
structure Scan where
  pos : Nat
  lastRole : Nat
  keys : List RoleKey
  recs : List (Nat × LathRec)
  opKeys : Option (List Byte)
  deriving DecidableEq, Repr

/-- A verdict on an image: rejected with a REASON and RECORD, or found good. -/
inductive Verdict (α : Type) where
  | reject (reason record : Nat)
  | good (a : α)
  deriving DecidableEq, Repr

/-- The roles whose sections an image of a mode may hold (R51). -/
def modeRoles (mode : Nat) (dev : DevState) : List Nat :=
  if mode = 0 && dev == .bare then [1, 2, 3] else if mode = 2 then [3] else [2, 3]

/-- The header's checks (R29). -/
def headerOk (img : List Byte) (len : Nat) : Bool :=
  let n := leAt 12 4 img
  leAt 0 4 img == 0x4854414C && leAt 4 2 img == 1 && leAt 6 2 img == 64 && leAt 8 4 img == targetId &&
    n % 4 == 0 && decide (64 ≤ n) && decide (n ≤ len) && decide (n ≤ 4194304) &&
    decide (1 ≤ leAt 16 2 img) && decide (leAt 16 2 img ≤ 64) && leAt 18 2 img == 0 && leAt 28 36 img == 0

/-- The framing, order and key trust of a KEY record, and what it adds (R31 to R33). -/
def State.scanKey (s : State) (x : Scan) (i : Nat) (r : List Byte) : Verdict Scan :=
  let role := leAt 2 1 r
  let slot := leAt 3 1 r
  let point := slice 16 97 r
  if leAt 4 4 r != 100 || leAt 16 1 r != 4 || leAt 113 3 r != 0 then .reject reasonBadFraming i
  else if role < x.lastRole then .reject reasonOrder i
  else if !s.trusts x.opKeys role slot point then .reject reasonKeyUnknown i
  else .good { x with pos := x.pos + 116, lastRole := role, keys := x.keys ++ [⟨role, slot, point⟩] }

/-- A VERSION below its role's minimum (R40). -/
def versionLow (opKeys : Option (List Byte)) (role version : Nat) : Bool :=
  if role = 1 then decide (version < Config.makerMinVersion)
  else if role = 3 then
    match opKeys with
    | some p => decide (version < leAt 4 4 p)
    | none => false
  else false

/-- The checks of a signed record in the order of R52, step 2, and what it adds. -/
def scanSigned (roles : List Nat) (x : Scan) (i : Nat) (r : List Byte) : Verdict Scan :=
  let typ := leAt 0 2 r
  let role := leAt 2 1 r
  let slot := leAt 3 1 r
  let len := leAt 4 4 r
  let version := leAt 8 4 r
  let whole := r.take (112 + len)
  let lr : LathRec := ⟨typ, role, slot, version, whole⟩
  if role < x.lastRole then .reject reasonOrder i
  else match x.keys.find? fun k => k.role == role && k.slot == slot with
    | none => .reject reasonOrder i
    | some k =>
      if !Config.ecdsaVerify k.point (Config.sha384 (r.take (16 + len))) (slice (16 + len) 96 r) then
        .reject reasonSignature i
      else if leAt 12 4 r != targetId then .reject reasonTarget i
      else if versionLow x.opKeys role version then .reject reasonVersion i
      else match sectionRow typ with
        | none => .reject reasonType i
        | some row =>
          if row.role != role || !roles.contains role ||
            decide (row.most ≤ (x.recs.filter fun q => q.2.typ == typ).length) then .reject reasonType i
          else .good { x with
            pos := x.pos + 112 + len
            lastRole := role
            recs := x.recs ++ [(i, lr)]
            opKeys := if typ = typOperatorKeys then some lr.payload else x.opKeys }

/-- The scan of `n` more records from index `i` on (R52, step 2). The last record ends at IMAGE_LENGTH (R30). -/
def State.scanRecords (s : State) (roles : List Nat) (img : List Byte) (last : Nat) : Nat → Nat → Scan → Verdict Scan
  | 0, _, x => if x.pos = img.length then .good x else .reject reasonBadFraming last
  | n + 1, i, x =>
    let r := img.drop x.pos
    let len := leAt 4 4 r
    let isKey : Bool := leAt 0 2 r == typKey
    if r.length < 16 || len % 4 != 0 || decide (r.length < if isKey then 116 else 112 + len) then
      .reject reasonBadFraming i
    else match (if isKey then s.scanKey x i r else scanSigned roles x i r) with
      | .reject a b => .reject a b
      | .good y => s.scanRecords roles img last n (i + 1) y

/-- The payload framing and load-list permissions of the records, in image order (R52, step 3). -/
def permissionFail : List (Nat × LathRec) → Option (Nat × Nat)
  | [] => none
  | p :: t =>
    if !p.2.payloadOk then some (reasonBadFraming, p.1)
    else
      let blocks := match sectionRow p.2.typ with | some r => r.blocks | none => some []
      if (p.2.writes.getD []).all fun w => w.allowed (roleOfCode p.2.role) blocks then permissionFail t
      else some (reasonField, p.1)

/-! ## The registers as the sections leave them (R36, R51) -/

/-- Write the bits of a mask in the fields of a register that the loader may write: both copies of an SH field. -/
def State.putBits (s : State) (addr mask value : Nat) : State :=
  s.each ((fieldRows addr).getD []) fun s r =>
    let m := mask / 2 ^ r.lo % 2 ^ r.w
    if !r.loadable || m = 0 then s
    else
      let f := r.fld addr
      let v := value / 2 ^ r.lo % 2 ^ r.w
      let mix (old : Nat) : Nat := (old &&& ((2 ^ r.w - 1) ^^^ m)) ||| (v &&& m)
      let new := mix (s.getF f)
      let s := s.setF f new
      if r.access = .sh then s.setSh f new else s

/-- Return the bits of a mask to their reset values. -/
def State.resetBits (s : State) (addr mask : Nat) : State :=
  s.each ((fieldRows addr).getD []) fun s r =>
    if r.loadable then s.putBits addr (mask &&& r.mask) (r.rst * 2 ^ r.lo) else s

/-- Write a record's load list. -/
def State.writeRecord (s : State) (r : LathRec) : State :=
  s.each (r.writes.getD []) fun s w => s.putBits w.addr w.mask w.value

/-- The records in force after a load: those of a type that the load holds give way to it (R51). -/
def mergedRecs (old new : List LathRec) : List LathRec :=
  old.filter (fun r => !(new.any fun n => n.typ == r.typ)) ++ new

/-- How the GEOMETRY section in force names the chip: 0 single, 1 WEST, 2 EAST (R25). -/
def State.side (s : State) : Nat :=
  match s.lath.recs.find? fun r => r.typ == 0x0101 with
  | none => 0
  | some r => min (Config.geometrySide r.payload) 2

/-- The registers after a load: the bits of the replaced sections fall back to reset, and the new sections' writes are
made (R36, R51). -/
def State.lathRegisters (s : State) (new : List LathRec) : State :=
  let gone := s.lath.recs.filter fun r => new.any fun n => n.typ == r.typ
  let s := s.each gone fun s r => s.each (r.writes.getD []) fun s w => s.resetBits w.addr w.mask
  s.each new State.writeRecord

/-! ## Cross-section consistency (R52, step 4) -/

/-- The role codes whose sections are required. -/
def requiredTypes (role : Nat) : List Nat :=
  (sectionTable.filter fun r => r.required && r.role == role).map SectionRow.typ

/-- The section types that an image of a mode must hold (R51): in BARE the maker set, with both further sets or
neither. -/
def neededTypes (mode : Nat) (dev : DevState) (new : List LathRec) : List Nat :=
  let sets := requiredTypes 2 ++ requiredTypes 3
  if mode = 0 && dev == .bare then
    requiredTypes 1 ++ (if new.any fun r => r.role != 1 then sets else [])
  else if mode = 0 then sets
  else if mode = 1 then requiredTypes 2
  else []

/-- The core masks of the firmware sections in a lath, kernels or not. -/
def coreMasks (typ : Nat) (recs : List LathRec) : List Nat :=
  (recs.filter fun r => r.typ == typ).map fun r =>
    match firmwareOf r.payload with
    | some f => f.coreMask
    | none => 0

/-- The core masks keep R37 to R39: kernels within SPINE.KERNEL_MASK, firmware off the claimed cores, no overlap. -/
def coresOk (recs : List LathRec) (kernelMask : Nat) : Bool :=
  let ks := coreMasks typKernel recs
  let fs := coreMasks typFirmware recs
  let allowed := if recs.any fun r => r.typ == typFeature then kernelMask * 65536 else 0
  let claimed := ks.foldl Nat.lor 0
  let all := ks ++ fs
  ks.all (fun m => m &&& allowed == m) &&
    fs.all (fun m => decide (m < 2 ^ 24) && m &&& claimed == 0) &&
    (List.range 24).all fun c => decide ((all.filter fun m => testBit m c).length ≤ 1)

/-- The cross-section checks, on the registers as the load would leave them. -/
def State.consistent (s : State) (new : List LathRec) : Bool :=
  let t := s.lathRegisters new
  let has (typ : Nat) : Bool := new.any fun r => r.typ == typ
  (!has typBudgets || floorsOk t.getF) && (!has typCarriers || carriersOk t.getF) &&
    (!has typFilters || pulsesOk t.getF) &&
    coresOk (mergedRecs s.lath.recs new) (t.getF Reg.kernelMaskCores)

/-- Check an image whole (R52): `len` is the LENGTH argument and `img` the bytes from OFFSET on. INCOMPLETE falls between
steps 3 and 4 (log 174). -/
def State.checkImage (s : State) (offset len mode bar : Nat) (img : List Byte) : Verdict LathLoad :=
  if !headerOk img len then .reject reasonBadHeader noRecord
  else
    let il := leAt 12 4 img
    let n := leAt 16 2 img
    match s.scanRecords (modeRoles mode s.dev) (img.take il) (n - 1) n 0 ⟨64, 0, [], [], s.operatorKeys⟩ with
    | .reject a b => .reject a b
    | .good x =>
      let new := x.recs.map Prod.snd
      match permissionFail x.recs with
      | some f => .reject f.1 f.2
      | none =>
        if !(neededTypes mode s.dev new).all fun t => new.any fun r => r.typ == t then
          .reject reasonIncomplete noRecord
        else if !s.consistent new then .reject reasonInconsistent noRecord
        else .good ⟨offset, len, leAt 20 8 img, new, x.keys, mode, bar⟩

/-- The digest of a role's active records in ascending TYPE order, image order within a type (R59). -/
def roleDigest (role : Nat) (recs : List LathRec) : BitVec 384 :=
  Config.sha384 (sectionTable.flatMap fun row =>
    (recs.filter fun r => r.role == role && r.typ == row.typ).flatMap LathRec.bytes)

end Sys2Proof.Machine
end

