-- ==== Sys2Proof/Machine/Rx.lean ====
section
/-! DEFINITION. Receive paths (chapter 04): gain and AGC, back-off, the causes that mark samples, the marks of symbols,
and the synchronising reset. -/

namespace Sys2Proof.Machine

/-! ## Marks (R130 to R133) -/

/-- Mark `n` samples of one path from the next sample on, and set the status bit that shows it. -/
def State.markPath (s : State) (p : Nat) (c : SpanCause) (n : Nat) (f : Nat → Fld) : State :=
  (s.addSpan p p none c s.pathSample (some (s.pathSample + n))).setF (f p) 1

/-- The number of path samples that enter one carrier sample of D = 2^m (R128). -/
def spanSamples : Nat → Nat
  | 0 => 24
  | 1 => 65
  | 2 => 147
  | 3 => 311
  | 4 => 639
  | 5 => 1295
  | 6 => 2607
  | _ => 5231

/-- Whether a span marks a sample of path `p` in carrier `c`'s stream between path samples `a` and `b`. -/
def Span.meets (x : Span) (p c a b : Nat) : Bool :=
  decide (x.lo ≤ p) && decide (p ≤ x.hi) && decide (x.first ≤ b) &&
    (match x.stop with | none => true | some e => decide (a < e)) &&
    (match x.carrier with | none => true | some k => k == c)

/-- The path sample after the last that enters a symbol, by its decimation 2^m (R129). -/
def SymLatch.reachEnd (x : SymLatch) : Nat :=
  x.start + x.span + spanSamples x.log2D - spanSamples x.log2D / 2 - 2 ^ x.log2D

/-- Whether a symbol of carrier `c` is marked for a path (R129, R132, R133). A path that is not ACTIVE has a run of invalid
samples that is open, unless it was never ACTIVE. -/
def State.symbolMarked (s : State) (c : Nat) (x : SymLatch) (p : Nat) : Bool :=
  let first := x.start - spanSamples x.log2D / 2
  (!s.rx.active.contains p && !s.rx.spans.any fun y => y.cause == .notActive && y.lo == p && y.stop.isNone) ||
    s.rx.spans.any fun y => y.meets p c first (x.reachEnd - 1)

/-- The paths that a symbol of carrier `c` marks. -/
def State.markedPaths (s : State) (c : Nat) (x : SymLatch) : List Nat :=
  (List.range 64).filter (s.symbolMarked c x)

/-- The paths that were ACTIVE in a symbol, at its start or from a later instant of it on (R134, R135). -/
def State.activeIn (s : State) (x : SymLatch) : List Nat :=
  (List.range 64).filter fun p => x.active.contains p || s.rx.spans.any fun y =>
    y.cause == .notActive && y.lo == p && match y.stop with
      | some e => decide (x.start < e) && decide (e ≤ x.start + x.span)
      | none => false

/-- The path sample from which spans can still enter a symbol that is latched. -/
def State.spansFrom (s : State) : Nat :=
  ((s.spectral.latched.flatMap fun y => y.2).map SymLatch.start).foldl min s.pathSample - 8192

/-- Forget spans that can no longer enter a symbol. -/
def State.pruneSpans (s : State) : State :=
  { s with rx := { s.rx with spans := s.rx.spans.filter fun x =>
      match x.stop with | none => true | some e => decide (s.spansFrom < e) } }

/-- Add 1 to RX_EXCLUDED of every path that a symbol of carrier `c` marks, but for the paths that were FENCED, or without
a DFE domain that is On, as it began (R135, R137). -/
def State.countExcluded (s : State) (c : Nat) (x : SymLatch) : State :=
  if !x.extracted then s
  else s.each (List.range 64) fun s p =>
    if !x.fenced.contains p && s.symbolMarked c x p then
      s.addSat (Reg.rxExcludedCount p) 1
    else s

/-! ## Gain (R117 to R124) -/

/-- The index that acts for an index asked for (R119). -/
def State.gainIndex (s : State) (p i : Nat) : Nat :=
  let lo := s.getF (Reg.rxAgcMinIndex p)
  let hi := s.getF (Reg.rxAgcMaxIndex p)
  if hi < lo then lo else if i < lo then lo else if hi < i then hi else i

/-- Make an index active; a change is a gain step, which marks 24 samples (R119, R130). -/
def State.setGain (s : State) (p i : Nat) : State :=
  let v := s.gainIndex p i
  if s.getF (Reg.rxGainIndexActive p) = v then s
  else (s.setF (Reg.rxGainIndexActive p) v).markPath p .gainStep 24 Reg.rxStatusGainStep

/-- The index that the AGC asks for from the fret's peak (R121). -/
def agcIndex (target last active : Nat) : Nat :=
  let e : Int := if last = 255 then -6 else (target : Int) - (last : Int)
  let i : Int := if 2 ≤ e then active + e else if e ≤ -2 then active + max e (-6) else active
  i.toNat

/-- One AGC step of a path (R121). -/
def State.agc (s : State) (p : Nat) : State :=
  s.setGain p (agcIndex (s.getF (Reg.rxAgcTarget p)) (s.getF (Reg.rxPeakLast p)) (s.getF (Reg.rxGainIndexActive p)))

/-- The active index of a path in AGC_MODE 0 outside a back-off (R120, R123). -/
def State.manualGain (s : State) (p : Nat) : State := s.setGain p (s.getF (Reg.rxGainIndex p))

/-- A write of MIN_INDEX or MAX_INDEX acts on the active index at once (R119). -/
def State.limitGain (s : State) (p : Nat) : State :=
  if s.getF (Reg.rxCtrlAgcMode p) = 0 ∧ !s.rx.backedOff.contains p then s.manualGain p
  else s.setGain p (s.getF (Reg.rxGainIndexActive p))

/-- The peaks of the fret just ended: RX_PEAK.LAST of the paths listed, 0xFF of the others (R121). -/
def State.setPeaks (s : State) (peaks : List (Nat × Nat)) : State :=
  s.each (List.range 64) fun s p => s.setF (Reg.rxPeakLast p) (mapGet 255 p peaks)

/-- The gain of every path at a fret boundary, after the commit (R121, R123); a path that the commit took to AGC_MODE 1
has had its computation there (R122). `old` is the state before the commit. -/
def State.fretGain (s old : State) : State :=
  let s := s.each (List.range 64) fun s p =>
    if s.getF (Reg.rxCtrlAgcMode p) = 1 then (if old.getF (Reg.rxCtrlAgcMode p) = 0 then s else s.agc p)
    else if s.rx.backedOff.contains p then s.manualGain p else s
  { s with rx := { s.rx with backedOff := [] } }

/-- Quantiser saturation for 4 modulator clocks: at most one back-off per path and fret (R123, R124). The saturation
and the step are one instant of the model, so the samples between them are those that the step marks. -/
def State.overload (p : Nat) (s : State) : State :=
  if s.domain (dfeOf (halfOf p)) != .on || !s.analogOn (halfOf p) then s
  else
    let s := s.setF (Reg.rxStatusOverload p) 1
    if !s.flag (Reg.rxCtrlOvlBackoffEn p) || s.rx.backedOff.contains p then s
    else
      let s := s.setF (Reg.rxStatusBackoff p) 1
      let s := { s with rx := { s.rx with backedOff := insertOnce p s.rx.backedOff } }
      let s := s.addSpan p p none .backOff s.pathSample (some (s.pathSample + 1))
      s.setGain p (s.getF (Reg.rxGainIndexActive p) + 6)

/-! ## What a commit changes in the receive paths (R120, R122, R127, R128, R130) -/

/-- The active gain, filter and IF settings follow a commit; `old` is the state before it. -/
def State.rxCommit (s old : State) : State :=
  let s := s.each (List.range 64) fun s p =>
    let m0 := old.getF (Reg.rxCtrlAgcMode p)
    let m1 := s.getF (Reg.rxCtrlAgcMode p)
    let s :=
      if m1 = 0 then
        if m0 = 1 || (old.getF (Reg.rxGainIndex p) != s.getF (Reg.rxGainIndex p)) then s.manualGain p else s
      else if m0 = 0 then s.agc p else s
    if s.getF (Reg.rxFilterSel p) = s.getF (Reg.rxFilterSelActive p) then s
    else (s.setF (Reg.rxFilterSelActive p) (s.getF (Reg.rxFilterSel p))).markPath p .filterChange 160
      Reg.rxStatusFilterChange
  let s := s.each (List.range 4) fun s c =>
    if old.getF (Reg.rxcCtrlEnable c) = s.getF (Reg.rxcCtrlEnable c) ∧
      old.getF (Reg.rxcCtrlLog2D c) = s.getF (Reg.rxcCtrlLog2D c) then s
    else
      (s.addSpan 0 63 (some c) .decimation s.pathSample (some (s.pathSample + 160))).each (List.range 64)
        fun s p => s.setF (Reg.rxStatusFilterChange p) 1
  s.each [0, 1] fun s h =>
    if old.getF (Reg.rxIfFtw h) = s.getF (Reg.rxIfFtw h) then s
    else
      (s.addSpan (32 * h) (32 * h + 31) none .retune s.pathSample (some (s.pathSample + 96))).eachPathOf h
        fun s p => s.setF (Reg.rxStatusRetune p) 1

/-! ## The synchronising reset (R125, R139) -/

/-- A synchronising reset of a path's receive decimator: 64 outputs are invalid (R130). -/
def State.syncPath (s : State) (p : Nat) : State := s.markPath p .syncReset 64 Reg.rxStatusSyncReset

/-- A synchronising reset of every path of a half (R125). -/
def State.syncHalf (s : State) (h : Nat) : State := s.eachPathOf h State.syncPath

/-- A 64-bit path mask in two argument words. -/
def State.maskArg (s : State) (i : Nat) : Nat := s.argW i + 2 ^ 32 * s.argW (i + 1)

/-- A mask as two result words. -/
def maskWords (m : Nat) : List Nat := [m % 2 ^ 32, m / 2 ^ 32 % 2 ^ 32]

/-- RX_SYNC (0x64): it waits for the next fret boundary. -/
def rxSyncSpec : CmdSpec where
  opcode := 0x64
  states := lathedUp
  role := roleIO
  argOk _ := true
  classes := []
  usesPath := true
  run _ s := { s with job := some (.rxSync (s.maskArg 0)) }

/-- A waiting RX_SYNC at a fret boundary: READY and ACTIVE paths of its mask are reset, the others are skipped. -/
def State.rxSyncFret (s : State) : State :=
  match s.job with
  | some (.rxSync m) =>
    let l := (maskList 64 m).filter fun p => s.path p == pathReady || s.path p == pathActive
    (s.each l State.syncPath).completeDone (maskWords (listMask l))
  | _ => s

/-- RX_SYNC. -/
def execRxSync (p : Port) (s : State) : Outcome := act (s.framed p) (rxSyncSpec.issue p)
/-- OVERLOAD_BACKOFF. -/
def execOverloadBackoff (p : Fin 64) (s : State) : Outcome := act s (State.overload p.val)

end Sys2Proof.Machine
end

