-- ==== Sys2Proof/Machine/Signal.lean ====
section
/-! DEFINITION. The sample arithmetic of the chains (chapters 04, 05 and 07): corrections that move, gain compensation,
the carrier sum, crest reduction, tones, pre-distortion, DAC codes and the transforms. The spec gives no response of an
interpolator or of the DC estimator: what comes out of one is an operand of the command that brings the samples. -/

namespace Sys2Proof.Machine

/-! ## Signed 1.15 (R145) -/

/-- A sample saturated to signed 1.15. -/
def sat15 (x : Sample) : Sample := (satSigned 16 x.1, satSigned 16 x.2)

/-- A stage's output: its samples saturated, and how many of them saturated. -/
def saturate (l : List Sample) : List Sample × Nat := (l.map sat15, (l.filter fun x => sat15 x != x).length)

/-- The sum of two samples. -/
def addSample (x y : Sample) : Sample := (x.1 + y.1, x.2 + y.2)

/-- The product of two complex values. -/
def mulSample (x y : Sample) : Sample := (x.1 * y.1 - x.2 * y.2, x.1 * y.2 + x.2 * y.1)

/-- A sample divided by 2^n, half up. -/
def shiftSample (n : Nat) (x : Sample) : Sample := (roundDiv x.1 (2 ^ n), roundDiv x.2 (2 ^ n))

/-- The squared magnitude. -/
def normSq (x : Sample) : Nat := (x.1 * x.1 + x.2 * x.2).toNat

/-- The magnitude of a sample, 65 binary places below its unit. -/
def modulus65 (x : Sample) : Nat := Nat.sqrt (normSq x * 2 ^ 130)

/-! ## Corrections that move over 256 samples (R126, R156) -/

/-- The value to which a correction moves, in units of 2^-15: receive image and DC under their enables, transmit image and
DC as the registers give them. -/
def State.rampTarget (s : State) (kind p : Nat) : Sample :=
  let part (f : Fld) : Int := toSigned 16 (s.getF f)
  match kind with
  | 0 => if s.flag (Reg.rxCtrlImageEn p) then (part (Reg.rxImageBetaRe p), part (Reg.rxImageBetaIm p)) else (0, 0)
  | 1 => if s.flag (Reg.rxCtrlDcEn p) then (32768, 0) else (0, 0)
  | 2 => (part (Reg.txImageBetaRe p), part (Reg.txImageBetaIm p))
  | _ => (part (Reg.txDcDcI p), part (Reg.txDcDcQ p))

/-- The value in force of a correction at a tick, in units of 2^-23. A sample is 4 ticks in the receive chain and one in
the transmit chain. -/
def State.correction (s : State) (kind p tick : Nat) : Sample :=
  let t := s.rampTarget kind p
  match s.rx.ramps.find? fun r => r.kind == kind && r.path == p with
  | none => (256 * t.1, 256 * t.2)
  | some r =>
    let k := min 256 ((tick - r.tick) / if kind < 2 then 4 else 1)
    (r.re + roundDiv ((256 * t.1 - r.re) * k) 256, r.im + roundDiv ((256 * t.2 - r.im) * k) 256)

/-- A write changed a correction of a path: it moves to its new value from the one in force. `old` is the state before
the write. -/
def State.rampFrom (s old : State) (p : Nat) : State :=
  s.each (List.range 4) fun s kind =>
    if s.rampTarget kind p = old.rampTarget kind p then s
    else
      let v := old.correction kind p old.drone.ticks
      let rest := s.rx.ramps.filter fun r => !(r.kind == kind && r.path == p)
      { s with rx := { s.rx with ramps := rest ++ [⟨kind, p, v.1, v.2, s.drone.ticks⟩] } }

/-- x + β conj(x), in units of x times 2^-23. -/
def imageOf (beta x : Sample) : Sample :=
  let y := mulSample beta (x.1, -x.2)
  (x.1 * 2 ^ 23 + y.1, x.2 * 2 ^ 23 + y.2)

/-! ## The receive path (R118, R126, R469) -/

/-- The gain table of a path in 0.01 dB: that of its last RX_GAIN, or else the maker's trims (R118, R428). -/
def State.gainTable (s : State) (p : Nat) : List Int :=
  ((s.cal.gains.find? fun x => x.1 == p).map Prod.snd).getD (Config.gainTrim p)

/-- The gain compensation of a path in 0.0001 dB: its active index, its gain table and its temperature factor. -/
def State.rxGain (s : State) (p : Nat) : Int :=
  let i := s.getF (Reg.rxGainIndexActive p)
  let table := s.gainTable p
  10000 * (i : Int) + 100 * table.getD i 0 + s.mon.comp.getD (halfOf p) 0

/-- The output of a path, compensated by a gain in 0.0001 dB, for a sample of its decimator and the DC estimated at it, in
units of 2^-17: signed 7.17. -/
def State.rxAt (s : State) (gain : Int) (p tick : Nat) (x dc : Sample) : Sample :=
  let f := (s.correction 1 p tick).1
  let u : Sample := (x.1 * 2 ^ 23 - f * dc.1, x.2 * 2 ^ 23 - f * dc.2)
  let y := imageOf (s.correction 0 p tick) u
  let g := dbFine gain
  (satSigned 24 (roundDiv (y.1 * g) (2 ^ 126)), satSigned 24 (roundDiv (y.2 * g) (2 ^ 126)))

/-- The output of a path at its present gain. -/
def State.rxSample (s : State) (p tick : Nat) (x dc : Sample) : Sample := s.rxAt (s.rxGain p) p tick x dc

/-! ### Channel filter and carrier extraction (R115, R127 to R129) -/

/-- Tap `t` of filter set `set` of a half, in units of 2^-16. -/
def State.firTap (s : State) (h set t : Nat) : Int :=
  toSigned 18 (s.getF (if t = 0 then Reg.rxFir0Coef h set else Reg.rxFirTCoef h set (t - 1)))

/-- The channel filter over samples that begin 63 before its first output: y(n) is the sum of tap t times x(n - t). Of
samples in units of 2^-17, outputs in units of 2^-33 (R127). -/
def firRun (tap : Nat → Int) (x : List Sample) : List Sample :=
  (List.range (x.length - 63)).map fun j => (List.range 64).foldl (fun y t =>
    let v := x.getD (j + 63 - t) (0, 0)
    (y.1 + tap t * v.1, y.2 + tap t * v.2)) (0, 0)

/-- The path sample that enters a symbol first (R129). -/
def SymLatch.reachStart (y : SymLatch) : Nat := y.start - spanSamples y.log2D / 2

/-- The phase at a path sample of the translation of carrier `c` by -(IF + OFFSET), in 2^-64 of a turn; the spec gives it
no start (R115, log 200). -/
def SymLatch.shiftTurn (y : SymLatch) (c h k : Nat) : Int :=
  let f := y.freq.getD h 0
  (Config.freeOf 115 [c, h, ofSigned 32 f] % 2 ^ 64 : Nat) - f * 2 ^ 32 * k

/-- A path's channel, compensated, filtered and translated to zero frequency, from the path sample that enters the symbol
first, in units of 2^-49. `r` begins 63 samples before it. -/
def State.translated (s : State) (c : Nat) (y : SymLatch) (p : Nat) (r : RxRun) : List Sample :=
  let h := halfOf p
  let first := y.reachStart
  let x := ((List.range r.main.length).zip r.main).map fun v =>
    s.rxAt (y.gain.getD p 0) p (4 * (first + v.1 - 63)) v.2 (r.dc.getD v.1 (0, 0))
  let z := firRun (s.firTap h (bit (y.setB.contains p))) x
  ((List.range z.length).zip z).map fun v =>
    let t := y.shiftTurn c h (first + v.1)
    shiftSample 64 (mulSample v.2 (cosTurn t, sinTurn t))

/-- The carrier samples of a symbol that a path's channel gives: sample k comes from the S_D path samples that R129 names.
The response of the decimators is the part's own; units of 2^-32. -/
def State.carrierStream (s : State) (c : Nat) (y : SymLatch) (p : Nat) (r : RxRun) : List Sample :=
  let z := s.translated c y p r
  if z.isEmpty then []
  else (List.range (y.span / 2 ^ y.log2D)).map fun k =>
    Config.decimated y.log2D ((z.drop (2 ^ y.log2D * k)).take (spanSamples y.log2D))

/-- The carrier samples of a symbol, by path. -/
def State.carrierStreams (s : State) (c : Nat) (y : SymLatch) (runs : List RxRun) : List (List Sample) :=
  (List.range 64).map fun p => match runs[p]? with
    | some r => s.carrierStream c y p r
    | none => []

/-! ## Settings in force (R143) -/

/-- The value in force at the chain of a path-wide setting. -/
def State.inForce (s : State) (f : Fld) : Nat := mapGet f.rst f.key s.tx.inForce

/-! ## The carrier sum and attenuation (R142, R144, R469) -/

/-- The sum of a path's carriers over a stretch that ends now: in each sample of those that then were enabled and had had a
symbol start since they restarted. -/
def State.carrierSum (s : State) (carriers : List (List Sample)) : List Sample :=
  let n := (carriers.map List.length).foldl max 0
  (List.range n).map fun i =>
    (s.viewAt (s.drone.ticks - 4 * (n - i))).carriers.foldl (fun y c => addSample y ((carriers.getD c []).getD i (0, 0)))
      (0, 0)

/-- The gain of a path's carrier sum in 0.0001 dB: ATTEN_ACTIVE, and its tile's temperature factor in force. -/
def State.sumGain (s : State) (p : Nat) : Int :=
  s.tx.comp.getD (p / 8) 0 - 2500 * (s.getF (Reg.txAttenAttenActive p) : Nat)

/-! ## Crest reduction (R146, R147) -/

/-- The tap t of pulse set k of a path's half, in units of 2^-15. -/
def State.pulseTap (s : State) (p k t : Nat) : Sample :=
  let h := halfOf p
  let f : Fld × Fld :=
    if t < 63 then (Reg.cfrPulseARe h k t, Reg.cfrPulseAIm h k t)
    else if t = 63 then (Reg.cfrPulseMRe h k, Reg.cfrPulseMIm h k)
    else (Reg.cfrPulseBRe h k (t - 64), Reg.cfrPulseBIm h k (t - 64))
  (toSigned 16 (s.getF f.1), toSigned 16 (s.getF f.2))

/-- The places of the local maxima of |z| above a threshold, in time order, among the samples of which both neighbours are
known; of equal neighbours the first counts. -/
def peaksAbove (t : Nat) (z : List Sample) : List Nat :=
  let m (j : Nat) : Nat := normSq (z.getD j (0, 0))
  (List.range (z.length - 1)).filter fun j =>
    decide (0 < j) && decide (t * t < m j) && decide (m (j - 1) < m j) && decide (m (j + 1) ≤ m j)

/-- The sample of x nearest to a place of its 2x interpolated copy; half-way between two it is either (log 179). -/
def nearestSample (j : Nat) : Nat := if j % 2 = 0 then j / 2 else j / 2 + Config.freeOf 146 [j] % 2

/-- The excess of a peak over the threshold, at the peak's phase, in units of 2^-80. -/
def excess (t : Nat) (z : Sample) : Sample :=
  let part (v : Int) : Int := v * 2 ^ 65 - t * v * 2 ^ 130 / (modulus65 z : Nat)
  (part z.1, part z.2)

/-- A pulse of set `k` taken off around place `q`, from place `lo` on. -/
def State.takePulse (s : State) (p k : Nat) (q : Int) (g : Sample) (lo : Nat) (x : List Sample) : List Sample :=
  ((List.range x.length).zip x).map fun y =>
    let t : Int := y.1 + 63 - q
    if y.1 < lo ∨ t < 0 ∨ 126 < t then y.2
    else
      let d := shiftSample 80 (mulSample g (s.pulseTap p k t.toNat))
      (y.2.1 - d.1, y.2.2 - d.2)

/-- What a crest-reduction stage of a path keeps; before its first samples, nothing but zeros. -/
def State.cfrMem (s : State) (p k : Nat) : CfrMem :=
  (s.tx.cfr.find? fun x => x.path == p && x.stage == k).getD ⟨p, k, List.replicate 63 (0, 0), [], [], [(0, 0), (0, 0)]⟩

/-- A crest-reduction stage at work over a stretch: the 63 samples before it and its own, the pulses to go on, and the
centres of the peaks cancelled, latest first, by their place in these samples. -/
structure CfrWork where
  x : List Sample
  pulses : List (Int × Nat × Sample)
  centres : List Int
  deriving DecidableEq, Repr

/-- A crest-reduction stage over a stretch `x` with its doubled copy `z`: what it keeps, the samples that it is done with,
which are as many and lie 63 samples back, and how many peaks it cancelled (R146). -/
def State.cfrStage (s : State) (p t : Nat) (m : CfrMem) (x z : List Sample) : CfrMem × List Sample × Nat :=
  let k := s.getF (Reg.txCfrPulseActive p)
  let n := x.length
  let z := m.ends ++ z
  let old : CfrWork := ⟨m.pulses.foldl (fun y v => s.takePulse p v.2.1 (v.1 + 63) v.2.2 63 y) (m.tail ++ x),
    m.pulses.map fun v => (v.1 + 63, v.2), m.recent.map (· + 63)⟩
  let w := (peaksAbove t z).foldl (fun (a : CfrWork) j =>
    let q : Int := 62 + nearestSample j
    if 4 ≤ (a.centres.filter fun c => decide (q < c + 64)).length then a
    else
      let g := excess t (z.getD j (0, 0))
      ⟨s.takePulse p k q g 0 a.x, a.pulses ++ [(q, k, g)], q :: a.centres⟩) old
  let back (q : Int) : Int := q - 63 - n
  (⟨p, m.stage, w.x.drop n, (w.pulses.map fun v => (back v.1, v.2)).filter fun v => decide (-63 ≤ v.1),
    (w.centres.map back).filter fun c => decide (-65 < c), z.drop (z.length - 2)⟩,
   w.x.take n, w.centres.length - old.centres.length)

/-- What a chain measured of a stretch: saturated samples, peaks cancelled, and peaks left. -/
structure ChainCount where
  saturated : Nat
  cancelled : Nat
  residual : Nat
  deriving DecidableEq, Repr

/-- The crest reduction of a path over a stretch, by the settings in force (R146, R148): what it counts, and what its stages
keep. -/
def State.cfr (s : State) (p : Nat) (x : List Sample) (doubled : List (List Sample)) : ChainCount × List CfrMem :=
  if s.inForce (Reg.txCtrlCfrEn p) = 0 then (⟨0, 0, 0⟩, [])
  else
    let t := s.inForce (Reg.txCfrThreshold p)
    let n := s.inForce (Reg.txCfrStages p) + 1
    let r := (List.range n).foldl (fun (a : List Sample × ChainCount × List CfrMem) k =>
      let y := s.cfrStage p t (s.cfrMem p k) a.1 (doubled.getD k [])
      let z := saturate y.2.1
      (z.1, ⟨a.2.1.saturated + z.2, a.2.1.cancelled + y.2.2, 0⟩, a.2.2 ++ [y.1])) (x, ⟨0, 0, 0⟩, [])
    let m := s.cfrMem p 2
    let z := m.ends ++ doubled.getD n []
    ({ r.2.1 with residual := (peaksAbove t z).length }, r.2.2 ++ [{ m with ends := z.drop (z.length - 2) }])

/-! ## The test tone (R160, R161) -/

/-- Entry `i` of the quarter-wave table in signed 1.15. -/
def toneTable (i : Nat) : Int := satSigned 16 (roundDiv (sinTurn ((2 * i + 1) * 2 ^ 51 : Nat)) (2 ^ 65))

/-- The phase of a tone at a tick: a sample is one tick. -/
def Tone.phaseAt (x : Tone) (tick : Nat) : Nat := (x.phase + x.ftw * (tick - x.tick)) % 2 ^ 32

/-- The tone at a phase and an amplitude. -/
def toneAt (ph amp : Nat) : Sample :=
  let i := bits ph 20 10
  let n := toneTable i
  let c := toneTable (1023 - i)
  let v : Sample := match ph / 2 ^ 30 with
    | 0 => (c, n)
    | 1 => (-n, c)
    | 2 => (-c, -n)
    | _ => (n, -c)
  shiftSample 16 (v.1 * amp, v.2 * amp)

/-- The signal with the tone that a path had at a tick: added to it, or in its place. -/
def State.toned (s : State) (p tick : Nat) (x : Sample) : Sample :=
  match (s.viewAt tick).tones.find? fun y => y.path == p with
  | none => x
  | some y =>
    let t := toneAt (y.phaseAt tick) y.amp
    if y.replaces then t else addSample x t

/-! ## Pre-distortion (R149, R150) -/

/-- The coefficients of a bank, in units of 2^-12. -/
def State.dpdCoefs (s : State) (p b : Nat) : List Sample :=
  (toSigned 16 (s.getF (Reg.dpd0Re p b)), toSigned 16 (s.getF (Reg.dpd0Im p b))) ::
    (List.range 39).map fun j => (toSigned 16 (s.getF (Reg.dpdIRe p b j)), toSigned 16 (s.getF (Reg.dpdIIm p b j)))

/-- The terms in the order of their coefficients: the delay of the sample, that of the sample whose magnitude weighs it,
and the power of that magnitude. -/
def dpdTerms : List (Int × Int × Nat) :=
  (List.range 25).map (fun i => (((i / 5 : Nat) : Int), ((i / 5 : Nat) : Int), i % 5)) ++
  (List.range 9).map (fun i => (((i / 3 : Nat) : Int), ((i / 3 : Nat) : Int) + 1, i % 3 + 1)) ++
  (List.range 6).map fun i => (((i / 2 : Nat) : Int), ((i / 2 : Nat) : Int) - 1, i % 2 + 1)

/-- The `e`-th power of the magnitude of a sample in signed 1.15, in units of 2^-320. -/
def modulusPower (x : Sample) (e : Nat) : Int :=
  ((normSq x ^ (e / 2) * (if e % 2 = 1 then modulus65 x else 1) * 2 ^ (320 - 15 * e - 65 * (e % 2)) : Nat) : Int)

/-- One output sample: `at` gives x(n - m) for the delay m. The sum stands in units of 2^-347, before it is rounded. -/
def dpdSum (coefs : List Sample) (at_ : Int → Sample) : Sample :=
  (dpdTerms.zip coefs).foldl (fun y t =>
    if t.2 = (0, 0) then y
    else
      let m := modulusPower (at_ t.1.2.1) t.1.2.2
      let v := mulSample t.2 (at_ t.1.1)
      addSample y (v.1 * m, v.2 * m)) (0, 0)

/-- The pre-distorter over a list that begins five samples before its stretch and ends one after it (R149). -/
def dpdRun (coefs : List Sample) (l : List Sample) : List Sample :=
  (List.range (l.length - 6)).map fun (j : Nat) =>
    shiftSample 332 (dpdSum coefs fun m => l.getD (5 + (j : Int) - m).toNat (0, 0))

/-! ## Image, leakage and the DAC (R156, R157, R159) -/

/-- Image and leakage correction of a transmit sample at a tick, before it saturates. -/
def State.txCorrect (s : State) (p tick : Nat) (x : Sample) : Sample :=
  let y := if s.flag (Reg.txCtrlImageEn p) then imageOf (s.correction 2 p tick) x else (x.1 * 2 ^ 23, x.2 * 2 ^ 23)
  let d : Sample := if s.flag (Reg.txCtrlDcEn p) then s.correction 3 p tick else (0, 0)
  shiftSample 23 (y.1 + d.1 * 2 ^ 15, y.2 + d.2 * 2 ^ 15)

/-- The DAC code of a value in units of 2^-15. -/
def dacCode (v : Int) : Nat := (clampInt 0 16383 (8192 + roundDiv v 4)).toNat

/-- The codes that a path's DAC takes for the samples ahead of it, two to a tick, of which the last comes now: 8,192 for
those at which the mute switch was open and no calibration drove it (R159). -/
def State.dacCodes (s : State) (p : Nat) (l : List Sample) : List (Nat × Nat) :=
  ((List.range l.length).zip l).map fun x =>
    if (s.viewAt (s.drone.ticks - (l.length - x.1 + 1) / 2)).live.contains p then (dacCode x.2.1, dacCode x.2.2)
    else (8192, 8192)

/-! ## The chain (R142 to R161) -/

/-- The pre-distorter's input over a stretch that ends at the present tick: the interpolated signal with its tone, from
the fifth sample before the stretch to the first after it, and how many of the stretch's samples saturated. -/
def State.dpdInput (s : State) (p : Nat) (wide : List Sample) : List Sample × Nat :=
  let n := wide.length - 6
  let a := saturate ((wide.drop 5).take n)
  let t := ((List.range wide.length).zip wide).map fun y =>
    s.toned p (s.drone.ticks + y.1 - (n + 5)) (sat15 y.2)
  (t.map sat15, a.2 + (saturate ((t.drop 5).take n)).2)

/-- What a path's chain does over a stretch that ends now: what it counts, the samples ahead of the DAC, and what its crest
reduction keeps. -/
def State.txChain (s : State) (r : TxRun) : ChainCount × List Sample × List CfrMem :=
  let p := r.path.val
  let sum := saturate (s.carrierSum r.carriers)
  let g := dbFine (s.sumGain p)
  let x := saturate (sum.1.map fun v => shiftSample 80 (v.1 * g, v.2 * g))
  let c := s.cfr p x.1 r.doubled
  let w := s.dpdInput p r.wide
  let n := r.wide.length - 6
  let y := saturate (if s.inForce (Reg.txCtrlDpdEn p) = 1 then
      dpdRun (s.dpdCoefs p (s.getF (Reg.txDpdBankActive p))) w.1
    else (w.1.drop 5).take n)
  let z := saturate (((List.range n).zip y.1).map fun v => s.txCorrect p (s.drone.ticks + v.1 - n) v.2)
  let d := saturate r.dac
  ({ c.1 with saturated := sum.2 + x.2 + c.1.saturated + w.2 + y.2 + z.2 + d.2 }, d.1, c.2)

/-- Count saturated samples of a path (R145). -/
def State.countSaturated (s : State) (p n : Nat) : State :=
  if n = 0 then s else (s.addSat (Reg.txSatCountCount p) n).setF (Reg.txStatusSaturated p) 1

/-- A path's chain works through a stretch: what it counts is added, and the codes go to the DAC (R145, R146, R157). -/
def State.txRun (s : State) (r : TxRun) : State :=
  let p := r.path.val
  if s.domain (dfeOf (halfOf p)) != .on then s
  else
    let c := s.txChain r
    let s := { s with tx := { s.tx with cfr := s.tx.cfr.filter (fun (x : CfrMem) => x.path != p) ++ c.2.2 } }
    let s := s.countSaturated p c.1.saturated
    let s := (s.addSat (Reg.txCfrCountCancelled p) c.1.cancelled).addSat (Reg.txCfrCountResidual p) c.1.residual
    let s := s.when (0 < c.1.residual) fun s => s.setF (Reg.txStatusCfrResidual p) 1
    if !s.analogOn (halfOf p) then s
    else { s with out := { s.out with dac := s.out.dac ++ [(p, s.dacCodes p c.2.1)] } }

/-! ## Transforms (R212 to R216) -/

/-- Symbols per slot, and the first prefix in units of N / 128, of an SCS code. -/
def slotShape : Nat → Nat × Nat
  | 0 => (7, 10)
  | 1 => (7, 10)
  | _ => (14, 11)

/-- The length of the cyclic prefix of symbol `l` of a slot. -/
def prefixLength (scs n l : Nat) : Nat := (if l = 0 then (slotShape scs).2 else 9) * (n / 128)

/-- The FFT bin of the `i`-th occupied subcarrier, sc = i - 6 P (R212). -/
def binOf (n prbs i : Nat) : Nat := (i + n - 6 * prbs) % n

/-- e^(j 2 π k / n), in units of 2^-80, for a power of two `n`. -/
def rootOf (n k : Nat) : Sample :=
  let t : Int := (k % n * (2 ^ 64 / n) : Nat)
  (cosTurn t, sinTurn t)

/-- The bin of the `i`-th occupied subcarrier of a symbol's samples, prefix first, in units of 2^-32 (R215): the N
samples begin `adv` before the prefix ends, and the slope that this leaves is undone. In units of 2^-128. -/
def uplinkBin (scs n prbs sym shift adv i : Nat) (x : List Sample) : Sample :=
  let k := binOf n prbs i
  let first := prefixLength scs n sym - adv
  let y := ((List.range n).zip ((x.drop first).take n)).foldl (fun y v =>
    addSample y (mulSample v.2 (rootOf n (k * (adv + (n - v.1)))))) (0, 0)
  (y.1 * 2 ^ (16 - shift), y.2 * 2 ^ (16 - shift))

/-- Sample `i` of the symbol of a path's occupied bins in units of 2^-31, before it is rounded, in units of
2^-(111 + DL_SHIFT) (R216). Bins outside the occupied subcarriers carry zero. -/
def downlinkSum (n prbs i : Nat) (bins : List Sample) : Sample :=
  ((List.range bins.length).zip bins).foldl (fun y v => addSample y (mulSample v.2 (rootOf n (binOf n prbs v.1 * i)))) (0, 0)

/-- The symbol of a path's occupied bins: prefix and N samples in signed 1.15, and how many of the N saturated (R216). -/
def downlinkSymbol (scs n prbs sym shift : Nat) (bins : List Sample) : List Sample × Nat :=
  let x := saturate ((List.range n).map fun i => shiftSample (96 + shift) (downlinkSum n prbs i bins))
  (x.1.drop (n - prefixLength scs n sym) ++ x.1, x.2)

end Sys2Proof.Machine
end

