-- ==== Sys2Proof/Machine/Tx.lean ====
section
/-! DEFINITION. Transmit paths (chapter 05): settings that follow the timing carrier, DPD banks and adaptation, tones,
observation receivers and capture channels. -/

namespace Sys2Proof.Machine

/-! ## Settings that take effect at timing-carrier symbol starts (R143, R144, R148) -/

/-- The ATTEN_ACTIVE that a path's settings call for: ATTEN, at least MIN_ATTEN, raised by the thermal action of the
half and by sag stage 2 (R144, R467, R470). -/
def State.attenTarget (s : State) (p : Nat) : Nat :=
  let base := max (s.getF (Reg.txAttenAtten p)) (s.getF (Reg.txLimitMinAtten p))
  let act := s.flag (if halfOf p = 0 then Reg.thermalStatusWestAct else Reg.thermalStatusEastAct)
  let heat := if act then s.getF Reg.thermalActAtten else 0
  let sag := if 2 ≤ s.getF Reg.sagStatusStage then s.getF Reg.sagCtrlSagAtten else 0
  min 255 (base + heat + sag)

/-- Bring a path-wide setting into force. -/
def State.force (s : State) (f : Fld) : State :=
  { s with tx := { s.tx with inForce := mapSet f.rst f.key (s.getF f) s.tx.inForce } }

/-- Make the requested bank active (R153). -/
def State.switchBank (s : State) (p : Nat) : State :=
  if !s.flag (Reg.txDpdPending p) then s
  else
    let s := (s.setF (Reg.txDpdBankActive p) (s.getF (Reg.txDpdReqBank p))).setF (Reg.txDpdPending p) 0
    ((s.addWrap (Reg.txDpdSwitches p) 1).setF (Reg.txStatusDpdSwitched p) 1).raise 39

/-- A path's transmit settings take effect (R143): attenuation, crest reduction, pre-distortion and the bank switch. -/
def State.applyTx (s : State) (p : Nat) : State :=
  let s := s.setF (Reg.txAttenAttenActive p) (s.attenTarget p)
  let s := s.setF (Reg.txCfrPulseActive p) (s.getF (Reg.txCfrPulseSel p))
  let s := [Reg.txCfrThreshold p, Reg.txCfrStages p, Reg.txCtrlCfrEn p, Reg.txCtrlDpdEn p].foldl State.force s
  s.switchBank p

/-- Every path's settings take effect, and the temperature factors of the carrier sums (R469). -/
def State.applyTxAll (s : State) : State :=
  let t := s.each (List.range 64) State.applyTx
  { t with tx := { t.tx with comp := (List.range 8).map fun k => t.mon.comp.getD (2 + k) 0 } }

/-- A trigger of path-wide settings: without a transmit carrier they take effect at once (R143). -/
def State.triggerTx (s : State) : State := if s.timingCarrier.isNone then s.applyTxAll else s

/-- Close the mute switches on which no condition holds, at a timing-carrier symbol start (R158). -/
def State.closeMutes (s : State) : State :=
  { s with tx := { s.tx with closed := (List.range 64).filter fun p => !s.muteHolds p } }

/-! ## Banks (R151, R152) -/

/-- The effect of a REQ_BANK value that was written (R151). -/
def State.requestBank (s : State) (p b : Nat) : State :=
  let s := s.setF (Reg.txDpdReqBank p) b
  let s := s.setFlag (Reg.txDpdPending p) (b % 2 != s.getF (Reg.txDpdBankActive p))
  if s.timingCarrier.isNone then s.switchBank p else s

/-- A coefficient write of a bank is refused: the active bank, or the one that PENDING names (R152). -/
def State.bankRefused (s : State) (p b : Nat) : Bool :=
  s.getF (Reg.txDpdBankActive p) == b || (s.flag (Reg.txDpdPending p) && s.getF (Reg.txDpdReqBank p) == b)

/-- Write coefficients of a bank from index 0 on (R150): RE in [15:0], IM in [31:16]. -/
def State.writeBank (s : State) (p b : Nat) (l : List Word) : State :=
  s.each ((List.range 40).zip l) fun s x =>
    let i := x.1
    let v := x.2.toNat
    if i = 0 then (s.setF (Reg.dpd0Re p b) v).setF (Reg.dpd0Im p b) (v / 65536)
    else (s.setF (Reg.dpdIRe p b (i - 1)) v).setF (Reg.dpdIIm p b (i - 1)) (v / 65536)

/-- The firmware writes a bank: each coefficient that R152 refuses is counted. -/
def State.firmwareBank (s : State) (p b : Nat) (l : List Word) : State :=
  if s.bankRefused p b then s.addSat (Reg.txDpdRefusedWrites p) l.length else s.writeBank p b l

/-! ## Adaptation (R154, R155) -/

/-- The observation receiver of a path: that of its quarter (R8). -/
def obsOf (p : Nat) : Nat := p / 16

/-- A path's observation receiver failed its self-test: adaptation and aerial checks skip its quarter (R442). -/
def State.obsBad (s : State) (p : Nat) : Bool := testBit (s.getF Reg.bistStatusObsBad) (obsOf p)

/-- The ACTIVE paths of a mask, in rising order. -/
def State.activePaths (s : State) (m : Nat) : List Nat := (maskList 64 m).filter fun p => s.path p == pathActive

/-! ## Observation receivers (R162 to R164) -/

/-- Change one observation receiver. -/
def State.setObs (s : State) (q : Nat) (f : ObsRx → ObsRx) : State :=
  { s with tx := { s.tx with obs := vecModify s.tx.obs q f } }

/-- A grant holds an observation receiver (R162). -/
def State.obsTaken (s : State) (q : Nat) : Bool :=
  match s.tx.obs[q]? with
  | some x => decide (s.drone.ticks < x.until_)
  | none => false

/-- Put a request into the queue of its receiver; in DOZE it is a need from here on (R94, R98, R164). -/
def State.askObs (s : State) (r : ObsReq) : State :=
  (s.setObs (obsOf r.path) fun x => { x with queue := x.queue ++ [r] }).needAt s.nowNs

/-- The place of a class in the order of service: CAL, DPDADAPT, CAPTURE (R162). -/
def obsRank (c : Nat) : Nat := if c = 5 then 0 else if c = 4 then 1 else 2

/-- Requests in the order of service: class by class, oldest first (R162). -/
def obsOrder (l : List ObsReq) : List ObsReq := [0, 1, 2].flatMap fun k => l.filter fun r => obsRank r.cls == k

/-- A request, or a grant, serves a class for a path through a source. -/
def ObsReq.serves (r : ObsReq) (c p src : Nat) : Bool := r.cls == c && r.path == p && r.source == src

/-- The grains granted to a class for a path and source that its pass has not used. -/
def State.obsHeld (s : State) (c p src : Nat) : Nat :=
  ((s.tx.granted.filter fun r => r.serves c p src).map ObsReq.grains).sum

/-- A pass needs observation time: what it does not hold is requested, at most 62 µs a grant, unless a request of it
waits already (R162). -/
def State.obsNeed (s : State) (c p src n : Nat) : State :=
  let queue := match s.tx.obs[obsOf p]? with | some x => x.queue | none => []
  if n ≤ s.obsHeld c p src ∨ queue.any fun r => r.serves c p src then s
  else s.askObs ⟨c, p, src, min 62 (n - s.obsHeld c p src), p⟩

/-- A capture is that of a class for a path through a source. -/
def ObsStart.serves (x : ObsStart) (c p src : Nat) : Bool := x.cls == c && x.path == p && x.source == src

/-- A pass has used what it was granted. -/
def State.obsSpend (s : State) (c p src : Nat) : State :=
  { s with tx := { s.tx with
    granted := s.tx.granted.filter fun r => !r.serves c p src
    starts := s.tx.starts.filter fun x => !x.serves c p src } }

/-- The tick at which the capture of a pass began, if it has (R205, R435). -/
def State.obsStarted (s : State) (c p src : Nat) : Option Nat :=
  match s.tx.starts.find? fun x => x.serves c p src with
  | some x => x.start
  | none => none

/-- A timing-carrier symbol starts: the captures whose receiver has been granted and has settled begin (R163, R205, R435). -/
def State.obsStarts (s : State) : State :=
  { s with tx := { s.tx with starts := s.tx.starts.map fun x =>
      if x.start.isNone && decide (x.ready ≤ s.drone.ticks) then { x with start := some s.drone.ticks } else x } }

/-- The calibration pass of a path is abandoned with the observation time that it holds and asks for (R434). -/
def State.passLost (s : State) (p : Nat) : State :=
  let s := s.setObs (obsOf p) fun x => { x with queue := x.queue.filter fun r => !(r.cls == 5 && r.path == p) }
  { s with
    tx := { s.tx with
      granted := s.tx.granted.filter fun r => !(r.cls == 5 && r.path == p)
      starts := s.tx.starts.filter fun x => !(x.cls == 5 && x.path == p) }
    cal := { s.cal with
      coupler := s.cal.coupler.filter fun x => x.1 != p
      repeats := s.cal.repeats.filter fun x => x.1 / 2 != p } }

/-! ### The Seam run (R437) -/

/-- The present fret is one of the Seam schedule. -/
def State.seamFret (s : State) : Bool :=
  let p := s.getF Reg.seamCtrlPeriod
  s.flag Reg.calCtrlAutoSeam && p != 0 && s.bar % p == 0 && s.time.fret == s.absFret &&
    s.absFret % 40 == s.getF Reg.seamCtrlFret

/-- The chip is LEAD or FOLLOW. -/
def State.leadOrFollow (s : State) : Bool :=
  s.getF Reg.bridgeRole == roleLead || s.getF Reg.bridgeRole == roleFollow

/-- A Seam run belongs to the present fret (R437). -/
def State.seamHere (s : State) : Bool := s.inLathedUp && s.leadOrFollow && s.seamFret && s.analogWest

/-- A grant of `n` µs from here would keep OBS_0 from the Seam run of the present fret, whose grant lasts from 98 µs to
196 µs after the boundary (R437). -/
def State.seamHolds (s : State) (q n : Nat) : Bool :=
  let f := s.absFret * 250000
  q == 0 && s.seamHere && s.cal.seamRun != some (s.absFret, false) && decide (s.nowNs < f + 196000) &&
    decide (f + 98000 < s.nowNs + 1000 * n)

/-! ### The pass of an adaptation (R154, R155) -/

/-- Set the adaptation that runs. -/
def State.setDpd (s : State) (r : Option DpdRun) : State := { s with tx := { s.tx with dpd := r } }

/-- A pass is over: one pass, or repeated after PERIOD_FRETS. -/
def DpdRun.over (r : DpdRun) : Option DpdRun :=
  if r.repeats then some ⟨r.mask, true, r.period, r.nextFret + r.period, [], false, 0, false, 0⟩ else none

/-- The adaptation leaves a path: what it holds or asks of observation time is dropped, and CAP_7 stops. -/
def State.dpdLeave (s : State) (p : Nat) : State :=
  ((s.obsSpend 4 p 0).setObs (obsOf p) fun x => { x with queue := x.queue.filter fun r => !r.serves 4 p 0 }).setF
    (Reg.capStatusRunning 7) 0

/-- The pass goes on to its next path, or is over. -/
def State.dpdNext (s : State) (r : DpdRun) : State :=
  let s := s.dpdLeave (r.left.headD 0)
  match r.left with
  | _ :: q :: t => s.setDpd (some { r with left := q :: t, fitted := false, taken := false })
  | _ => s.setDpd r.over

/-- The tick from which a path's observation receiver delivers samples (R163). -/
def State.obsReady (s : State) (p : Nat) : Nat :=
  match s.tx.obs[obsOf p]? with
  | some x => x.ready
  | none => 0

/-- The capture of an adaptation begins at the start of a timing-carrier symbol, once its receiver is granted and has
settled (R154, R163). -/
def State.dpdCapture (s : State) : State :=
  match s.tx.dpd with
  | none => s
  | some r =>
    match r.left with
    | [] => s
    | p :: _ =>
      if r.taken || s.obsHeld 4 p 0 < 16 || decide (s.drone.ticks < s.obsReady p) then s
      else s.setDpd (some { r with taken := true, since := s.drone.ticks })

/-- The path of an adaptation was on air over the 16 µs of its capture (R154). -/
def State.dpdClean (s : State) (r : DpdRun) (p : Nat) : Bool :=
  (s.viewsIn r.since (r.since + nsTicks 16000)).all fun v => v.onAir.contains p

/-- The rms of reference samples lies below -30 dBFS. -/
def lowReference (l : List Sample) : Bool := decide (1000 * (l.map normSq).sum < l.length * 2 ^ 30)

/-- What an adaptation does with the capture of its first path: the fit writes the idle bank and requests it; after the
switch the new bank is measured, and taken back if it is worse by more than 1.0 dB. -/
def State.dpdUse (s : State) (r : DpdRun) (p : Nat) (low : Bool) (coefs : List Word) (nmse : Nat) : State :=
  if low then s.dpdNext r
  else if !r.fitted then
    let b := 1 - s.getF (Reg.txDpdBankActive p)
    let s := ((s.setF (Reg.txDpdQualityNmseOld p) nmse).firmwareBank p b coefs).requestBank p b
    s.setDpd (some { r with fitted := true, bank := b, taken := false })
  else
    let old := s.getF (Reg.txDpdQualityNmseOld p)
    let s := s.setF (Reg.txDpdQualityNmseNew p) nmse
    let s := if nmse + 4 < old then
        (s.requestBank p (1 - r.bank)).addSat (Reg.txDpdQualityReverts p) 1
      else s
    s.dpdNext r

/-- One step of an adaptation pass (R154, R155): a path of the mask that left ACTIVE, or whose receiver is bad, is
skipped; the capture waits for its receiver and for a symbol start, and lasts 16 µs. A request of the new bank that the host
has cancelled is made again (the example of the chapter). `ref` is the reference captured; the fitted coefficients and the
measured NMSE come from the firmware. -/
def State.dpdStep (s : State) (ref : List Sample) (coefs : List Word) (nmse : Nat) : State :=
  match s.tx.dpd with
  | none => s
  | some r =>
    if s.absFret < r.nextFret then s
    else
      let r := if r.left.isEmpty then { r with left := s.activePaths r.mask } else r
      match r.left with
      | [] => s.setDpd r.over
      | p :: _ =>
        if s.path p != pathActive || s.obsBad p then s.dpdNext r
        else if r.fitted && s.flag (Reg.txDpdPending p) then s
        else if r.fitted && s.getF (Reg.txDpdBankActive p) != r.bank then s.requestBank p r.bank
        else if s.obsHeld 4 p 0 < 16 then (s.obsNeed 4 p 0 16).setDpd (some { r with taken := false })
        else if !r.taken then s
        else s.reach (r.since + nsTicks 16000) fun s =>
          ((s.obsSpend 4 p 0).setF (Reg.capStatusRunning 7) 0).dpdUse r p (lowReference ref || !s.dpdClean r p) coefs nmse

/-- DPD_ADAPT (0x68). -/
def dpdAdaptSpec : CmdSpec where
  opcode := 0x68
  states d := d == .service || d == .doze
  role := roleIO
  argOk s := decide (s.argW 2 ≤ 2) && (s.argW 2 != 1 || (decide (1 ≤ s.argW 3) && decide (s.argW 3 ≤ 65535)))
  classes := [4]
  usesPath := true
  run _ s :=
    let m := s.maskArg 0
    let run : Option DpdRun :=
      if s.argW 2 = 2 then none
      else some ⟨m, s.argW 2 == 1, s.argW 3, s.absFret, [], false, 0, false, 0⟩
    let t := match s.tx.dpd with
      | some r => s.dpdLeave (r.left.headD 0)
      | none => s
    ({ t with tx := { t.tx with dpd := run } }).completeDone []

/-! ## Capture channels (R165 to R170) -/

/-- Change one capture channel's hidden state. -/
def State.setCap (s : State) (k : Nat) (f : CapState → CapState) : State :=
  { s with tx := { s.tx with caps := vecModify s.tx.caps k f } }

/-- A capture channel's hidden state. -/
def State.cap (s : State) (k : Nat) : CapState := vecGet s.tx.caps k ⟨0, none, 0, false, 0, []⟩

/-- A source kind that needs a grant of an observation receiver (R165). -/
def capNeedsObs (kind : Nat) : Bool := kind == 0 || kind == 1 || kind == 3

/-- The grains of a capture: its samples at 245.76 MS/s in whole microseconds. -/
def capGrains (kind count : Nat) : Nat :=
  let samples := if kind = 3 then 4 * count else 8 * count
  (samples * 100 + 24575) / 24576

/-- Start a capture whose trigger has come: at once, or as a request for its observation receiver. -/
def State.capBegin (s : State) (k : Nat) : State :=
  let kind := s.getF (Reg.capConfigSrcKind k)
  let path := s.getF (Reg.capConfigSrcIndex k)
  if capNeedsObs kind then
    (s.setF (Reg.capStatusWaiting k) 1).askObs
      ⟨11, path, if kind = 1 then 1 else 0, capGrains kind (s.cap k).count, k⟩
  else
    (((s.setF (Reg.capStatusRunning k) 1).setF (Reg.capStatusWaiting k) 0).setCap k fun x =>
      { x with left := x.count, start := s.drone.ticks, part := [] }).needAt s.nowNs

/-- A trigger of a channel (R166, R167). -/
def State.capTrigger (s : State) (k : Nat) : State :=
  if !s.flag (Reg.capConfigArmed k) then s
  else if s.flag (Reg.capStatusWaiting k) then s.addSat (Reg.capStatusTrigLost k) 1
  else if s.flag (Reg.capStatusRunning k) then s.setF (Reg.capStatusWaiting k) 1
  else s.capBegin k

/-- Trigger every armed channel whose TRIGGER is a given one. -/
def State.capTriggers (s : State) (trig : Nat) : State :=
  s.each (List.range 8) fun s k => if s.getF (Reg.capConfigTrigger k) = trig then s.capTrigger k else s

/-- Fold RPTR where it lies at or past a new LENGTH (R169). -/
def State.capFold (s : State) (k : Nat) : State :=
  if s.getF (Reg.capLengthLength k) ≤ s.getF (Reg.capRptrPtr k) then
    ((s.setF (Reg.capRptrPtr k) 0).setF (Reg.capStatusFolded k) 1).raise 58
  else s

/-- A held LENGTH takes effect as WPTR reaches the old end (R169). -/
def State.capApplyLength (k : Nat) (s : State) : State :=
  match (s.cap k).held with
  | some n =>
    if !(s.cap k).atEnd then s
    else
      let s := s.setCap k fun x => { x with held := none, atEnd := false }
      let s := (s.setF (Reg.capLengthLength k) n).setF (Reg.capStatusLenPending k) 0
      (s.setF (Reg.capWptrPtr k) 0).capFold k
  | none => s

/-- A write of LENGTH (R169): held while the channel runs, else at once, in the place of one that is held still. `old` is
the LENGTH before the write. -/
def State.capLengthWritten (s : State) (k old : Nat) : State :=
  if s.flag (Reg.capStatusRunning k) then
    let n := s.getF (Reg.capLengthLength k)
    ((s.setF (Reg.capLengthLength k) old).setF (Reg.capStatusLenPending k) 1).setCap k
      fun x => { x with held := some n }
  else ((s.setF (Reg.capStatusLenPending k) 0).setCap k fun x => { x with held := none, atEnd := false }).capFold k

/-- Write one captured word at WPTR; a word that would make WPTR equal RPTR in MODE 1 is dropped (R165, R166, R168). -/
def State.capWord (s : State) (k : Nat) (d : List Byte) : State :=
  let s := s.capApplyLength k
  let len := s.getF (Reg.capLengthLength k)
  let w := s.getF (Reg.capWptrPtr k)
  let next := if w + 1 < len then w + 1 else 0
  if len = 0 then s
  else if s.getF (Reg.capConfigMode k) = 1 ∧ next = s.getF (Reg.capRptrPtr k) then s.addSat (Reg.capStatusDropped k) 1
  else
    let s := s.writeWhole .capture (s.getF (Reg.capConfigBase k) + w) (slice 0 32 d)
    let s := s.setCap k fun x => { x with left := x.left - 1 }
    if len ≤ w + 1 ∧ (s.cap k).held.isSome then
      (s.setF (Reg.capWptrPtr k) (w + 1)).setCap k fun x => { x with atEnd := true }
    else s.setF (Reg.capWptrPtr k) next

/-- The observation of a path: its coupler's samples behind the input attenuator, in signed 1.15 (R164). -/
def State.observed (s : State) (p : Nat) (l : List Sample) : List Sample :=
  let g := dbFine (-10000 * (s.getF (Reg.txObsAtten p) : Nat))
  l.map fun x => sat15 (shiftSample 80 (x.1 * g, x.2 * g))

/-- The reference of a path at the pre-distorter input, for interpolated samples of which the last but `late` is at the
present tick. -/
def State.reference (s : State) (p late : Nat) (l : List Sample) : List Sample :=
  ((List.range l.length).zip l).map fun x => sat15 (s.toned p (s.drone.ticks + x.1 - (l.length + late)) (sat15 x.2))

/-- The reference delayed by LOOP_DELAY: by whole samples as it is; between two samples its value is open (R164). -/
def State.delayed (s : State) (p : Nat) (l : List Sample) : List Sample :=
  let d := s.getF (Reg.txObsLoopDelay p)
  let l := s.reference p (d / 16) l
  if d % 16 = 0 then l
  else ((List.range l.length).zip l).map fun x =>
    (toSigned 16 (Config.freeOf 164 [p, s.drone.ticks, x.1, 0]), toSigned 16 (Config.freeOf 164 [p, s.drone.ticks, x.1, 1]))

/-- The samples that a channel captures, in the order in which they stand in its words (R165). `a` holds what the coupler,
the interpolator or the decimator gives, by the source kind; `b` the coupler's samples of a pair, or the DC estimated at
each sample. -/
def State.capSamples (s : State) (k : Nat) (a b : List Sample) : List Sample :=
  let p := s.getF (Reg.capConfigSrcIndex k)
  match s.getF (Reg.capConfigSrcKind k) with
  | 2 => s.reference p 0 a
  | 3 => ((s.delayed p a).zip (s.observed p b)).flatMap fun x => [x.1, x.2]
  | 4 => ((List.range a.length).zip a).map fun x =>
      let y := s.rxSample p (s.drone.ticks + 4 * x.1 - 4 * a.length) x.2 (b.getD x.1 (0, 0))
      (y.1 / 256, y.2 / 256)
  | _ => s.observed p a

/-- Whole words of eight 32-bit samples. -/
def sampleWords (l : List Sample) : List (List Byte) :=
  (List.range (l.length / 8)).map fun i =>
    ((l.drop (8 * i)).take 8).flatMap fun x => leBytes 2 (ofSigned 16 x.1) ++ leBytes 2 (ofSigned 16 x.2)

/-- Of the samples of a stretch that ends now, those before the channel takes any: before its trigger, and in the settling
of a grant (R163, R166). A sample of a receive path lasts four ticks. -/
def State.capEarly (s : State) (k n : Nat) : Nat :=
  let per := if s.getF (Reg.capConfigSrcKind k) = 4 then 4 else 1
  min n (((s.cap k).start + per * n - s.drone.ticks + per - 1) / per)

/-- The samples that a channel has to write with a stretch: those that did not fill a word before, and the new ones. -/
def State.capFresh (s : State) (k : Nat) (a b : List Sample) : List Sample :=
  let early := s.capEarly k a.length
  let pairs := if s.getF (Reg.capConfigSrcKind k) = 3 then 2 else 1
  (s.cap k).part ++ (s.capSamples k a b).drop (pairs * early)

/-- The running capture of a channel delivers words: in MODE 0 no more than the capture has left. -/
def State.capRun (k : Nat) (a b : List Sample) (s : State) : State :=
  if !s.flag (Reg.capStatusRunning k) then s
  else
    let x := s.capFresh k a b
    let words := sampleWords x
    let l := if s.getF (Reg.capConfigMode k) = 1 then words else words.take (s.cap k).left
    (s.each l fun s d => s.capWord k d).setCap k fun c => { c with part := x.drop (8 * words.length) }

/-- A capture whose words have all come ends, and a waiting trigger starts the next one (R167). -/
def State.capEnd (k : Nat) (s : State) : State :=
  if !s.flag (Reg.capStatusRunning k) || s.getF (Reg.capConfigMode k) == 1 || (s.cap k).left != 0 then s
  else
    let s := s.setF (Reg.capStatusRunning k) 0
    if s.flag (Reg.capStatusWaiting k) then (s.setF (Reg.capStatusWaiting k) 0).capBegin k
    else if s.getF (Reg.capConfigTrigger k) = 0 then s.setF (Reg.capConfigArmed k) 0
    else s

/-- The settling of a grant in µs, where the path or source changes (R163). -/
def State.obsSettling (s : State) (q : Nat) (x : ObsRx) (r : ObsReq) : Nat :=
  let same := decide (0 < x.until_) && s.getF (Reg.obsStatusPath q) == r.path % 16 &&
    s.getF (Reg.obsStatusSource q) == r.source
  if same then 0 else 2

/-- The length of a grant: its settling comes first, and 64 µs are the most (R162, R163). -/
def State.obsLength (s : State) (q : Nat) (x : ObsRx) (r : ObsReq) : Nat := min 64 (r.grains + s.obsSettling q x r)

/-- A grant begins: the receiver is shown and charged; a capture of its class starts, and CAP_7 serves an adaptation
(R154, R162, R163). -/
def State.obsBegin (s : State) (q n : Nat) (r : ObsReq) : State :=
  let settle := match s.tx.obs[q]? with
    | some x => s.obsSettling q x r
    | none => 0
  let ready := s.drone.ticks + nsTicks (1000 * settle)
  let s := (s.charge r.cls 2 n).setObs q fun x =>
    { queue := x.queue.erase r, until_ := s.drone.ticks + nsTicks (1000 * n), ready := ready }
  let s := ((s.setF (Reg.obsStatusPath q) (r.path % 16)).setF (Reg.obsStatusSource q) r.source).setF
    (Reg.obsStatusBusy q) 1
  let s := s.setF (Reg.obsStatusClass q) r.cls
  if r.cls = 11 then
    ((s.setF (Reg.capStatusRunning r.by_) 1).setF (Reg.capStatusWaiting r.by_) 0).setCap r.by_
      fun c => { c with left := c.count, start := ready, part := [] }
  else
    let s := { s with tx := { s.tx with
      granted := s.tx.granted ++ [r]
      starts := (s.tx.starts.filter fun x => !x.serves r.cls r.path r.source) ++
        [⟨r.cls, r.path, r.source, ready, none⟩] } }
    if r.cls = 4 then
      (((s.setF (Reg.capConfigSrcKind 7) 3).setF (Reg.capConfigSrcIndex 7) r.path).setF (Reg.capStatusRunning 7) 1).setCap 7
        fun c => { c with left := 983, start := ready, part := [] }
    else s

/-- OBS_GRANT: a free receiver of a half that is On serves the first request, in the order of R162, whose class covers
it (R163), unless a Seam run needs the receiver before it would be over (R437); the classes whose requests wait at their ceiling are exhausted (R408). -/
def State.obsGrant (q : Nat) (s : State) : State :=
  match s.tx.obs[q]? with
  | none => s
  | some x =>
    if s.drone.ticks < x.until_ || !s.analogOn (q / 2) then s
    else match (obsOrder x.queue).find? fun r => s.coversObs r.cls (s.obsLength q x r) with
      | some r => if s.seamHolds q (s.obsLength q x r) then s else s.obsBegin q (s.obsLength q x r) r
      | none => s.each x.queue fun s r => if s.mayUse r.cls 2 then s else s.exhaust r.cls

/-! ## The capture commands (R166, R170, R171) -/

/-- Two runs of words overlap. -/
def overlaps (a n b m : Nat) : Bool := decide (a < b + m) && decide (b < a + n)

/-- A ring overlaps the ring of another armed channel. -/
def State.ringTaken (s : State) (k base len : Nat) : Bool :=
  (List.range 8).any fun j => j != k && s.flag (Reg.capConfigArmed j) &&
    overlaps base len (s.getF (Reg.capConfigBase j)) (s.getF (Reg.capLengthLength j))

/-- The argument check of CAPTURE_START. -/
def captureArgs (s : State) : Bool :=
  let k := s.argW 0
  let kind := s.argW 1 % 8
  let base := s.argW 2
  let len := s.argW 3
  let count := s.argW 4
  let mode := s.argW 5
  let trig := s.argW 6
  decide (k < 8) && decide (kind ≤ 4) && decide (1 ≤ len) && decide (base + len ≤ 131072) && decide (mode ≤ 1) &&
    (mode == 0 || kind == 2 || kind == 4) && (decide (trig ≤ 2) || (decide (8 ≤ trig) && decide (trig ≤ 15))) &&
    (mode == 1 || decide (1 ≤ count)) && (!(kind == 0 || kind == 1) || decide (count ≤ 1904)) &&
    (kind != 3 || decide (count ≤ 3809)) && !s.ringTaken k base len

/-- CAPTURE_START (0x6A). -/
def captureStartSpec : CmdSpec where
  opcode := 0x6A
  states := lathedUp
  role := roleIO
  argOk := captureArgs
  classes := [11]
  usesPath := true
  run _ s :=
    let k := s.argW 0
    if s.flag (Reg.capConfigArmed k) || (k == 7 && s.tx.dpd.isSome) then s.complete .busy
    else
      let trig := s.argW 6
      let t := ((s.setF (Reg.capConfigBase k) (s.argW 2)).setF (Reg.capConfigSrcKind k) (s.argW 1)).setF
        (Reg.capConfigSrcIndex k) (s.argW 1 / 256)
      let t := ((t.setF (Reg.capConfigMode k) (s.argW 5)).setF (Reg.capConfigTrigger k) trig).setF
        (Reg.capConfigArmed k) 1
      let t := ((t.setF (Reg.capLengthLength k) (s.argW 3)).setF (Reg.capWptrPtr k) 0).setF (Reg.capRptrPtr k) 0
      let t := (((t.setF (Reg.capStatusRunning k) 0).setF (Reg.capStatusWaiting k) 0).setF
        (Reg.capStatusLenPending k) 0).setCap k fun _ => ⟨s.argW 4, none, 0, false, 0, []⟩
      let t := if trig = 0 then t.capTrigger k else t
      t.completeDone []

/-- End and disarm a channel (R171). -/
def State.capStop (s : State) (k : Nat) : State :=
  let s := ((s.setF (Reg.capStatusRunning k) 0).setF (Reg.capStatusWaiting k) 0).setF (Reg.capConfigArmed k) 0
  let s := s.each (List.range 4) fun s q => s.setObs q fun x =>
    { x with queue := x.queue.filter fun r => !(r.cls == 11 && r.by_ == k) }
  s.setCap k fun x => { x with left := 0, part := [] }

/-- CAPTURE_STOP (0x6B). -/
def captureStopSpec : CmdSpec where
  opcode := 0x6B
  states := lathedUp
  role := roleIO
  argOk s := decide (s.argW 0 < 8)
  classes := []
  usesPath := true
  run _ s := let t := s.capStop (s.argW 0); t.completeDone [t.getF (Reg.capWptrPtr (s.argW 0))]

/-! ## What a commit changes in the transmit paths (R142, R143, R161) -/

/-- The transmit side of a commit; `old` is the state before it. -/
def State.txCommit (s old : State) : State :=
  let changed (c : Nat) : Bool :=
    old.getF (Reg.txcCtrlEnable c) != s.getF (Reg.txcCtrlEnable c) ||
      old.getF (Reg.txcCtrlLog2D c) != s.getF (Reg.txcCtrlLog2D c)
  let l := (List.range 4).filter fun c => s.tx.restarting.contains c || changed c
  let s := { s with tx := { s.tx with restarting := l } }
  let s := s.each (List.range 64) fun s p =>
    let on := s.flag (Reg.txToneCtrlEnable p)
    let rest := s.tx.tones.filter fun x => x.path != p
    let fresh : Tone := ⟨p, s.getF (Reg.txTonePhasePhase p), s.drone.ticks, s.getF (Reg.txToneFtwFtw p),
      s.getF (Reg.txToneCtrlAmp p), s.flag (Reg.txToneCtrlMode p)⟩
    if !on then { s with tx := { s.tx with tones := rest } }
    else
      let now : Tone := match s.tx.tones.find? fun x => x.path == p with
        | some x => if x.ftw = fresh.ftw then { x with amp := fresh.amp, replaces := fresh.replaces }
          else { fresh with phase := x.phaseAt s.drone.ticks }
        | none => fresh
      { s with tx := { s.tx with tones := rest ++ [now] } }
  s.triggerTx

/-! ## The commands -/

/-- DPD_ADAPT. -/
def execDpdAdapt (p : Port) (s : State) : Outcome := act (s.framed p) (dpdAdaptSpec.issue p)
/-- CAPTURE_START. -/
def execCaptureStart (p : Port) (s : State) : Outcome := act (s.framed p) (captureStartSpec.issue p)
/-- CAPTURE_STOP. -/
def execCaptureStop (p : Port) (s : State) : Outcome := act (s.framed p) (captureStopSpec.issue p)
/-- CAPTURE_RUN. -/
def execCaptureRun (k : Fin 8) (x : CaptureIn) (s : State) : Outcome := act s (State.capRun k.val x.main x.other)
/-- CAPTURE_END. -/
def execCaptureEnd (k : Fin 8) (s : State) : Outcome := act s (State.capEnd k.val)
/-- CAP_LENGTH_APPLY. -/
def execCapLengthApply (k : Fin 8) (s : State) : Outcome := act s (State.capApplyLength k.val)
/-- DPD_ADAPT_PASS. -/
def execDpdAdaptPass (ref : List (Int × Int)) (coefs : List Word) (nmse : Byte) (s : State) : Outcome :=
  act s fun s => s.dpdStep ref coefs nmse.toNat
/-- OBS_GRANT. -/
def execObsGrant (q : Fin 4) (s : State) : Outcome := act s (State.obsGrant q.val)

end Sys2Proof.Machine
end

