-- ==== Sys2Proof/Machine/Tiles.lean ====
section
/-! DEFINITION. Hops, path states, front-end tiles, bias DACs and aerials (chapter 06). -/

namespace Sys2Proof.Machine

/-! ## Fences and preparation (R188 to R190) -/

/-- The reasons of PATH_n.STATE.FENCE_REASON (R190). -/
def fenceHost : Nat := 1
def fenceNotFitted : Nat := 2
def fenceTile : Nat := 3
def fenceSynth : Nat := 4
def fenceCal : Nat := 5
def fenceAerial : Nat := 6

/-- The reason for which a path is fenced; 0 if it is not. -/
def State.fenceReason (s : State) (p : Nat) : Nat := s.getF (Reg.pathStateFenceReason p)

/-- Fence a path (R188, R190): EV_38, its calibration pass is abandoned (R434), and the scheduler rebuilds. A path that is FENCED already keeps its reason. -/
def State.fence (s : State) (reason : Nat) (p : Nat) : State :=
  if s.path p == pathFenced then s
  else ((((s.setF (Reg.pathStateState p) pathFenced).setF (Reg.pathStateFenceReason p) reason).raise 38).passLost p).undo

/-- Preparation of an IDLE path starts (R188). -/
def State.prepare (s : State) (p : Nat) : State :=
  if s.path p == pathIdle then s.setPath p pathCal else s

/-- The eight paths of a tile (R8). -/
def tilePaths (t : Nat) : List Nat := (List.range 8).map (· + 8 * t)

/-- Lift a fence for a reason: the path goes to IDLE, and its preparation follows where its tile is UP. -/
def State.lift (s : State) (reason : Nat) (p : Nat) : State :=
  if s.path p == pathFenced && s.fenceReason p == reason then (s.setPath p pathIdle).undo else s

/-- READY and MUTED paths join service at a fret boundary in SERVICE or DOZE: READY becomes ACTIVE, and MUTED whose
interlock is met again becomes ACTIVE (R188). -/
def State.pathsFret (s : State) : State :=
  if !s.inService then s
  else s.each (List.range 64) fun s p =>
    if s.path p == pathReady || (s.path p == pathMuted && s.interlock (p / 8)) then (s.setPath p pathActive).undo else s

/-- SERVICE_STOP takes ACTIVE paths back to READY at its fret boundary; other states stay (R188). -/
def State.pathsStop (s : State) : State :=
  s.each (List.range 64) fun s p =>
    if s.path p == pathActive then s.setPath p pathReady else s

/-- PATH_FENCE (0x61). -/
def pathFenceSpec : CmdSpec where
  opcode := 0x61
  states := lathedUp
  role := roleIO
  argOk _ := true
  classes := []
  usesPath := false
  run _ s := (s.each (maskList 64 (s.maskArg 0)) fun s p => s.fence fenceHost p).completeDone []

/-- A session may unfence a path for its reason (R190). -/
def mayUnfence (r : Option Role) (reason : Nat) : Bool :=
  if reason = fenceHost then r == some .installer || r == some .operator
  else if reason = fenceCal ∨ reason = fenceAerial then r == some .installer
  else false

/-- PATH_UNFENCE (0x62): the paths whose reason allows it go to IDLE, and preparation starts where the tile is UP. -/
def pathUnfenceSpec : CmdSpec where
  opcode := 0x62
  states := lathedUp
  role := roleIO
  argOk _ := true
  classes := []
  usesPath := true
  run p s :=
    let l := (maskList 64 (s.maskArg 0)).filter fun q =>
      s.path q == pathFenced && mayUnfence (s.session p).role (s.fenceReason q)
    let t := s.each l fun s q =>
      let s := (s.setPath q pathIdle).undo
      if s.getF (Reg.tileStatusState (q / 8)) = tileUp then s.prepare q else s
    t.completeDone (maskWords (listMask l))

/-- PATH_PREPARE (0x60): it stays RUNNING until the passes of its IDLE paths end; BUSY if one already runs (R208). -/
def pathPrepareSpec : CmdSpec where
  opcode := 0x60
  states := lathedUp
  role := roleIO
  argOk _ := true
  classes := [5]
  usesPath := true
  run _ s :=
    let l := maskList 64 (s.maskArg 0)
    if l.any fun q => s.path q == pathCal then s.complete .busy
    else
      let m := l.filter fun q => s.path q == pathIdle
      if m.isEmpty then s.completeDone [0, 0]
      else { s.each m State.prepare with job := some (.pathPrepare (listMask m) 0) }

/-! ## Hops and calibrations (R173, R179 to R184, R209) -/

/-- A channel lies in R172's range and in the synthesizer's band (R173). -/
def State.channelOk (s : State) (x freq : Nat) : Bool :=
  decide (600000 ≤ freq) && decide (freq ≤ 4200000) && decide (s.getF (Reg.synBandBandLo x) * 1000 ≤ freq) &&
    decide (freq ≤ s.getF (Reg.synBandBandHi x) * 1000)

/-- A synthesizer cannot take a SYN_HOP or SYN_CAL: it is HOPPING or CAL, or holds a pending hop (R182). -/
def State.synBusy (s : State) (x : Nat) : Bool :=
  s.synState x == synHopping || s.synState x == synCal || (s.synth x).pending.isSome

/-- A WHEN or TRIGGER argument that names an edge. -/
def edgeOk (w : Nat) : Bool := decide (w ≤ 1) || (decide (8 ≤ w) && decide (w ≤ 15))

/-- A synthesizer cannot take a SYN_CAL: it is busy, or its first lock runs a calibration (R208). -/
def State.synCalBusy (s : State) (x : Nat) : Bool :=
  s.synBusy x || s.synState x == synLocking && (s.synth x).work != some .hop

/-- A SYN_HOP takes effect on one synthesizer; the branch it takes joins the command's result, and a LOCKED transmit
synthesizer discards the symbols in progress (R186). -/
def State.synHopEdge (s : State) (x freq : Nat) : State :=
  let b := (s.synRule x freq false).branch
  let was := s.synState x
  let s := s.setSynth x fun y => { y with pending := none, named := some freq }
  let s := s.synStart x freq false false
  let s := if was = synLocked then s.dropInProgress x else s
  match s.job with
  | some (.synHop left l) => { s with job := some (.synHop left (l ++ [(x, b)])) }
  | _ => s

/-- Every pending hop whose WHEN is a given edge takes effect (R183). -/
def State.synEdges (s : State) (w : Nat) : State :=
  s.each (List.range 4) fun s x =>
    match (s.synth x).pending with
    | some (f, v) => if v = w then s.synHopEdge x f else s
    | none => s

/-- SYN_HOP (0x70). -/
def synHopSpec : CmdSpec where
  opcode := 0x70
  states := lathedUp
  role := roleO
  argOk s :=
    let m := s.argW 0
    decide (1 ≤ m) && decide (m < 16) && edgeOk (s.argW 2) && (maskList 4 m).all fun x => s.channelOk x (s.argW 1)
  classes := []
  usesPath := true
  run _ s :=
    let l := maskList 4 (s.argW 0)
    if l.any s.synBusy then s.complete .busy
    else
      let freq := s.argW 1
      let w := s.argW 2
      let s := { s with job := some (.synHop l []) }
      if w = 0 then s.each l fun s x => s.synHopEdge x freq
      else s.each l fun s x => s.setSynth x fun y => { y with pending := some (freq, w) }

/-- The result word of SYN_HOP: 3 for a synthesizer not named (R208). -/
def branchWord (l : List (Nat × Nat)) : Nat :=
  ((List.range 4).map fun x => mapGet 3 x l * 4 ^ x).sum

/-- A synthesizer of a running SYN_HOP has locked: the command completes with the last of them (R183). -/
def State.synHopDone (s : State) (x : Nat) : State :=
  match s.job with
  | some (.synHop left l) =>
    let rest := left.filter fun y => y != x
    if !(l.any fun b => b.1 == x) then s
    else if rest.isEmpty then ({ s with job := some (.synHop [] l) }).completeDone [branchWord l]
    else { s with job := some (.synHop rest l) }
  | _ => s

/-- SYN_CAL (0x71): a full calibration of a channel (R209). -/
def synCalSpec : CmdSpec where
  opcode := 0x71
  states := lathedUp
  role := roleI
  argOk s := decide (s.argW 0 < 4) && decide (s.argW 2 ≤ 1) && s.channelOk (s.argW 0) (s.argW 1)
  classes := [5]
  usesPath := true
  run _ s :=
    let x := s.argW 0
    if s.synCalBusy x then s.complete .busy
    else
      let back := s.getF (Reg.synFreqFreqKhz x)
      let fresh := s.synState x == synLocked || s.synState x == synOff
      let s := { (if s.synState x = synLocked then s.loMoves x else s) with job := some (.synCal x 0xFFFFFFFF) }
      let s := s.setSynth x fun y => { y with
        cal := some (s.argW 1, s.argW 2 == 1, back), work := some .full, relock := false
        dropRaised := y.dropRaised && !fresh }
      (((s.setF (Reg.synFreqFreqKhz x) (s.argW 1)).setF (Reg.synStatusState x) synCal).retuneOpen x).dropInProgress x

/-- A calibration of SYN_CAL is stored and pinned; where it is that of a failed synthesizer, the SYNTH fences of its half
are lifted, but while the half's other synthesizer has failed too (R190, R209). -/
def State.synCalStored (s : State) (x : Nat) (pin : Bool) : State :=
  let failed := (s.synth x).fencing
  let s := s.setSynth x fun y => { y with fencing := false }
  let s := match s.synPresent x with
    | some i =>
      let s := if pin then s.setF (Reg.synStore0Pinned x i) 1 else s
      (match s.job with
        | some (.synCal y _) => if y = x then { s with job := some (.synCal x i) } else s
        | _ => s)
    | none => s
  if !failed || (s.synth (x / 2 * 2 + (1 - x % 2))).fencing then s
  else s.eachPathOf (x / 2) fun s p => s.lift fenceSynth p

/-- SYN_CAL's last lock: the command completes with its slot. -/
def State.synCalDone (s : State) (x : Nat) : State :=
  match s.job with
  | some (.synCal y slot) => if y = x then s.completeDone [slot] else s
  | _ => s

/-- SYN_LOCK: the work under way ends. A fall-back that finds no lock goes on as a full calibration (R179); a SYN_CAL of
another channel returns to the present one (R209). -/
def State.synLocks (x : Nat) (found : Bool) (s : State) : State :=
  match (s.synth x).work with
  | none => s
  | some w =>
    if s.synState x = synOff then s
    else if w = .fallback ∧ !found then
      s.setSynth x fun y => { y with work := some .full }
    else
      let s := s.synLock x
      match (s.synth x).cal with
      | some (f, pin, back) =>
        let s := (s.setSynth x fun y => { y with cal := none }).synCalStored x pin
        if f = back then s.synCalDone x else s.synStart x back false false
      | none => (s.synHopDone x).synCalDone x

/-- SYN_UNLOCK: a LOCKED synthesizer loses lock and relocks (R184); the due symbols in progress of a transmit
synthesizer are discarded (R186). -/
def State.synUnlocks (x : Nat) (s : State) : State :=
  if s.synState x != synLocked then s
  else
    let s := (s.raise 32).addSat (Reg.synCountsUnlocks x) 1
    (s.synStart x (s.getF (Reg.synFreqFreqKhz x)) true false).dropInProgress x

/-- SYN_CAL_FAIL: the full calibration of a relock fails: every path of the half is FENCED, and EV_38 is raised (R184). -/
def State.synCalFails (x : Nat) (s : State) : State :=
  if !(s.synth x).relock || (s.synth x).work != some .full then s
  else
    let s := ((s.synDown x).setF (Reg.synStatusFailed x) 1).setSynth x fun y => { y with fencing := true }
    let fenced := (List.range 32).all fun i => s.path (32 * (x / 2) + i) == pathFenced
    (s.eachPathOf (x / 2) fun s p => s.fence fenceSynth p).when fenced fun s => s.raise 38

/-- A slot holds the present channel of its synthesizer. -/
def State.slotPresent (s : State) (x i : Nat) : Bool := s.synPresent x == some i

/-- Clear a slot. -/
def State.synClear (s : State) (x i : Nat) : State :=
  let s := ((s.setF (Reg.synStore0Valid x i) 0).setF (Reg.synStore0FreqKhz x i) 0).setF (Reg.synStore0Pinned x i) 0
  let s := s.setF (Reg.synStore1Stamp x i) 0
  s.setSynth x fun y => { y with
    codes := mapErase i y.codes, order := y.order.filter fun j => j != i, drift := y.drift.filter fun j => j != i }

/-- SYN_STORE_CLEAR (0x72). A slot that holds the present channel is kept (R177). -/
def synStoreClearSpec : CmdSpec where
  opcode := 0x72
  states := lathedUp
  role := roleI
  argOk s := decide (s.argW 0 < 4) && (decide (s.argW 1 < 256) || s.argW 1 == 0xFFFFFFFF)
  classes := []
  usesPath := true
  run _ s :=
    let x := s.argW 0
    let l := if s.argW 1 = 0xFFFFFFFF then List.range 256 else [s.argW 1]
    (s.each (l.filter fun i => !s.slotPresent x i) fun s i => s.synClear x i).completeDone []

/-! ## The tile map (R192) -/

/-- The payload of the active TILE_MAP section. The spec does not say how it encodes what R192 says it gives, so the
content is read through the free functions of Config. -/
def State.tileMap (s : State) : List Byte :=
  match s.lath.recs.find? fun r => r.typ == 0x0102 with
  | some r => r.payload
  | none => []

/-- The position is marked fitted. -/
def State.fitted (s : State) (t : Nat) : Bool := Config.tileFitted s.tileMap t

/-- A TILE_MAP section is applied: paths of an empty position are fenced, those of a fitted one are freed (R188). -/
def State.applyTileMap (s : State) : State :=
  s.each (List.range 64) fun s p =>
    if s.fitted (p / 8) then s.lift fenceNotFitted p
    else s.fence fenceNotFitted p

/-! ## Arrival, enumeration, removal and release (R194 to R198) -/

/-- Presence is sampled in LATHED, SERVICE and DOZE (R194). -/
def State.samplesTiles (s : State) : Bool := s.inLathedUp

/-- Change a tile's hidden state. -/
def State.setTile (s : State) (t : Nat) (f : TileState → TileState) : State :=
  { s with tiles := vecModify s.tiles t f }

/-- A tile's hidden state. -/
def State.tile (s : State) (t : Nat) : TileState := vecGet s.tiles t ⟨false, false, false, 0, false, false, none⟩

/-- The state code of a tile. -/
def State.tileState (s : State) (t : Nat) : Nat := s.getF (Reg.tileStatusState t)

/-- A tile's presence went low: an ABSENT tile enters DEBOUNCE (R195). -/
def State.tileArrives (s : State) (t : Nat) : State :=
  if s.tileState t = tileAbsent then
    (s.setF (Reg.tileStatusState t) tileDebounce).setTile t fun x => { x with since := s.drone.ticks }
  else s

/-! ### Bias channels (R199 to R204) -/

/-- The safe range and code that the BIAS_SAFE straps select (R199); with straps 3 the output is high impedance, and the
registers read 0. -/
def biasSafe (straps : Straps) : Nat × Nat :=
  match straps.biasSafe.val with
  | 1 => (0, 0xFFF)
  | 2 => (1, 0xFFF)
  | _ => (0, 0)

/-- Change a bias channel's hidden state. -/
def State.setBias (s : State) (k : Nat) (f : BiasState → BiasState) : State := { s with bias := vecModify s.bias k f }

/-- A bias channel's hidden state. -/
def State.biasOf (s : State) (k : Nat) : BiasState := vecGet s.bias k ⟨none, false, false, true, none⟩

/-- The safe output is high impedance (R199). -/
def State.safeHiZ (s : State) : Bool := s.drone.straps.biasSafe.val == 3

/-- Drive a channel's safe output and clear the load of its tile (R202). -/
def State.biasToSafe (s : State) (k : Nat) : State :=
  let s := s.setBias k fun x => { x with hiZ := s.safeHiZ }
  let s := (s.setF (Reg.biasSafe k) 1).setF (Reg.biasCodeActive k) (biasSafe s.drone.straps).2
  (s.setF (Reg.tileStatusBiasReady (k / 2)) 0).setTile (k / 2) fun x => { x with strobeTick := none }

/-- 2 µs of safe output in ticks (R201). -/
def safeTicks : Nat := nsTicks 2000

/-- A channel is inside the 2 µs of a range change. -/
def State.inSafeHold (s : State) (k : Nat) : Bool :=
  match (s.biasOf k).safeSince with
  | some t => decide (s.drone.ticks < t + safeTicks)
  | none => false

/-- Load a channel's staged code (R200, R201). -/
def State.biasLoad (s : State) (k : Nat) : State :=
  let s := (s.setF (Reg.biasCodeActive k) (s.getF (Reg.biasCode k))).setF (Reg.biasSafe k) 0
  s.setBias k fun _ => ⟨none, false, false, false, some (s.getF (Reg.biasCode k), s.getF (Reg.biasRange k))⟩

/-- A strobe on one channel: inside a safe hold it waits for the end (R201); else a written code, or the staged code
after a range change, is loaded. -/
def State.biasStrobeOne (s : State) (k : Nat) : State :=
  if s.inSafeHold k then s.setBias k fun x => { x with strobed := true }
  else if s.flag (Reg.biasWritten k) || (s.biasOf k).ranged then s.biasLoad k
  else s

/-- A tile's bias is loaded once both channels have WRITTEN set and their codes applied (R202); the strobe that sets
BIAS_READY starts DRAIN_DELAY. -/
def State.biasReady (s : State) (t : Nat) : State :=
  let ok (k : Nat) : Bool := s.flag (Reg.biasWritten k) && !s.flag (Reg.biasSafe k)
  if !s.flag (Reg.tileStatusBiasReady t) && ok (2 * t) && ok (2 * t + 1) then
    (s.setF (Reg.tileStatusBiasReady t) 1).setTile t fun x => { x with strobeTick := some s.drone.ticks }
  else s

/-- A common load strobe (R200). -/
def State.biasStrobe (s : State) : State :=
  let s := s.each (List.range 16) State.biasStrobeOne
  s.each (List.range 8) State.biasReady

/-- The 2 µs of a range change end; a strobe that fell inside them takes effect (R201). -/
def State.biasHoldEnd (k : Nat) (s : State) : State :=
  match (s.biasOf k).safeSince with
  | none => s
  | some t =>
    s.reach (t + safeTicks) fun s =>
    let strobed := (s.biasOf k).strobed
    let s := s.setBias k fun x => { x with safeSince := none, strobed := false }
    if strobed then (s.biasLoad k).biasReady (k / 2) else s

/-- A CODE write stages the code and sets WRITTEN (R200). -/
def State.biasCodeWritten (s : State) (k : Nat) : State := s.setF (Reg.biasWritten k) 1

/-- A write that changed RANGE (R201). -/
def State.biasRangeChanged (s : State) (k : Nat) : State :=
  (s.biasToSafe k).setBias k fun x => { x with safeSince := some s.drone.ticks, strobed := false, ranged := true }

/-- The registers of the bias channels as MONITOR comes up: the safe code, the safe range and the safe output (R199). -/
def State.biasUp (s : State) : State :=
  let v := biasSafe s.drone.straps
  s.each (List.range 16) fun s k =>
    let s := ((s.setF (Reg.biasCode k) v.2).setF (Reg.biasRange k) v.1).setF (Reg.biasWritten k) 0
    (s.biasToSafe k).setBias k fun x => { x with safeSince := none, strobed := false, ranged := false }

/-- The wake's common strobe re-applies the codes last strobed before the hold (R105); it starts no DRAIN_DELAY
(R204). -/
def State.biasReapply (s : State) : State :=
  let s := s.each (List.range 16) fun s k =>
    match (s.biasOf k).kept with
    | some (code, range) =>
      let s := ((s.setF (Reg.biasCode k) code).setF (Reg.biasRange k) range).setF (Reg.biasWritten k) 1
      ((s.setF (Reg.biasCodeActive k) code).setF (Reg.biasSafe k) 0).setBias k fun x => { x with hiZ := false }
    | none => s
  s.each (List.range 8) fun s t =>
    let ok (k : Nat) : Bool := s.flag (Reg.biasWritten k) && !s.flag (Reg.biasSafe k)
    if ok (2 * t) && ok (2 * t + 1) then
      (s.setF (Reg.tileStatusBiasReady t) 1).setTile t fun x => { x with strobeTick := none }
    else s

/-- The tiles of a bus (R191). -/
def busTiles (b : Nat) : List Nat := (List.range 4).map (· + 4 * b)

/-- A transfer of RFFE_XFER on the bus (R210): written bytes go out; bytes read come from the slave, whose registers are
outside the spec, so they are free values. -/
def State.rffeRun (s : State) (bus usid w : Nat) (data : List Byte) : State :=
  let n := w / 65536 % 16 + 1
  if testBit w 24 then
    let r := (List.range ((n + 3) / 4)).foldl (fun (x : List Nat × State) _ =>
      let d := x.2.draw
      (x.1 ++ [d.1 % 2 ^ 32], d.2)) ([], s)
    let s := r.2.each ((List.range r.1.length).zip r.1) fun s p => s.setF (Reg.arg (3 + p.1)) p.2
    s.complete .done
  else
    ({ s with out := { s.out with rffe := s.out.rffe ++ [RffeMsg.mk bus usid (w % 65536) (data.take n)] } } : State).complete .done

/-- A bus enumerates one tile at a time (R195): where none of its tiles is in ENUM, the first of its queue starts, with
STATE = ENUM and VIO raised; a transfer that waits goes before it (log 180). -/
def State.busNext (s : State) (b : Nat) : State :=
  if (busTiles b).any fun t => s.tileState t == tileEnum then s
  else
    let s := match s.job with
      | some (.rffeXfer bus usid w data) => if bus = b then s.rffeRun bus usid w data else s
      | _ => s
    match (busTiles b).find? fun t => (s.tile t).queued with
    | some t => (s.setF (Reg.tileStatusState t) tileEnum).setTile t fun x => { x with queued := false, vio := true }
    | none => s

/-- A tile joins the queue of its bus. -/
def State.tileQueue (s : State) (t : Nat) : State := (s.setTile t fun x => { x with queued := true }).busNext (t / 4)

/-- A transfer that waits for a tile which leaves is abandoned: FAILED (R197, R210). -/
def State.rffeAbandon (s : State) (t : Nat) : State :=
  match s.job with
  | some (.rffeXfer bus usid _ _) => if 4 * bus + (usid - 1) / 2 = t then s.complete .failed else s
  | _ => s

/-- Take a tile down (R197): bias to safe, VIO low, queued RFFE transactions abandoned, paths fenced, EV_35 and EV_38; its
drain goes low with BIAS_READY. -/
def State.tileDown (s : State) (t st : Nat) : State :=
  let s := s.each [2 * t, 2 * t + 1] fun s k =>
    ((s.biasToSafe k).setF (Reg.biasWritten k) 0).setBias k fun x => { x with kept := none }
  let s := s.setTile t fun x => { x with vio := false, queued := false }
  let s := ((s.setF (Reg.tileStatusState t) st).setF (Reg.tileStatusRefuse t) 0).rffeAbandon t
  let fenced := (tilePaths t).all fun p => s.path p == pathFenced
  let s := (s.each (tilePaths t) fun s p => s.fence fenceTile p).raise 35
  (s.when fenced fun s => s.raise 38).busNext (t / 4)

/-- A tile's presence went high (R195, R197, R198): a tile that is not ABSENT, one in its first 10 ms too, is taken
down. -/
def State.tileLeaves (s : State) (t : Nat) : State :=
  if s.tileState t = tileAbsent then s else s.tileDown t tileAbsent

/-- PRESENT shows the level of every presence pin. -/
def State.showPins (s : State) : State :=
  s.each (List.range 8) fun s t => s.setFlag (Reg.tileStatusPresent t) (s.tile t).pin

/-- TILE_PRES_t goes to a level: acted on where presence is sampled, else latched (R194). -/
def State.tilePresence (t : Nat) (low : Bool) (s : State) : State :=
  if (s.tile t).pin = low then s
  else
    let s := s.setTile t fun x => { x with pin := low }
    let s := s.setFlag (Reg.tileStatusPresent t) low
    if !s.samplesTiles then s.setTile t fun x => { x with latched := true, removed := x.removed || !low }
    else if low then s.tileArrives t else s.tileLeaves t

/-- Latched presence changes are handled on entry into LATHED, or after a wake (R107, R194): a tile that left, though
another may have come since, is taken down first. -/
def State.tilesUnlatch (s : State) : State :=
  s.each (List.range 8) fun s t =>
    if !(s.tile t).latched then s
    else
      let gone := (s.tile t).removed
      let s := s.setTile t fun x => { x with latched := false, removed := false }
      let s := if gone then s.tileLeaves t else s
      if (s.tile t).pin then s.tileArrives t else s

/-- A tile position as MONITOR loses power: its pin keeps its level, which is handled as a new one. -/
def TileState.unpowered (x : TileState) : TileState := ⟨x.pin, x.pin, false, 0, false, false, none⟩

/-- MONITOR is Off: no tile is known, and the BIAS outputs are high impedance (R193, R199). -/
def State.tilesUnpowered (s : State) (tiles : Vector TileState 8) : State :=
  ({ s with tiles := tiles.map TileState.unpowered, bias := State.reset.bias } : State).showPins

/-- 10 ms after it went low a tile with AUTO_ENUM joins its bus's queue (R195). -/
def State.tileDebounced (t : Nat) (s : State) : State :=
  if s.tileState t != tileDebounce || !(s.tile t).pin then s
  else
    s.reach ((s.tile t).since + nsTicks 10000000) fun s =>
    if s.flag (Reg.tileCtrlAutoEnum t) then s.tileQueue t else s

/-- The writes that program a slot's USID (R195): the RFFE v2.1 sequence writes PRODUCT_ID and MANUFACTURER_ID to the
registers 0x1D and 0x1E and the new USID, with the high bits of MANUFACTURER_ID, to 0x1F, at the factory USID (PRESUMED, log
180). -/
def usidWrites (bus factory usid product maker : Nat) : List RffeMsg :=
  [⟨bus, factory, 0x1D, leBytes 1 product⟩, ⟨bus, factory, 0x1E, leBytes 1 maker⟩,
    ⟨bus, factory, 0x1F, leBytes 1 (maker / 256 % 16 * 16 + usid)⟩]

/-- USID programming of the declared slots of a tile (R195, step 3). -/
def State.programUsids (s : State) (t : Nat) : State :=
  let msgs := [0, 1].flatMap fun i =>
    match Config.tileSlot s.tileMap t i with
    | some w => usidWrites (t / 4) (Config.tileFactoryUsid s.tileMap t i) (2 * (t % 4) + i + 1) w.1 w.2
    | none => []
  { s with out := { s.out with rffe := s.out.rffe ++ msgs } }

/-- What a slot's answer gives against its declaration: 0 well, 1 no answer, 2 another identity (R196). A slot that is
declared empty is not asked. -/
def slotVerdict (want got : Option (Nat × Nat)) : Nat :=
  match want, got with
  | none, _ => 0
  | some _, none => 1
  | some w, some g => if w = g then 0 else 2

/-- Steps 3 to 5 of the enumeration of a tile in ENUM (R195, R196). `a` and `b` are what its slots answer: PRODUCT_ID and
MANUFACTURER_ID. -/
def State.tileEnumerate (t : Nat) (a b : Option (Nat × Nat)) (s : State) : State :=
  if !s.samplesTiles || s.tileState t != tileEnum then s
  else
    let s := if s.fitted t then s.programUsids t else s
    let want (i : Nat) : Option (Nat × Nat) := Config.tileSlot s.tileMap t i
    let v0 := slotVerdict (want 0) a
    let v := if !s.fitted t then 3 else if v0 != 0 then v0 else slotVerdict (want 1) b
    if v != 0 then
      let s := (s.setF (Reg.tileStatusState t) tileRefused).setF (Reg.tileStatusRefuse t) v
      let s := s.setTile t fun x => { x with vio := false }
      ((s.each (tilePaths t) fun s p => s.fence fenceTile p).raise 34).busNext (t / 4)
    else
      let s := s.each [(0, a), (1, b)] fun s x =>
        match want x.1, x.2 with
        | some _, some g =>
          ((s.setF (Reg.tileIdProductId t x.1) g.1).setF (Reg.tileIdManufacturerId t x.1) g.2).setF
            (Reg.tileIdUsid t x.1) (2 * (t % 4) + x.1 + 1)
        | _, _ => s
      let s := (s.setF (Reg.tileStatusState t) tileUp).setF (Reg.tileStatusRefuse t) 0
      let s := s.setTile t fun x => { x with vio := true }
      let s := { s with out := { s.out with
        rffe := s.out.rffe ++ (Config.tileInit s.tileMap t).map fun (w : Nat × Nat × Byte) => RffeMsg.mk (t / 4) w.1 w.2.1 [w.2.2] } }
      let s := s.each (tilePaths t) fun s p => (s.lift fenceTile p).prepare p
      (s.raise 34).busNext (t / 4)

/-- TILE_ENUM (0x78): a tile that is present and not UP joins its bus's queue. -/
def tileEnumSpec : CmdSpec where
  opcode := 0x78
  states := lathedUp
  role := roleI
  argOk s := decide (s.argW 0 < 8)
  classes := []
  usesPath := false
  run _ s :=
    let t := s.argW 0
    let st := s.tileState t
    let s := if st = tileDebounce ∨ st = tileRefused ∨ st = tileReleased then s.tileQueue t else s
    s.completeDone [st]

/-- TILE_RELEASE (0x79). -/
def tileReleaseSpec : CmdSpec where
  opcode := 0x79
  states := lathedUp
  role := roleI
  argOk s := decide (s.argW 0 < 8)
  classes := []
  usesPath := false
  run _ s :=
    let t := s.argW 0
    (if s.tileState t = tileAbsent then s else s.tileDown t tileReleased).completeDone []

/-- DRAIN_DELAY has passed since the strobe that set BIAS_READY; the drain follows its conditions (R203). -/
def State.drainDelayEnd (t : Nat) (s : State) : State :=
  match s.strobeTick t with
  | none => s
  | some k => s.reach (k + nsTicks (1000 * s.getF (Reg.tileCtrlDrainDelay t))) id

/-! ## Aerials and RFFE (R205 to R207, R210) -/

/-- A path's aerial is due for a check: PERIOD bars have passed since its last counted one (R205). -/
def State.aerialDue (s : State) (p : Nat) : Bool :=
  let n := s.getF Reg.mismatchPeriod
  s.path p == pathActive && !s.obsBad p && n != 0 && match s.aerialBars.find? fun x => x.1 == p with
    | some x => decide (x.2 + n ≤ barOfNs s.nowNs) || decide (barOfNs s.nowNs < x.2)
    | none => true

/-- The paths of a quarter are checked in ascending order: no lower path of the quarter is due. -/
def State.aerialTurn (s : State) (p : Nat) : Bool :=
  s.aerialDue p && (List.range (p % 16)).all fun i => !s.aerialDue (p / 16 * 16 + i)

/-- AERIAL_TUNE measures this path now (R207). -/
def State.tunes (s : State) (p : Nat) : Bool :=
  s.path p == pathActive && !s.obsBad p && match s.job with
    | some (.aerialTune l codes _) => l.contains p && decide (0 < codes)
    | _ => false

/-- A counted check of a path (R206): the latest return loss, and the second low one in a row. -/
def State.aerialCounted (s : State) (p rl : Nat) : State :=
  let s := { s with aerialBars := mapInsert p (barOfNs s.nowNs) (mapErase p s.aerialBars) }
  if s.getF Reg.mismatchThreshold ≤ rl then { s with aerialLow := s.aerialLow.filter fun q => q != p }
  else if s.aerialLow.contains p then
    let s := (s.raise 37).addSat (Reg.pathAerialMismatches p) 1
    if s.flag Reg.mismatchAction then s.fence fenceAerial p else s
  else { s with aerialLow := insertOnce p s.aerialLow }

/-- AERIAL_TUNE keeps the highest return loss of a path and its code; of equal ones the lowest code. -/
def State.aerialTuned (s : State) (p rl : Nat) : State :=
  match s.job with
  | some (.aerialTune l codes best) =>
    if (best.any fun x => x.1 == p) && decide (rl ≤ (mapGet (0, 0) p best).1) then s
    else { s with job := some (.aerialTune l codes
      (mapInsert p (rl, s.getF (Reg.pathAerialTunerCode p)) (mapErase p best))) }
  | _ => s

/-- The coupler correction of a path in 0.0001 dB: the spec gives no rule for it but that the path's coupler calibration
makes it, so it is a free value of the path and its last transmit result (R205). -/
def State.couplerTrim (s : State) (p : Nat) : Int :=
  match s.cal.tx.find? fun x => x.1 == p with
  | some x => toSigned 16 (Config.freeOf 205 [p, ofSigned 32 x.2.1, ofSigned 32 x.2.2])
  | none => toSigned 16 (Config.freeOf 205 [p])

/-- The return loss of a check in whole steps of 0.25 dB, 0 to 255: the steps that 10 log10(P_forward / P_reverse) with the
coupler correction reaches (R205). Rounding down and the ends are the model's (log 203). -/
def State.returnLoss (s : State) (p : Nat) (x : CouplerPair) : Nat :=
  let pf := ((s.observed p x.forward).map normSq).sum
  let pr := ((s.observed p x.reverse).map normSq).sum
  ((List.range 255).filter fun n =>
    decide ((pr : Int) * dbFine (5000 * (n + 1 : Nat) - 2 * s.couplerTrim p) ≤ (pf : Int) * (2 ^ 80 : Nat))).length

/-- A check of an ACTIVE path's aerial (R205, R206): its 16 µs through each coupler need grants charged to CAL, which it
asks for where it does not hold them, and start at symbol starts of the timing carrier. A check whose reference lies below
−30 dBFS is not counted, and asks for grants anew. While AERIAL_TUNE runs, the check measures the code being tried. -/
def State.aerialCheck (p : Nat) (ref : List Sample) (x : CouplerPair) (s : State) : State :=
  if !(s.tunes p || s.aerialTurn p) then s
  else if s.obsHeld 5 p 0 < 16 ∨ s.obsHeld 5 p 1 < 16 then (s.obsNeed 5 p 0 16).obsNeed 5 p 1 16
  else match s.obsStarted 5 p 0, s.obsStarted 5 p 1 with
    | some a, some b =>
      s.reach (max a b + nsTicks 16000) fun s =>
      let s := (s.obsSpend 5 p 0).obsSpend 5 p 1
      if lowReference ref then (s.obsNeed 5 p 0 16).obsNeed 5 p 1 16
      else
        let rl := s.returnLoss p x
        let s := s.setF (Reg.pathAerialRlLast p) rl
        if s.tunes p then s.aerialTuned p rl else s.aerialCounted p rl
    | _, _ => s

/-- Write a tuner code of a path over RFFE (R207), to the tuner's register (log 180), while its tile is UP. -/
def State.tunerCode (s : State) (p code : Nat) : State :=
  let t := p / 8
  if s.tileState t != tileUp then s
  else
    let m : RffeMsg := ⟨t / 4, 2 * (t % 4) + 2, Config.tileTunerReg s.tileMap t, leBytes 1 code⟩
    ({ s with out := { s.out with rffe := s.out.rffe ++ [m] } } : State).setF (Reg.pathAerialTunerCode p) code

/-- The tuner codes of a path's tile: at most 32 (R207). -/
def State.tunerCodes (s : State) (p : Nat) : Nat := min 32 (Config.tileTunerCodes s.tileMap (p / 8))

/-- AERIAL_TUNE (0x7A): it stays RUNNING while one code per fret is tried, the first from the next Tc on. -/
def aerialTuneSpec : CmdSpec where
  opcode := 0x7A
  states d := d == .service
  role := roleI
  argOk _ := true
  classes := [5]
  usesPath := true
  run _ s :=
    let l := (s.activePaths (s.maskArg 0)).filter fun p => decide (1 ≤ s.tunerCodes p)
    if l.isEmpty then s.completeDone [0, 0] else { s with job := some (.aerialTune l 0 []) }

/-- The next code of AERIAL_TUNE at a fret boundary; after the last, each path keeps the code with the highest return
loss. -/
def State.aerialTuneFret (s : State) : State :=
  match s.job with
  | some (.aerialTune l code best) =>
    if l.any fun p => decide (code < s.tunerCodes p) then
      { s.each (l.filter fun p => decide (code < s.tunerCodes p)) (fun s p => s.tunerCode p code) with
        job := some (.aerialTune l (code + 1) best) }
    else
      let s := s.each best fun s b => s.tunerCode b.1 b.2.2
      s.completeDone (maskWords (listMask (best.map Prod.fst)))
  | _ => s

/-- RFFE_XFER (0x7B): the transfer runs at once, or waits while a tile of its bus is enumerated (log 180). -/
def rffeXferSpec : CmdSpec where
  opcode := 0x7B
  states := lathedUp
  role := roleI
  argOk s :=
    let bus := s.argW 0
    let usid := s.argW 1
    decide (bus < 2) && decide (1 ≤ usid) && decide (usid ≤ 8) && s.tileState (4 * bus + (usid - 1) / 2) == tileUp
  classes := []
  usesPath := false
  run _ s :=
    let data := (List.range 4).flatMap fun i => leBytes 4 (s.argW (3 + i))
    if (busTiles (s.argW 0)).any fun t => s.tileState t == tileEnum then
      { s with job := some (.rffeXfer (s.argW 0) (s.argW 1) (s.argW 2) data) }
    else s.rffeRun (s.argW 0) (s.argW 1) (s.argW 2) data

/-! ## The commands -/

/-- PATH_PREPARE. -/
def execPathPrepare (p : Port) (s : State) : Outcome := act (s.framed p) (pathPrepareSpec.issue p)
/-- PATH_FENCE. -/
def execPathFence (p : Port) (s : State) : Outcome := act (s.framed p) (pathFenceSpec.issue p)
/-- PATH_UNFENCE. -/
def execPathUnfence (p : Port) (s : State) : Outcome := act (s.framed p) (pathUnfenceSpec.issue p)
/-- SYN_HOP. -/
def execSynHop (p : Port) (s : State) : Outcome := act (s.framed p) (synHopSpec.issue p)
/-- SYN_CAL. -/
def execSynCal (p : Port) (s : State) : Outcome := act (s.framed p) (synCalSpec.issue p)
/-- SYN_STORE_CLEAR. -/
def execSynStoreClear (p : Port) (s : State) : Outcome := act (s.framed p) (synStoreClearSpec.issue p)
/-- SYN_LOCK. -/
def execSynLock (x : Fin 4) (found : Bool) (s : State) : Outcome := act s (State.synLocks x.val found)
/-- SYN_UNLOCK. -/
def execSynUnlock (x : Fin 4) (s : State) : Outcome := act s (State.synUnlocks x.val)
/-- SYN_CAL_FAIL. -/
def execSynCalFail (x : Fin 4) (s : State) : Outcome := act s (State.synCalFails x.val)
/-- TILE_ENUM. -/
def execTileEnum (p : Port) (s : State) : Outcome := act (s.framed p) (tileEnumSpec.issue p)
/-- TILE_RELEASE. -/
def execTileRelease (p : Port) (s : State) : Outcome := act (s.framed p) (tileReleaseSpec.issue p)
/-- AERIAL_TUNE. -/
def execAerialTune (p : Port) (s : State) : Outcome := act (s.framed p) (aerialTuneSpec.issue p)
/-- RFFE_XFER. -/
def execRffeXfer (p : Port) (s : State) : Outcome := act (s.framed p) (rffeXferSpec.issue p)
/-- TILE_PRESENT. -/
def execTilePresent (t : Fin 8) (s : State) : Outcome := act s (State.tilePresence t.val true)
/-- TILE_REMOVED. -/
def execTileRemoved (t : Fin 8) (s : State) : Outcome := act s (State.tilePresence t.val false)
/-- TILE_DEBOUNCE_END. -/
def execTileDebounceEnd (t : Fin 8) (s : State) : Outcome := act s (State.tileDebounced t.val)
/-- TILE_ENUMERATION. -/
def execTileEnumeration (t : Fin 8) (a b : Option (Nat × Nat)) (s : State) : Outcome :=
  act s (State.tileEnumerate t.val a b)
/-- BIAS_SAFE_HOLD_END. -/
def execBiasSafeHoldEnd (k : Fin 16) (s : State) : Outcome := act s (State.biasHoldEnd k.val)
/-- DRAIN_DELAY_END. -/
def execDrainDelayEnd (t : Fin 8) (s : State) : Outcome := act s (State.drainDelayEnd t.val)
/-- AERIAL_CHECK. -/
def execAerialCheck (p : Fin 64) (ref : List (Int × Int)) (x : CouplerPair) (s : State) : Outcome :=
  act s (State.aerialCheck p.val ref x)

end Sys2Proof.Machine
end

