-- ==== Sys2Proof/Machine/Monitor.lean ====
section
/-! DEFINITION. Housekeeping converters, temperature and the core supply (chapter 16): sequences, the CIC chain,
accumulators, comparators, the thermal scan and its limits. -/

namespace Sys2Proof.Machine

/-- The monitor runs in every state but Light Hold (R20, R474). -/
def State.monitorOn (s : State) : Bool := s.domain .monitor == .on

/-! ## Slots (R458 to R463) -/

/-- The hidden state of slot `k` of converter `x`. -/
def State.slot (s : State) (x k : Nat) : SlotState := vecGet s.mon.slots (16 * x + k) .blank

/-- Change a slot's hidden state. -/
def State.setSlot (s : State) (x k : Nat) (f : SlotState → SlotState) : State :=
  { s with mon := { s.mon with slots := vecModify s.mon.slots (16 * x + k) f } }

/-- The order N of a slot's CIC. -/
def State.slotOrder (s : State) (x k : Nat) : Nat := s.getF (Reg.slotCfgOrder x k) + 1

/-- The decimation R of a slot's CIC. -/
def State.slotRate (s : State) (x k : Nat) : Nat := 2 ^ s.getF (Reg.slotCfgLog2R x k)

/-- The shift after integrator `j`. -/
def State.slotShift (s : State) (x k j : Nat) : Nat :=
  s.getF (match j with
    | 0 => Reg.slotCfgShift0 x k
    | 1 => Reg.slotCfgShift1 x k
    | 2 => Reg.slotCfgShift2 x k
    | _ => Reg.slotCfgShift3 x k)

/-- P[j]: the shifts before stage `j` (R458). -/
def State.slotShifts (s : State) (x k j : Nat) : Nat := ((List.range j).map (s.slotShift x k)).sum

/-- The width of stage `j`. -/
def State.slotWidth (s : State) (x k j : Nat) : Nat := 32 - s.slotShifts x k j

/-- The integrators of one conversion, from stage `j` on: their new values and the value that leaves them. -/
def State.integrate (s : State) (x k : Nat) : Nat → Nat → List Nat → Int → List Nat × Int
  | 0, _, l, v => (l, v)
  | n + 1, j, l, v =>
    let w := s.slotWidth x k j
    let i := ofSigned w ((l.headD 0 : Nat) + v)
    let r := s.integrate x k n (j + 1) (l.drop 1) (toSigned w i / (2 ^ s.slotShift x k j : Nat))
    (i :: r.1, r.2)

/-- The combs of one output at a width: their new values and the value that leaves them. -/
def comb (w : Nat) : Nat → List Nat → Nat → List Nat × Nat
  | 0, l, v => (l, v)
  | n + 1, l, v =>
    let r := comb w n (l.drop 1) (ofSigned w ((v : Int) - (l.headD 0 : Nat)))
    (v :: r.1, r.2)

/-- A synchronising reset of a slot's CIC (R459). -/
def State.slotReset (s : State) (x k : Nat) : State :=
  s.setSlot x k fun y => { y with ints := [0, 0, 0, 0], combs := [0, 0, 0, 0], phase := 0, outputs := 0 }

/-- Clear a slot's accumulator (R462). -/
def State.slotClearSum (s : State) (x k : Nat) : State :=
  ((s.setSlot x k fun y => { y with sum := 0, count := 0 }).setF (Reg.slotAccLo x k) 0).setF (Reg.slotAccHi x k) 0

/-- Clear a slot's trackers (R462). -/
def State.slotClearTrack (s : State) (x k : Nat) : State :=
  (s.setF (Reg.slotMinmaxMin x k) 0x7FFF).setF (Reg.slotMinmaxMax x k) 0x8000

/-- A value reaches the comparator (R463). -/
def State.compare (s : State) (x k : Nat) (v : Int) : State :=
  let lo := toSigned 16 (s.getF (Reg.slotCmpLimitsLow x k))
  let hi := toSigned 16 (s.getF (Reg.slotCmpLimitsHigh x k))
  let inside : Bool := decide (lo ≤ v) && decide (v ≤ hi)
  let mode := s.getF (Reg.slotCmpCtrlMode x k)
  if mode = 0 ∨ mode = 3 then s
  else if inside != (mode == 2) then s.setSlot x k fun y => { y with held := 0, tripped := false }
  else
    let y := s.slot x k
    let n := y.held + 1
    if y.tripped || n < max 1 (s.getF (Reg.slotCmpCtrlPersist x k)) then s.setSlot x k fun y => { y with held := n }
    else
      let s := s.setSlot x k fun y => { y with held := n, tripped := true }
      let f := Reg.cmpTripped x
      let s := if testBit (s.getF f) k then s else s.setF f (s.getF f + 2 ^ k)
      s.raise 112

/-- A valid output is accumulated and tracked (R462). -/
def State.accumulate (s : State) (x k : Nat) (v : Int) : State :=
  let y := s.slot x k
  let s := if y.count = 65535 then s
    else
      let n := ofSigned 48 (y.sum + v)
      (s.setSlot x k fun y => { y with sum := toSigned 48 n, count := y.count + 1 }).setF (Reg.slotAccLo x k) n
  let s := if v < toSigned 16 (s.getF (Reg.slotMinmaxMin x k)) then s.setF (Reg.slotMinmaxMin x k) (ofSigned 16 v) else s
  if toSigned 16 (s.getF (Reg.slotMinmaxMax x k)) < v then s.setF (Reg.slotMinmaxMax x k) (ofSigned 16 v) else s

/-- A CIC output (R458, R459): the first N after a reset are invalid. -/
def State.slotOutput (s : State) (x k : Nat) (v : Int) : State :=
  let n := s.slotOrder x k
  let w := s.slotWidth x k n
  let r := comb w n (s.slot x k).combs (ofSigned w v)
  let fine := satSigned 16 (toSigned w r.2)
  let valid : Bool := decide (n ≤ (s.slot x k).outputs)
  let s := s.setSlot x k fun y => { y with combs := r.1, phase := 0, outputs := y.outputs + 1 }
  let s := (s.setF (Reg.slotResultFine x k) (ofSigned 16 fine)).setFlag (Reg.slotResultValid x k) valid
  if !valid then s
  else
    let s := s.accumulate x k fine
    if s.flag (Reg.slotCmpCtrlSource x k) then s else s.compare x k fine

/-- One conversion of a slot (R458, R460). -/
def State.convert (s : State) (x k code : Nat) : State :=
  let s := s.setF (Reg.slotResultCoarse x k) code
  let s := if s.flag (Reg.slotCmpCtrlSource x k) then s.compare x k (((code : Int) - 2048) * 16) else s
  let r := s.integrate x k (s.slotOrder x k) 0 (s.slot x k).ints ((code : Int) - 2048)
  let s := s.setSlot x k fun y => { y with ints := r.1 ++ y.ints.drop r.1.length, phase := y.phase + 1 }
  if s.slotRate x k ≤ (s.slot x k).phase then s.slotOutput x k r.2 else s

/-- Conversions of a slot of a running sequence. -/
def State.conversions (x k : Nat) (codes : List Nat) (s : State) : State :=
  if !s.monitorOn || !s.flag (Reg.seqStatusRunning x) || s.getF (Reg.seqCtrlSlots x) < k then s
  else s.each codes fun s c => s.convert x k c

/-! ## Sequences (R455 to R457, R475) -/

/-- The hidden state of a sequence. -/
def State.seq (s : State) (x : Nat) : SeqState := vecGet s.mon.seqs x ⟨false, false, 0⟩

/-- Change a sequence's hidden state. -/
def State.setSeq (s : State) (x : Nat) (f : SeqState → SeqState) : State :=
  { s with mon := { s.mon with seqs := vecModify s.mon.seqs x f } }

/-- The slots of a sequence. -/
def State.seqSlots (s : State) (x : Nat) : List Nat := List.range (s.getF (Reg.seqCtrlSlots x) + 1)

/-- The trigger of a sequence: values without a meaning act as 0. -/
def State.seqTrigger (s : State) (x : Nat) : Nat :=
  let t := s.getF (Reg.seqCtrlTrigger x)
  if t ≤ 2 ∨ 8 ≤ t then t else 0

/-- A trigger arrives at an armed sequence (R455, R456). -/
def State.seqTriggered (s : State) (x : Nat) : State :=
  if s.flag (Reg.seqStatusRunning x) then (s.addSat (Reg.seqStatusOverrun x) 1).raise 114
  else s.setSeq x fun y => { y with start := true }

/-- An edge triggers the sequences armed for it: 1 a fret boundary, 2 a bar boundary, 8 to 15 a time compare. -/
def State.hkEdge (s : State) (edge : Nat) : State :=
  if !s.monitorOn then s
  else s.each [0, 1] fun s x =>
    if s.flag (Reg.seqStatusArmed x) && s.seqTrigger x == edge then s.seqTriggered x else s

/-- A run starts at the first round boundary after its trigger (R455). -/
def State.hkRunStart (x : Nat) (s : State) : State :=
  if !s.monitorOn || !(s.seq x).start then s
  else
    let s := (s.setSeq x fun y => { y with start := false, begun := s.drone.ticks }).setF (Reg.seqStatusRunning x) 1
    let s := s.when (s.flag (Reg.seqCtrlMode x)) fun s => s.setF (Reg.seqStatusArmed x) 0
    s.each (s.seqSlots x) fun s k =>
      (s.slotReset x k).when (s.flag (Reg.seqCtrlClrOnRun x)) fun s => (s.slotClearSum x k).slotClearTrack x k

/-- The ticks of a triggered run: its rounds, each of the slots and one background conversion of 250 ns (R454, R455). -/
def State.runTicks (s : State) (x : Nat) : Nat :=
  nsTicks (max 1 (s.getF (Reg.seqCtrlRounds x)) * (s.getF (Reg.seqCtrlSlots x) + 2) * 250)

/-- A run ends: at the next round boundary after HK_STOP, a triggered one else after its rounds (R455, R475). -/
def State.hkRunEnd (x : Nat) (s : State) : State :=
  let ended (s : State) : State :=
    (s.setSeq x fun y => { y with stopping := false }).setF (Reg.seqStatusRunning x) 0
  if !s.monitorOn || !s.flag (Reg.seqStatusRunning x) then s
  else if (s.seq x).stopping then ended s
  else if s.flag (Reg.seqCtrlMode x) then s
  else s.reach ((s.seq x).begun + s.runTicks x) ended

/-- All states but LIGHT_HOLD and MAKER. -/
def notHoldMaker : DevState → Bool := fun d => d != .lightHold && d != .maker

/-- HK_START (0xD8). -/
def hkStartSpec : CmdSpec where
  opcode := 0xD8
  states := notHoldMaker
  role := roleIO
  argOk s := decide (s.argW 0 ≤ 1)
  classes := []
  usesPath := false
  run _ s :=
    let x := s.argW 0
    if s.flag (Reg.seqStatusArmed x) || s.flag (Reg.seqStatusRunning x) then s.complete .busy
    else
      let s := s.setF (Reg.seqStatusArmed x) 1
      (s.when (s.seqTrigger x == 0) fun s => s.seqTriggered x).completeDone []

/-- HK_STOP (0xD9). -/
def hkStopSpec : CmdSpec where
  opcode := 0xD9
  states := notHoldMaker
  role := roleIO
  argOk s := decide (s.argW 0 ≤ 1)
  classes := []
  usesPath := false
  run _ s :=
    let x := s.argW 0
    let on := s.flag (Reg.seqStatusRunning x)
    ((s.setF (Reg.seqStatusArmed x) 0).setSeq x fun y => ⟨false, on, y.begun⟩).completeDone []

/-- HK_CLEAR (0xDA). -/
def hkClearSpec : CmdSpec where
  opcode := 0xDA
  states := notHoldMaker
  role := roleIO
  argOk s := decide (s.argW 0 ≤ 1)
  classes := []
  usesPath := false
  run _ s :=
    let x := s.argW 0
    (s.each (maskList 16 (s.argW 1)) fun s k =>
      (s.when (testBit (s.argW 2) 0) fun s => s.slotClearSum x k).when (testBit (s.argW 2) 1) fun s =>
        s.slotClearTrack x k).completeDone []

/-- N × LOG2_R of a slot, as a view of the registers gives it (R457). -/
def slotGrowth (v : FieldView) (x k : Nat) : Nat := (v (Reg.slotCfgOrder x k) + 1) * v (Reg.slotCfgLog2R x k)

/-- The fields of a slot's CFG. -/
def slotFields (x k : Nat) : List Fld :=
  [Reg.slotCfgChannel x k, Reg.slotCfgOrder x k, Reg.slotCfgLog2R x k, Reg.slotCfgShift0 x k, Reg.slotCfgShift1 x k,
    Reg.slotCfgShift2 x k, Reg.slotCfgShift3 x k]

/-- What a commit changes in the converters (R457, R459): a CFG beyond the growth limit stays as it was; a changed one is
a synchronising reset. -/
def State.monitorCommit (s old : State) : State :=
  s.each [0, 1] fun s x => s.each (List.range 16) fun s k =>
    if 20 < slotGrowth s.getF x k then s.each (slotFields x k) fun s f => s.setF f (old.getF f)
    else if (slotFields x k).any fun f => s.getF f != old.getF f then s.slotReset x k else s

/-- A read of ACC_LO latches ACC_HI (R462). -/
def State.accLatch (s : State) (x k : Nat) : State :=
  let y := s.slot x k
  s.setF (Reg.slotAccHi x k) (ofSigned 48 y.sum / 2 ^ 32 + y.count * 65536)

/-! ## Temperature (R464 to R469) -/

/-- Change a sensor's hidden state. -/
def State.setSensor (s : State) (t : Nat) (f : SensorState → SensorState) : State :=
  { s with mon := { s.mon with sensors := vecModify s.mon.sensors t f } }

/-- The highest reading of the unbroken sensors of a half, if it has one. -/
def State.halfTemp (s : State) (h : Nat) : Option Int :=
  match s.groupReadings (8 * h) true with
  | [] => none
  | x :: t => some (t.foldl max x)

/-- A bit of THERMAL_STATUS takes a value; EV_113 as it rises. -/
def State.limitBit (s : State) (f : Fld) (b : Bool) : State :=
  if b && !s.flag f then (s.setF f 1).raise 113 else s.setFlag f b

/-- The limits follow the readings (R467). -/
def State.limits (s : State) : State :=
  let w := s.halfTemp 0
  let e := s.halfTemp 1
  let at_ (f : Fld) : Int := 16 * toSigned 8 (s.getF f)
  let tj : Option Int := match w, e with
    | some a, some b => some (max a b)
    | some a, none => some a
    | none, some b => some b
    | none, none => none
  let unknown : Bool := decide (8 < ((List.range 16).filter fun t => s.flag (Reg.tempSensorBroken t)).length)
  let act (s : State) (h : Nat) (t : Option Int) : State :=
    let f := if h = 0 then Reg.thermalStatusWestAct else Reg.thermalStatusEastAct
    let b := match t with
      | none => s.flag f
      | some x =>
        if at_ Reg.thermalAct ≤ x then true
        else if x ≤ at_ Reg.thermalAct - 16 * (s.getF Reg.thermalHyst : Int) then false
        else s.flag f
    s.limitBit f (b || unknown)
  let s := match tj with
    | some t => (s.setF Reg.thermalStatusTjMax (ofSigned 12 t)).limitBit Reg.thermalStatusWarn
        (decide (at_ Reg.thermalWarn ≤ t))
    | none => s
  let s := (s.limitBit Reg.thermalStatusUnknown unknown)
  ((act s 0 w).each [1] fun s _ => act s 1 e).triggerTx

/-- A reading in 1/16 °C makes its sensor NEAR (R465). -/
def State.nearReading (s : State) (v : Int) : Bool := decide (16 * (toSigned 8 (s.getF Reg.thermalWarn) - 5) ≤ v)

/-- NEAR follows a change of WARN (R465). -/
def State.nearFollows (s : State) : State :=
  s.each ((List.range 16).filter fun t => s.flag (Reg.tempSensorValid t)) fun s t =>
    s.setFlag (Reg.tempSensorNear t) (s.nearReading (vecGet s.mon.sensors t ⟨0, 0, 0⟩).reading)

/-- A sensor is judged broken (R466). -/
def State.breakSensor (s : State) (t : Nat) : State :=
  ((s.setF (Reg.tempSensorBroken t) 1).setF Reg.thermalStatusBroken
    (s.getF Reg.thermalStatusBroken ||| 2 ^ t)).raise 115

/-- The TEMP field of a reading in 1/16 °C; it is free where the reading lies outside signed 8.4, which 150 °C does. -/
def tempField (v : Int) : Nat :=
  if satSigned 12 v = v then ofSigned 12 v else Config.freeOf 464 [ofSigned 16 v]

/-- R181: a half that Doze idled wakes when its sensor leaves the window of a stamp of its synthesizers. -/
def State.dozeTemp (s : State) (h : Nat) : State :=
  if s.dev != .doze || !s.flag (if h = 0 then Reg.dozeStatusWestIdle else Reg.dozeStatusEastIdle) then s
  else
    let out := [2 * h, 2 * h + 1].any fun x =>
      match s.synPresent x with
      | some i => (s.synReading x).isSome && !s.stampNear x i
      | none => false
    if out then (s.wakeHalf h).setF (if h = 0 then Reg.dozeStatusWestIdle else Reg.dozeStatusEastIdle) 0 else s

/-- The sensor of a path's half differs from the stamp of the path's last preparation by more than TEMP_DELTA (R439). -/
def State.calWarm (s : State) (p : Nat) : Bool :=
  match s.cal.stamps.find? fun x => x.1 == p, s.synReading (2 * halfOf p) with
  | some x, some t => decide (16 * s.getF Reg.calCtrlTempDelta < (t - 16 * x.2).natAbs)
  | _, _ => false

/-- DUE of the paths of a half by temperature (R439). -/
def State.calWarmAll (s : State) (h : Nat) : State :=
  s.eachPathOf h fun s p => if s.calWarm p then s.setF (Reg.calPathStatusDue p) 1 else s

/-- What follows the readings of a half: limits, the wake of R181 and DUE. -/
def State.tempFollows (s : State) (h : Nat) : State := (s.limits.dozeTemp h).calWarmAll h

/-- A reading of a sensor (R464 to R468), in 1/16 °C. -/
def State.sensorRead (s : State) (t : Nat) (v : Int) : State :=
  if s.flag (Reg.tempSensorBroken t) then s
  else if v < -640 ∨ 2400 < v then (s.breakSensor t).tempFollows (t / 8)
  else
    let others := s.groupReadings t false
    let d := 2 * v - median2 others
    let far : Bool := !others.isEmpty && (decide (800 < d) || decide (d < -800))
    let y := vecGet s.mon.sensors t ⟨0, 0, 0⟩
    let off := if far then y.off + 1 else 0
    if 8 ≤ off then ((s.setSensor t fun y => { y with off := off }).breakSensor t).tempFollows (t / 8)
    else
      let hot := if 2000 ≤ v then y.hot + 1 else 0
      let s := s.setSensor t fun _ => ⟨v, hot, off⟩
      let s := (s.setF (Reg.tempSensorTemp t) (tempField v)).setF (Reg.tempSensorValid t) 1
      let s := s.setFlag (Reg.tempSensorNear t) (s.nearReading v)
      let s := s.tempFollows (t / 8)
      if 2 ≤ hot then s.enterFault 113 else s

/-! ## The core supply and the margin plan's values in use (R448, R450, R451, R464) -/

/-- The GUARD_MV, MEM_TIMING, PREP_INTERVAL_H and COUPLER_PERIOD in use (R450). -/
def State.guardMv (s : State) : Nat :=
  if s.flag Reg.overrideAGuardEn then s.getF Reg.overrideAGuardMv else s.getF Reg.planAGuardMv
def State.memTimingInUse (s : State) : Nat :=
  if s.flag Reg.overrideAMemEn then s.getF Reg.overrideAMemTiming else s.getF Reg.planAMemTiming
def State.prepInterval (s : State) : Nat :=
  if s.flag Reg.overrideAPrepEn then s.getF Reg.overrideAPrepIntervalH else s.getF Reg.planAPrepIntervalH
def State.couplerPeriod (s : State) : Nat :=
  if s.flag Reg.overrideBCouplerEn then s.getF Reg.overrideBCouplerPeriod else s.getF Reg.planBCouplerPeriod

/-- The core supply reading lies more than 10 mV below 750 mV plus GUARD_MV. -/
def State.supplyLow (s : State) : Bool := decide (s.getF Reg.coreSupplyMv + 10 < 750 + s.guardMv)

/-- A reading of VDD_CORE in mV. -/
def State.supplyRead (s : State) (mv : Nat) : State :=
  let s := s.setF Reg.coreSupplyMv mv
  { s with mon := { s.mon with
    supplyRead := true
    supplyShort := if s.mon.supplyRead then s.mon.supplyShort && s.supplyLow else false
    supplyGood := if s.mon.supplyRead then s.mon.supplyGood && !s.supplyLow else false } }

/-- A bar ends (R451). -/
def State.supplyBar (s : State) : State :=
  let m := s.mon
  let s :=
    if m.supplyRead && m.supplyShort && !s.flag Reg.ageingStatusVddShort then
      (s.setF Reg.ageingStatusVddShort 1).raise 117
    else if m.supplyRead && m.supplyGood then s.setF Reg.ageingStatusVddShort 0
    else s
  { s with mon := { s.mon with supplyShort := s.supplyLow, supplyGood := !s.supplyLow } }

/-- A reading of the thermal scan: sensor `t`, or VDD_CORE for 16. -/
def State.thermalReading (t : Nat) (v : Int) (s : State) : State :=
  if !s.monitorOn then s
  else if t = 16 then s.supplyRead (ofSigned 16 v)
  else s.sensorRead t v

/-- The compensation factors at a fret boundary (R469): each moves at most 0.02 dB. -/
def State.compFret (s : State) : State :=
  let target (on : Bool) (k : Int) (t : Nat) : Int :=
    if !on then 0 else match s.sensorNow t with
      | some v => k * (v - 400) / 16
      | none => 0
  let rx := s.flag Reg.thermalRxComp
  let tx := s.flag Reg.thermalTxComp
  let targets := [target rx Config.kRx 4, target rx Config.kRx 11] ++
    (List.range 8).map fun t => target tx Config.kTx (if t ≤ 3 then t else t + 8)
  { s with mon := { s.mon with
    comp := (s.mon.comp.zip targets).map fun x => x.1 + clampInt (-200) 200 (x.2 - x.1) } }

/-- MONITOR rises (R474): results, sensors and trips start from their reset values, continuous sequences restart or stay
armed, and armed triggered ones are disarmed. -/
def State.monitorUp (s : State) : State :=
  let mode1 := [0, 1].filter fun x => s.flag (Reg.seqCtrlMode x)
  let run := mode1.filter fun x => s.flag (Reg.seqStatusRunning x)
  let armed := mode1.filter fun x => s.flag (Reg.seqStatusArmed x)
  let start := mode1.filter fun x => (s.seq x).start
  let gone := s.regs.filter fun x =>
    decide (0x1600000 ≤ x.1 / 32) && decide (x.1 / 32 < 0x1601000) &&
      !(fieldAccess x.1 == some .rw || fieldAccess x.1 == some .sh)
  let s := { s with regs := gone.foldl (fun (m : FieldMap) (x : Nat × Nat) => mapErase x.1 m) s.regs, mon := .blank }
  let s := s.each run fun s x => s.setF (Reg.seqStatusRunning x) 1
  let s := s.each armed fun s x => s.setF (Reg.seqStatusArmed x) 1
  s.each start fun s x => s.setSeq x fun y => { y with start := true }

/-! ## The meanings -/

/-- HK_START. -/
def execHkStart (p : Port) (s : State) : Outcome := act (s.framed p) (hkStartSpec.issue p)
/-- HK_STOP. -/
def execHkStop (p : Port) (s : State) : Outcome := act (s.framed p) (hkStopSpec.issue p)
/-- HK_CLEAR. -/
def execHkClear (p : Port) (s : State) : Outcome := act (s.framed p) (hkClearSpec.issue p)
/-- CIC_OUTPUT: the conversions of a slot up to and with the R-th. -/
def execCicOutput (x : Fin 2) (k : Fin 16) (codes : List (BitVec 12)) (s : State) : Outcome :=
  act s (State.conversions x.val k.val (codes.map BitVec.toNat))
/-- HK_RUN_START. -/
def execHkRunStart (x : Fin 2) (s : State) : Outcome := act s (State.hkRunStart x.val)
/-- HK_RUN_END. -/
def execHkRunEnd (x : Fin 2) (s : State) : Outcome := act s (State.hkRunEnd x.val)
/-- THERMAL_READING. -/
def execThermalReading (t : Fin 17) (v : BitVec 16) (s : State) : Outcome := act s (State.thermalReading t.val v.toInt)

end Sys2Proof.Machine
end

