-- ==== Sys2Proof/Machine/Spectral.lean ====
section
/-! DEFINITION. The spectral engine (chapter 07): symbol timing, stencil memory, banks and fades, the grid, the scan
feed. -/

namespace Sys2Proof.Machine

/-! ## Symbol timing (R213, R214) -/

/-- The samples of a slot of transform size `n` (R213). -/
def slotSamples (scs n : Nat) : Nat := if scs < 2 then 15 * n / 2 else 15 * n

/-- The sample of its slot at which symbol `l` starts (R213). -/
def symbolSample (scs n l : Nat) : Nat :=
  if l = 0 then 0 else l * (n + 9 * (n / 128)) + ((slotShape scs).2 - 9) * (n / 128)

/-- The transform size of a carrier. -/
def State.carrierN (s : State) (d c : Nat) : Nat := 2 ^ s.getF (Reg.carConfigFftLog2 d c)

/-- The SCS code of a carrier. -/
def State.carrierScs (s : State) (d c : Nat) : Nat := s.getF (Reg.carConfigScs d c)

/-- The carrier rate in samples per second (R211). -/
def State.carrierRate (s : State) (d c : Nat) : Nat := s.carrierN d c * scsHz (s.carrierScs d c)

/-- The samples of its bar at which the symbols of slots `slot` and `slot + 1` start, with slot and symbol index. -/
def symbolsFrom (scs n slot : Nat) : List (Nat × Nat × Nat) :=
  [slot, slot + 1].flatMap fun k =>
    (List.range (slotShape scs).1).map fun l => (k * slotSamples scs n + symbolSample scs n l, k, l)

/-- A symbol start: its instant in ns, its slot in the bar and its index in the slot. -/
structure SymbolAt where
  ns : Nat
  slot : Nat
  sym : Nat
  deriving DecidableEq, Repr

/-- The next symbol start of a carrier that is not before the present tick and after the last one carried out (R214):
slot 0 begins at each bar boundary, and an instant falls in the first tick at or after it. -/
def State.nextSymbol (s : State) (d c : Nat) : SymbolAt :=
  let n := s.carrierN d c
  let scs := s.carrierScs d c
  let rate := s.carrierRate d c
  let bar := s.nowNs / 10000000
  let slotNs := slotSamples scs n * 1000000000 / rate
  let slot := s.nowNs % 10000000 / max slotNs 1
  let last := mapGet 0 (4 * d + c) s.spectral.symbols
  let all := (symbolsFrom scs n slot).map fun x =>
    let ns := x.1 * 1000000000 / rate
    if ns < 10000000 then SymbolAt.mk (bar * 10000000 + ns) x.2.1 x.2.2 else ⟨(bar + 1) * 10000000, 0, 0⟩
  (all.find? fun x => decide (s.nowNs ≤ x.ns + 4) && decide (last ≤ x.ns)).getD ⟨(bar + 1) * 10000000, 0, 0⟩

/-- The symbol of a carrier that starts at an instant in ns, if one does (R213, R214). -/
def State.symbolAt (s : State) (d c ns : Nat) : Option SymbolAt :=
  let n := s.carrierN d c
  let scs := s.carrierScs d c
  let rate := s.carrierRate d c
  let slotNs := slotSamples scs n * 1000000000 / rate
  (((symbolsFrom scs n (ns % 10000000 / max slotNs 1)).find? fun x => x.1 * 1000000000 / rate == ns % 10000000).map
    fun x => ⟨ns, x.2.1, x.2.2⟩)

/-- The symbol of a carrier that started last. -/
def State.lastSymbol (s : State) (d c : Nat) : Option SymbolAt :=
  match mapGet 0 (4 * d + c) s.spectral.symbols with
  | 0 => none
  | n + 1 => s.symbolAt d c n

/-! ## Stencil memory (R222 to R224) -/

/-- The first byte of map `m`. -/
def mapByte (m : Nat) : Nat := 2867200 + 288 * m

/-- The map of bank `b` of layer slot `s`. -/
def bankMap (slot b : Nat) : Nat := 2 * slot + b

/-- The map of staging slot `f` of a layer slot. -/
def stagingMap (slot f : Nat) : Nat := 192 + 96 * f + slot

/-- Entry `g` of a map, as a word. -/
def State.mapEntry (s : State) (m g : Nat) : Nat := ofLe (s.rawBytes .stencil (mapByte m + 4 * g) 4)

/-- The 68 entries of a map. -/
def State.mapEntries (s : State) (m : Nat) : List Nat := (List.range 68).map (s.mapEntry m)

/-- An entry's fields (R224). -/
def entryLine (e : Nat) : Nat := e % 16384
def entryValid (e : Nat) : Bool := testBit e 14

/-- A damaged word of stencil memory: its groups weigh 0, its entries act as not VALID (R483). -/
def State.stencilBad (s : State) (byte : Nat) : Bool :=
  match s.wordMark .stencil (byte / 32) with
  | .clean => false
  | .correctable _ _ => false
  | _ => true

/-- The weight of path `p` in a line (R223). -/
def State.lineWeight (s : State) (line p : Nat) : Weight :=
  if (List.range 8).any fun w => s.stencilBad (256 * line + 32 * w) then ⟨0, 0⟩
  else Weight.ofWord (ofLe (s.rawBytes .stencil (256 * line + 4 * p) 4))

/-- Write a line of 64 weights; an absent SPECTRAL holds none (R21). -/
def State.writeLine (s : State) (line : Nat) (w : List Weight) : State :=
  if s.absent .spectral then s
  else s.writeBytes .stencil .spectral (256 * line) (fit 256 (w.flatMap fun x => leBytes 4 x.word))

/-- The receive and transmit calibration rows, by direction. -/
def calLine (d : Nat) : Nat := 4608 + d

/-- The calibration weight of a path: r_p for d = 0, t_p for d = 1. -/
def State.calWeight (s : State) (d p : Nat) : Weight := s.lineWeight (calLine d) p

/-- Write one entry of a calibration row. -/
def State.putCal (s : State) (d p : Nat) (w : Weight) : State :=
  if s.absent .spectral then s
  else s.writePart .stencil .spectral (256 * calLine d + 4 * p) (leBytes 4 w.word)

/-! ## Values that move in eight steps (R436) -/

/-- The present value of a stepped quantity: a calibration-row entry as a word, or SEAM.PHASE. -/
def State.stepValue (s : State) (row p : Nat) : Nat :=
  if row = 2 then s.getF Reg.seamPhase else ofLe (s.rawBytes .stencil (256 * calLine row + 4 * p) 4)

/-- Set a stepped quantity. -/
def State.setStepValue (s : State) (row p v : Nat) : State :=
  if row = 2 then s.setF Reg.seamPhase v else s.putCal row p (Weight.ofWord v)

/-- A new value of a stepped quantity: eight steps in SERVICE and DOZE, at once in other states. -/
def State.newStepValue (s : State) (row p v : Nat) : State :=
  let rest := s.spectral.calSteps.filter fun x => !(x.row == row && x.path == p)
  if s.inService then
    { s with spectral := { s.spectral with calSteps := rest ++ [⟨row, p, s.stepValue row p, v, 0⟩] } }
  else ({ s with spectral := { s.spectral with calSteps := rest } }).setStepValue row p v

/-- Step `k` of eight from an old to a new value: I and Q separately, or PHASE by the shorter way round. -/
def CalStep.at (x : CalStep) (k : Nat) : Nat :=
  if x.row = 2 then
    let d := toSigned 16 (x.new + 65536 - x.old % 65536)
    ofSigned 16 ((x.old : Int) + roundDiv (d * k) 8)
  else
    let a := Weight.ofWord x.old
    let b := Weight.ofWord x.new
    (Weight.mk (a.i + roundDiv ((b.i - a.i) * k) 8) (a.q + roundDiv ((b.q - a.q) * k) 8)).word

/-- The step of a fret boundary. -/
def State.stepFret (s : State) : State :=
  let l := s.spectral.calSteps
  let s := s.each l fun s x => s.setStepValue x.row x.path (x.at (x.k + 1))
  { s with spectral := { s.spectral with
    calSteps := (l.map fun x => { x with k := x.k + 1 }).filter fun x => decide (x.k < 8) } }

/-! ## Layers, banks and fades (R228 to R233) -/

/-- Change a layer slot's hidden state. -/
def State.setLayer (s : State) (slot : Nat) (f : LayerState → LayerState) : State :=
  { s with spectral := { s.spectral with layers := vecModify s.spectral.layers slot f } }

/-- A layer slot's hidden state. -/
def State.layer (s : State) (slot : Nat) : LayerState := vecGet s.spectral.layers slot ⟨none, none⟩

/-- A bank select arrives (R228): it replaces one that is pending; a select of the active bank while no fade runs only
clears PENDING. -/
def State.select (s : State) (slot bank f edge : Nat) : State :=
  let d := slot / 48
  let l := slot % 48
  if bank = s.getF (Reg.layerStatusBankActive d l) ∧ (s.layer slot).fade = none then
    (s.setF (Reg.layerStatusPending d l) 0).setLayer slot fun x => { x with select := none }
  else
    (s.setF (Reg.layerStatusPending d l) 1).setLayer slot fun x => { x with select := some ⟨bank, f, edge⟩ }

/-- An edge triggers the selects that wait for it. -/
def State.selectEdges (s : State) (edge : Nat) : State :=
  s.each (List.range 96) fun s slot =>
    match (s.layer slot).select with
    | some x => if x.edge = edge then s.setLayer slot fun y => { y with select := some ⟨x.bank, x.f, 0⟩ } else s
    | none => s

/-- The weight of one side of a fade for a group and path: through a held entry, or the capture slot. -/
def State.sideWeight (s : State) (slot : Nat) (side : Option (List Nat)) (g p : Nat) : Weight :=
  match side with
  | none => s.lineWeight (4672 + 68 * slot + g) p
  | some l =>
    let e := l.getD g 0
    if entryValid e then s.lineWeight (entryLine e) p else ⟨0, 0⟩

/-- The weight that a layer's stencil gives a group and path in the present symbol (R224, R229). -/
def State.layerWeight (s : State) (slot g p : Nat) : Weight :=
  match (s.layer slot).fade with
  | some x => fadeWeight (s.sideWeight slot x.src g p) (s.sideWeight slot (some x.tgt) g p) x.k x.f
  | none =>
    let m := bankMap slot (s.getF (Reg.layerStatusBankActive (slot / 48) (slot % 48)))
    let e := s.mapEntry m g
    if entryValid e && !s.stencilBad (mapByte m + 4 * g) then s.lineWeight (entryLine e) p else ⟨0, 0⟩

/-- The map entry of a group in a layer's active stencil; a damaged word acts as not VALID (R224, R483). -/
def State.layerEntry (s : State) (slot g : Nat) : Nat :=
  let m := bankMap slot (s.getF (Reg.layerStatusBankActive (slot / 48) (slot % 48)))
  let e := s.mapEntry m g
  if s.stencilBad (mapByte m + 4 * g) then e - bits e 14 1 * 16384 else e

/-- The groups of a carrier: ⌈P / 4⌉ (R219). -/
def State.groups (s : State) (d c : Nat) : Nat := (s.getF (Reg.carConfigPrbCount d c) + 3) / 4

/-- The groups of a layer slot's carrier: entries beyond them are ignored (R224). -/
def State.slotGroups (s : State) (slot : Nat) : Nat :=
  s.groups (slot / 48) (s.getF (Reg.layerConfigCarrier (slot / 48) (slot % 48)))

/-- What governs a layer in the symbol that starts now (R18, R229). -/
def State.latchLayer (s : State) (slot : Nat) : LayerLatch :=
  ⟨slot, s.getF (Reg.layerConfigBfpWidth (slot / 48) (slot % 48)), (List.range 68).map (s.layerEntry slot),
    (s.layer slot).fade, none⟩

/-- The weight of a side of a latched fade: a source that the capture slot held may be frozen. -/
def State.latchSide (s : State) (x : LayerLatch) (side : Option (List Nat)) (g p : Nat) : Weight :=
  match side, x.frozen with
  | none, some lines => Weight.ofWord ((lines.getD g []).getD p 0)
  | _, _ => s.sideWeight x.slot side g p

/-- The weight that a latched stencil gives a group and path (R224, R229). -/
def State.latchWeight (s : State) (x : LayerLatch) (g p : Nat) : Weight :=
  match x.fade with
  | some f => fadeWeight (s.latchSide x f.src g p) (s.latchSide x (some f.tgt) g p) f.k f.f
  | none =>
    let e := x.entries.getD g 0
    if entryValid e then s.lineWeight (entryLine e) p else ⟨0, 0⟩

/-- A group is combined under a latched stencil: VALID in the active map, or on either side of a fade (R224, R229); of the
capture slot, a group with a weight that is not 0. -/
def State.latchValid (s : State) (x : LayerLatch) (g : Nat) : Bool :=
  match x.fade with
  | some f =>
    let src := match f.src with
      | some l => entryValid (l.getD g 0)
      | none => (List.range 64).any fun p => s.latchSide x none g p != ⟨0, 0⟩
    src || entryValid (f.tgt.getD g 0)
  | none => entryValid (x.entries.getD g 0)

/-- A group is combined in the present symbol of a layer. -/
def State.groupValid (s : State) (slot g : Nat) : Bool :=
  match (s.layer slot).fade with
  | some _ => s.latchValid (s.latchLayer slot) g
  | none => entryValid (s.layerEntry slot g)

/-- The latched symbols that a fade from the layer's capture slot governs keep what the slot held (R230). -/
def State.freezeLatches (s : State) (slot : Nat) : State :=
  let lines := (List.range 68).map fun g => (List.range 64).map fun p => (s.lineWeight (4672 + 68 * slot + g) p).word
  let one (x : LayerLatch) : LayerLatch :=
    if x.slot == slot && x.frozen.isNone && (match x.fade with | some f => f.src.isNone | none => false) then
      { x with frozen := some lines }
    else x
  { s with spectral := { s.spectral with latched := s.spectral.latched.map fun y =>
      (y.1, y.2.map fun z => { z with layers := z.layers.map one }) } }

/-- Freeze the weights of a fade's last symbol into the layer's blend-capture slot (R230). -/
def State.captureFade (s : State) (slot : Nat) : State :=
  let d := slot / 48
  let c := s.getF (Reg.layerConfigCarrier d (slot % 48))
  let lines := (List.range (s.groups d c)).map fun g => (List.range 64).map (s.layerWeight slot g)
  ((s.freezeLatches slot).each ((List.range lines.length).zip lines) fun s x => s.writeLine (4672 + 68 * slot + x.1) x.2).addSat
    Reg.spectralCounts2FadeInterrupts 1

/-- The target of a select is wholly in force (R233). -/
def State.fadeDone (s : State) (slot : Nat) : State :=
  if s.flag (Reg.layerConfigSource (slot / 48) (slot % 48)) then s.raise 49 else s.addWrap Reg.schedSwapsCount 1

/-- Show a fade's place, or that none runs. -/
def State.showFade (s : State) (slot : Nat) : State :=
  let d := slot / 48
  let l := slot % 48
  match (s.layer slot).fade with
  | some x =>
    ((s.setF (Reg.layerStatusFading d l) 1).setFlag (Reg.layerStatusFromCapture d l) x.src.isNone).setF
      (Reg.layerStatusFadePos d l) x.k
  | none => (s.setF (Reg.layerStatusFading d l) 0).setF (Reg.layerStatusFromCapture d l) 0

/-- A fade reaches the present symbol: at k = F it ends (R229). -/
def State.fadeStep (s : State) (slot : Nat) : State :=
  let s := s.showFade slot
  match (s.layer slot).fade with
  | some x =>
    if x.f ≤ x.k then ((s.setLayer slot fun y => { y with fade := none }).showFade slot).fadeDone slot else s
  | none => s

/-- A triggered select takes effect at a symbol start (R228, R230, R231). -/
def State.selectTakes (s : State) (slot : Nat) (x : Select) : State :=
  let d := slot / 48
  let l := slot % 48
  let old := s.getF (Reg.layerStatusBankActive d l)
  let fading := (s.layer slot).fade.isSome
  let s := (s.setF (Reg.layerStatusPending d l) 0).setLayer slot fun y => { y with select := none }
  let target := s.mapEntries (bankMap slot x.bank)
  if x.f = 0 then
    let s := (s.setF (Reg.layerStatusBankActive d l) x.bank).setLayer slot fun y => { y with fade := none }
    (s.showFade slot).fadeDone slot
  else
    let src : Option (List Nat) := if fading then none else some (s.mapEntries (bankMap slot old))
    let s := if fading then s.captureFade slot else s
    let s := (s.setF (Reg.layerStatusBankActive d l) x.bank).setLayer slot
      fun y => { y with fade := some ⟨src, target, x.f, 1⟩ }
    s.fadeStep slot

/-- A symbol start of a layer's carrier. -/
def State.layerSymbol (s : State) (slot : Nat) : State :=
  match (s.layer slot).select with
  | some ⟨b, f, 0⟩ => s.selectTakes slot ⟨b, f, 0⟩
  | _ =>
    match (s.layer slot).fade with
    | some x => (s.setLayer slot fun y => { y with fade := some { x with k := x.k + 1 } }).fadeStep slot
    | none => s.setF (Reg.layerStatusFadePos (slot / 48) (slot % 48)) 0

/-- The enabled layer slots of a carrier (R218). -/
def State.carrierLayers (s : State) (d c : Nat) : List Nat :=
  ((List.range 48).filter fun l =>
    s.flag (Reg.layerConfigEnable d l) && s.getF (Reg.layerConfigCarrier d l) == c).map (· + 48 * d)

/-- The layer slots of a carrier that have a stencil to follow at its symbol starts: the enabled ones, and those with a
select or fade under way (R228). -/
def State.movingLayers (s : State) (d c : Nat) : List Nat :=
  ((List.range 48).filter fun l =>
    (s.flag (Reg.layerConfigEnable d l) || s.layer (48 * d + l) != ⟨none, none⟩) &&
      s.getF (Reg.layerConfigCarrier d l) == c).map (· + 48 * d)

/-- The lines that a layer slot's stencils reference: the active bank, a pending select's bank, and a running fade's
held entries (R225, R229, R232), in the groups of its carrier (R224). -/
def State.layerLines (s : State) (slot : Nat) : List Nat :=
  let x := s.layer slot
  let n := s.slotGroups slot
  let active := s.mapEntries (bankMap slot (s.getF (Reg.layerStatusBankActive (slot / 48) (slot % 48))))
  let pending := match x.select with | some y => s.mapEntries (bankMap slot y.bank) | none => []
  let held := match x.fade with
    | some y => (y.src.getD []).take n ++ y.tgt.take n
    | none => []
  ((active.take n ++ pending.take n ++ held).filter entryValid).map entryLine

/-- The engine reads the damaged or weak words among the rows and maps of the carrier's layers in a symbol (R477,
R482, R483). -/
def State.engineReads (s : State) (d c : Nat) : State :=
  if s.stencilMem.marks.isEmpty then s
  else
    let slots := s.carrierLayers d c
    let lines := slots.flatMap s.layerLines
    let maps := slots.map fun x => bankMap x (s.getF (Reg.layerStatusBankActive (x / 48) (x % 48)))
    s.each s.stencilMem.marks fun s m =>
      let w := m.1
      if lines.contains (w / 8) || (decide (89600 ≤ w) && maps.contains ((w - 89600) / 9)) then
        (s.readWord .stencil w .spectral false).1
      else s

/-- Exchange two maps, with what their words decode as (R232). -/
def State.swapMaps (s : State) (a b : Nat) : State :=
  let da := s.rawBytes .stencil (mapByte a) 288
  let db := s.rawBytes .stencil (mapByte b) 288
  let wa := mapByte a / 32
  let wb := mapByte b / 32
  let ma := (List.range 9).map fun i => s.wordMark .stencil (wa + i)
  let mb := (List.range 9).map fun i => s.wordMark .stencil (wb + i)
  let x := s.stencilMem
  let s := s.setMem .stencil ((x.setBytes (mapByte a) db).setBytes (mapByte b) da)
  let s := s.each ((List.range 9).zip mb) fun s p => s.setMark .stencil (wa + p.1) p.2
  s.each ((List.range 9).zip ma) fun s p => s.setMark .stencil (wb + p.1) p.2

/-- The map swap of a scheduler-directed layer in a fret boundary's Tc (R232); `f` is the staging slot of the new
fret, whose map stands there only if it was prepared for it. -/
def State.swapLayer (s : State) (f slot : Nat) : State :=
  let d := slot / 48
  let l := slot % 48
  if !s.flag (Reg.layerConfigEnable d l) || s.flag (Reg.layerConfigSource d l) || !s.sched.cur.maps.contains slot then s
  else
    let act := s.getF (Reg.layerStatusBankActive d l)
    let st := stagingMap slot f
    let n := s.slotGroups slot
    if (s.mapEntries st).take n = (s.mapEntries (bankMap slot act)).take n then s
    else
      let s := s.swapMaps st (bankMap slot (1 - act))
      s.select slot (1 - act) (s.getF (Reg.layerConfigFadeDefault d l)) 0

/-- The swaps of a fret boundary. -/
def State.swapFret (s : State) (f : Nat) : State := s.each (List.range 96) (State.swapLayer · f)

/-! ## Host writes of stencil memory (R225) -/

/-- A LINE that a map of a direction may name (R224). -/
def lineAllowed (d line : Nat) : Bool :=
  decide (line < 4096) || (decide (4096 + 256 * d ≤ line) && decide (line < 4352 + 256 * d))

/-- A host row is referenced by an active, pending or fading stencil. -/
def State.rowInUse (s : State) (line : Nat) : Bool :=
  (List.range 96).any fun slot => (s.layerLines slot).contains line

/-- A bank is active, pending, or the source or target of a fade. -/
def State.bankInUse (s : State) (slot b : Nat) : Bool :=
  s.getF (Reg.layerStatusBankActive (slot / 48) (slot % 48)) == b ||
    (match (s.layer slot).select with | some x => x.bank == b | none => false) || (s.layer slot).fade.isSome

/-- A host write that reaches one byte is allowed. -/
def State.stencilByteOk (s : State) (r : Option Role) (a : Nat) : Bool :=
  let line := a / 256
  if line < 512 then r == some .operator && !s.rowInUse line
  else if line < 4096 then false
  else if line < 4608 then r == some .installer && s.flag Reg.gridMode && s.dev == .lathed
  else if line < 4610 then r == some .installer
  else if line < 11200 then false
  else
    let m := (a - 2867200) / 288
    let off := (a - 2867200) % 288
    decide (m < 192) && decide (off < 272) && r == some .operator &&
      s.flag (Reg.layerConfigSource (m / 2 / 48) (m / 2 % 48)) && !s.bankInUse (m / 2) (m % 2)

/-- Every map entry that a write touches names an allowed line, as it would stand after the write. -/
def State.stencilEntriesOk (after : State) (a n : Nat) : Bool :=
  if a + n ≤ 2867200 then true
  else (List.range ((n + 3) / 4 + 1)).all fun i =>
    let b := (a / 4 + i) * 4
    if b < 2867200 || a + n ≤ b then true
    else
      let m := (b - 2867200) / 288
      lineAllowed (m / 2 / 48) (entryLine (ofLe (after.rawBytes .stencil b 4)))

/-- The calibration-row entries that a write reaches: row and path. -/
def calEntriesOf (a n : Nat) : List (Nat × Nat) :=
  ((List.range ((n + 3) / 4 + 1)).map fun i => a / 4 + i).filterMap fun w =>
    if 256 * 4608 ≤ 4 * w ∧ 4 * w < 256 * 4610 ∧ 4 * w < a + n then
      some ((4 * w - 256 * 4608) / 256, (4 * w - 256 * 4608) % 256 / 4)
    else none

/-- A write of ranges of stencil memory under any of a list of roles (R225), given the state `t` it leads to: applied
whole, or refused and counted. New calibration-row values move as R436 gives. -/
def State.stencilJudge (s : State) (roles : List Role) (ranges : List (Nat × Nat)) (t : State) : State :=
  let ok := ranges.all fun x => decide (x.1 + x.2 ≤ 3145728) &&
    (List.range x.2).all (fun i => roles.any fun r => s.stencilByteOk (some r) (x.1 + i)) && t.stencilEntriesOk x.1 x.2
  if !ok then s.addSat Reg.spectralCountsRefusedWrites 1
  else
    let cal := ranges.flatMap fun x => calEntriesOf x.1 x.2
    if cal.isEmpty then t
    else
      let vals := cal.map fun x => (x, t.stepValue x.1 x.2)
      let u := t.each cal fun u x => u.setStepValue x.1 x.2 (s.stepValue x.1 x.2)
      u.each vals fun u x => u.newStepValue x.1.1 x.1.2 x.2

/-- A host write to stencil memory (R225). -/
def State.stencilWrite (p : Port) (off : Nat) (d : List Byte) (s : State) : State :=
  s.stencilJudge (s.session p).role.toList [(off, d.length)] (s.writeBytes .stencil (portReq p) off d)

/-! ## The grid (R234, R235) -/

/-- The band centre of a direction in a half, in units of 2^-32 Hz: LO plus IF (R234). -/
def State.bandCentre (s : State) (d h : Nat) : Int :=
  let x := 2 * h + (1 - d)
  (s.getF (Reg.synFreqFreqKhz x) * 1000 * 2 ^ 32 : Nat) + toSigned 32 (s.getF (dfeIf d h)) * 61440000

/-- The phase of path `p` in beam `b`, in units of 2^-64 of a turn (R234): positions are in sixteenths of a millimetre,
direction cosines in sixteenths. -/
def State.beamTurn (s : State) (d b p : Nat) : Int :=
  let u : Int := 2 * (b % 16 : Nat) - 15
  let v : Int := 2 * (b / 16 % 16 : Nat) - 15
  let x : Int := (s.getF (Reg.geoPathCol p) * s.getF Reg.gridDxMm : Nat)
  let y : Int := (s.getF (Reg.geoPathRow p) * s.getF Reg.gridDyMm : Nat)
  let f := s.bandCentre d (halfOf p)
  let t := -(f * (u * x + v * y) * (2 ^ 32 : Nat)) / (299792458 * 256000 : Nat)
  if s.flag (Reg.geoPathPol p) then t + (s.getF Reg.gridPolPhase * 2 ^ 60 : Nat) else t

/-- The grid row of a beam; paths that are not ACTIVE weigh 0. -/
def State.gridRow (s : State) (d b : Nat) : List Weight :=
  (List.range 64).map fun p =>
    if s.path p = pathActive then turnWeight (s.beamTurn d b p) (s.calWeight d p) else ⟨0, 0⟩

/-- Build the grid rows of a direction, while GRID.MODE is 0. -/
def State.buildGrid (s : State) (d : Nat) : State :=
  if s.flag Reg.gridMode then s
  else s.each (List.range 256) fun s b => s.writeLine (4096 + 256 * d + b) (s.gridRow d b)

/-! ## The scan feed (R236) -/

/-- Write words one after another into a ring in capture memory. -/
def State.ringWords (s : State) (base len start : Nat) : List (List Byte) → State
  | [] => s
  | w :: t =>
    (s.writeWhole .capture ((base + start % len) % 131072) (slice 0 32 w)).ringWords base len (start + 1) t

/-- One record of the scan ring: the symbol's time, indices and marks, and its samples. -/
def scanRecord (short sym slot prbs mask : Nat) (samples : List Nat) : List (List Byte) :=
  let head := fit 32 (leBytes 4 short ++ leBytes 1 sym ++ leBytes 1 slot ++ leBytes 2 prbs ++ leBytes 8 mask)
  head :: (List.range (384 * prbs)).map fun i =>
    (List.range 8).flatMap fun j => leBytes 4 (samples.getD (8 * i + j) 0)

/-- The record of a symbol of the scan carrier that has ended, under the settings of its start. -/
def State.scanSymbol (s : State) (x : SymLatch) (prbs mask : Nat) (samples : List Nat) : State :=
  let len := s.getF Reg.scanLenWords
  if len = 0 then s
  else
    let s' := s.ringWords (s.getF Reg.scanBaseWords) len s.spectral.scanWptr
      (scanRecord (x.ns % 2 ^ 32) x.sym x.slot prbs mask samples)
    { s' with spectral := { s'.spectral with scanWptr := (s.spectral.scanWptr + 1 + 384 * prbs) % len } }

/-- A symbol start of a carrier: the scan's settings take effect if it is the scan carrier; one that the scan has left is
scanned no more (R236). -/
def State.scanLatch (s : State) (c : Nat) : State :=
  let now : Option ScanSet :=
    if s.getF Reg.scanCarrier = c then
      if s.scanOk then
        some ⟨c, s.getF Reg.scanPrbCount, s.getF Reg.scanPrbStart, s.getF Reg.scanShift⟩
      else none
    else s.spectral.scanSet.filter fun x => x.carrier != c
  { s with spectral := { s.spectral with scanSet := now } }

/-! ## What a commit changes in the engine (R217) -/

/-- A commit that would enable a carrier at a rate other than the DFE's leaves it off and counts it. -/
def State.spectralCommit (s old : State) : State :=
  s.each [0, 1] fun s d => s.each (List.range 4) fun s c =>
    if s.flag (Reg.carConfigEnable d c) && !old.flag (Reg.carConfigEnable d c) && !rateMatches s.getF d c then
      (s.setF (Reg.carConfigEnable d c) 0).addSat Reg.spectralCountsBadEnable 1
    else s

/-! ## The commands (R241) -/

/-- STENCIL_SELECT (0x80). -/
def stencilSelectSpec : CmdSpec where
  opcode := 0x80
  states := lathedUp
  role := roleO
  argOk s :=
    let d := s.argW 0 % 2
    let l := s.argW 0 / 256 % 64
    decide (l < 48) && s.flag (Reg.layerConfigEnable d l) && s.flag (Reg.layerConfigSource d l) &&
      decide (s.argW 1 ≤ 1) && decide (s.argW 2 ≤ 1023) && edgeOk (s.argW 3)
  classes := []
  usesPath := false
  run _ s :=
    (s.select (48 * (s.argW 0 % 2) + s.argW 0 / 256 % 64) (s.argW 1) (s.argW 2) (s.argW 3)).completeDone []

/-- GRID_BUILD (0x81). -/
def gridBuildSpec : CmdSpec where
  opcode := 0x81
  states d := d == .lathed
  role := roleI
  argOk s := !s.flag Reg.gridMode
  classes := []
  usesPath := false
  run _ s :=
    let m := s.argW 0
    let s := if testBit m 0 then s.buildGrid 0 else s
    (if testBit m 1 then s.buildGrid 1 else s).completeDone []

/-- STENCIL_SELECT. -/
def execStencilSelect (p : Port) (s : State) : Outcome := act (s.framed p) (stencilSelectSpec.issue p)
/-- GRID_BUILD. -/
def execGridBuild (p : Port) (s : State) : Outcome := act (s.framed p) (gridBuildSpec.issue p)

end Sys2Proof.Machine
end

