-- ==== Sys2Proof/Machine/Cal.lean ====
section
/-! DEFINITION. Calibration, path self-test, ageing and the margin plan (chapter 15). -/

namespace Sys2Proof.Machine

/-! ## Agreement and limits (R432) -/

/-- The kinds of CAL.PATH_p.STATUS.FAIL_KIND. -/
def failDisagree : Nat := 1
def failLimit : Nat := 2
def failPlumb : Nat := 3
def failAborted : Nat := 4
def failObs : Nat := 5

/-- A difference of phases in 0.01°, the shorter way round. -/
def phaseDiff (a b : Int) : Int := (b - a + 18000) % 36000 - 18000

/-- How a number of a run is compared: not at all, by a difference, or as a phase. -/
inductive Agree where
  | free
  | within (tol : Int)
  | phase (tol : Int)
  deriving DecidableEq, Repr

/-- The numbers of a run of a calibration and the tolerance of each between two runs (R432). -/
def calRows : Nat → List Agree
  | 0 => (List.replicate 4 [Agree.within 20, Agree.phase 100]).flatten ++ List.replicate 4 .free
  | 1 => [.within 1, .within 0]
  | 2 => [.within 8, .within 8, .free]
  | 3 => [.within 8, .within 8, .free]
  | 4 => [.within 5, .phase 50]
  | 5 => [.within 8, .within 8, .free]
  | 6 => List.replicate 32 (.within 10)
  | 7 => [.within 5, .phase 50]
  | _ => [.within 10, .phase 100]

/-- Two runs agree. -/
def runsAgree (id : Nat) (a b : List Int) : Bool :=
  ((calRows id).zip (a.zip b)).all fun x =>
    match x.1 with
    | .free => true
    | .within t => decide (x.2.1 - x.2.2 ≤ t) && decide (x.2.2 - x.2.1 ≤ t)
    | .phase t => decide (phaseDiff x.2.1 x.2.2 ≤ t) && decide (-t ≤ phaseDiff x.2.1 x.2.2)

/-- The mean of two runs, half up. -/
def runsMean (id : Nat) (a b : List Int) : List Int :=
  ((calRows id).zip (a.zip b)).map fun x =>
    match x.1 with
    | .phase _ => x.2.1 + roundDiv (phaseDiff x.2.1 x.2.2) 2
    | _ => roundDiv (x.2.1 + x.2.2) 2

/-- A run holds every number of its calibration. -/
def runWhole (id : Nat) (a : List Int) : Bool := a.length == (calRows id).length

/-- The result of the runs of a calibration, if two agree. Where a third run agrees with both, which pair is taken is
free. -/
def takeRuns (id : Nat) (runs : List (List Int)) : Option (List Int) :=
  match runs.filter (runWhole id) with
  | a :: b :: rest =>
    if runsAgree id a b then some (runsMean id a b)
    else match rest with
      | c :: _ =>
        let x := runsAgree id a c
        let y := runsAgree id b c
        if x && (!y || Config.freeOf 432 [] % 2 == 0) then some (runsMean id a c)
        else if y then some (runsMean id b c)
        else none
      | [] => none
  | _ => none

/-- A tone offset lies in the range of R426, in kHz. -/
def offsetInRange (o : Int) : Bool :=
  decide (-26000 ≤ o) && decide (o ≤ 26000) && (decide (200 < o) || decide (o < -200))

/-- The Plumb tone lies at a usable offset from every LO (R426). -/
def State.plumbOffsetsOk (s : State) : Bool :=
  (List.range 4).all fun x => offsetInRange ((s.getF Reg.plumbFreqKhz : Int) - s.getF (Reg.synFreqFreqKhz x))

/-- The worst gain-step error of a gain-table result in 0.01 dB. -/
def gainStepError (l : List Int) : Nat := ((l.zip (l.drop 1)).map fun x => (x.2 - x.1).natAbs).foldl max 0

/-- A result lies within its pass limit (R432). -/
def State.calLimit (s : State) (id p : Nat) (v : List Int) : Bool :=
  let n (i : Nat) : Int := v.getD i 0
  match id with
  | 0 => s.plumbOffsetsOk && (v.drop 8).all fun l => (l - toSigned 16 (s.getF Reg.plumbLevelLevel)).natAbs ≤ 300
  | 1 => decide (0 ≤ n 0) && decide (n 0 ≤ 65520)
  | 2 => decide (200 ≤ n 2)
  | 3 => decide (240 ≤ n 2)
  | 5 => decide (260 ≤ n 2)
  | 6 => decide (gainStepError v ≤ 50)
  | 8 => match s.cal.loop.find? fun x => x.1 == p with
    | some x => decide ((n 0 - x.2.1).natAbs ≤ 300) && decide ((phaseDiff x.2.2 (n 1)).natAbs ≤ 4500)
    | none => true
  | _ => decide ((n 0).natAbs ≤ 300)

/-- What the observation path adds to a transmit phase and gain is removed: as PLUMB_REF last measured it, and for
TX_ARRAY, while PRESENT is 0, as the maker trimmed it (R426, R428, R435). -/
def State.withoutObs (s : State) (id p : Nat) (v : List Int) : List Int :=
  if id = 8 ∨ (id = 4 ∧ s.flag Reg.plumbStatusPresent) then
    let x := s.cal.obs.getD (obsOf p) (0, 0)
    [v.getD 0 0 - x.1, v.getD 1 0 - x.2]
  else v

/-- A calibration of a path: its result, or the kind of its failure. -/
def State.calTake (s : State) (id p : Nat) (runs : List (List Int)) : Except Nat (List Int) :=
  match (takeRuns id runs).map (s.withoutObs id p) with
  | none => .error failDisagree
  | some v => if s.calLimit id p v then .ok v else .error failLimit

/-! ## What results write (R427, R429, R430) -/

/-- Put a pair into a list by path. -/
def putPath {β : Type} (p : Nat) (v : β) (l : List (Nat × β)) : List (Nat × β) := mapInsert p v (mapErase p l)

/-- Change the calibration state. -/
def State.setCalState (s : State) (f : CalState → CalState) : State := { s with cal := f s.cal }

/-- The array weight of a measured gain and phase with the path's TILE_OFFSET (R430). -/
def State.arrayWeight (s : State) (p : Nat) (g th : Int) : Weight :=
  polarWeight (toSigned 16 (s.getF (Reg.tileOffsetGain p)) - g)
    ((s.getF (Reg.tileOffsetPhase p) * 2 ^ 48 : Nat) - th * 2 ^ 64 / 36000)

/-- Record a result that was taken in CAL.PATH_p.QUALITY (R432). -/
def State.calQuality (s : State) (p id : Nat) (v : List Int) : State :=
  let level (f : Fld) : State := s.setF f (min 255 (v.getD 2 0).toNat)
  match id with
  | 2 => level (Reg.calPathQualityTxLeak p)
  | 3 => level (Reg.calPathQualityTxImage p)
  | 5 => level (Reg.calPathQualityRxIrr p)
  | 6 => s.setF (Reg.calPathQualityGainErr p) (min 255 (gainStepError v))
  | _ => s

/-- Store one result of a path. -/
def State.calStore (s : State) (p id : Nat) (v : List Int) : State :=
  let n (i : Nat) : Int := v.getD i 0
  match id with
  | 1 => (s.setF (Reg.txObsLoopDelay p) (n 0).toNat).setF (Reg.txObsAtten p) (n 1).toNat
  | 2 => (s.setF (Reg.txDcDcI p) (ofSigned 16 (n 0))).setF (Reg.txDcDcQ p) (ofSigned 16 (n 1))
  | 3 => (s.setF (Reg.txImageBetaRe p) (ofSigned 16 (n 0))).setF (Reg.txImageBetaIm p) (ofSigned 16 (n 1))
  | 4 => (s.setCalState fun c => { c with tx := putPath p (n 0, n 1) c.tx, loop := putPath p (n 0, n 1) c.loop }
      ).newStepValue 1 p (s.arrayWeight p (n 0) (n 1)).word
  | 5 => (s.setF (Reg.rxImageBetaRe p) (ofSigned 16 (n 0))).setF (Reg.rxImageBetaIm p) (ofSigned 16 (n 1))
  | 6 => s.setCalState fun c => { c with gains := putPath p v c.gains }
  | 7 => (s.setCalState fun c => { c with rx := putPath p (n 0, n 1) c.rx }).newStepValue 0 p
      (s.arrayWeight p (n 0) (n 1)).word
  | 8 => (s.setCalState fun c => { c with tx := putPath p (n 0, n 1) c.tx }).newStepValue 1 p
      (s.arrayWeight p (n 0) (n 1)).word
  | _ => s

/-- Write one result of a path: changed corrections move to their new values (R126, R156). -/
def State.calWrite (s : State) (p id : Nat) (v : List Int) : State := (s.calStore p id v).rampFrom s p

/-- The results of a pass of a path are traced while PRESENT is 1; those of the IDs that derived one record its SEQ (R427,
R428). -/
def State.calTrace (s : State) (p : Nat) (ids : List Nat) : State :=
  (s.setFlag (Reg.calPathStatusTraced p) (s.flag Reg.plumbStatusPresent)).setCalState fun c =>
    { c with seqs := ids.foldl (fun l id => putPath (16 * p + id) (s.getF Reg.plumbStatusSeq) l) c.seqs }

/-- Where RX_ARRAY keeps a present value and the row entry holds none since its fill, that is the maker's trim (R428). -/
def State.keepRow (s : State) (p : Nat) : State :=
  if (s.cal.rx.any fun x => x.1 == p) || s.stepValue 0 p != 0 then s else s.newStepValue 0 p (Config.rowTrim p).toNat

/-- A failed calibration of a path shows its ID and kind. -/
def State.calFailed (s : State) (p id kind : Nat) : State :=
  (s.setF (Reg.calPathStatusFailId p) id).setF (Reg.calPathStatusFailKind p) kind

/-- A TILE_OFFSET of a path changed: its array weights follow from what was measured (R430, R436). -/
def State.tileOffsetWritten (s : State) (p : Nat) : State :=
  let one (s : State) (row : Nat) (l : List (Nat × Int × Int)) : State :=
    match l.find? fun x => x.1 == p with
    | some x => s.newStepValue row p (s.arrayWeight p x.2.1 x.2.2).word
    | none => s
  one (one s 0 s.cal.rx) 1 s.cal.tx

/-- PLUMB_REF (R426). -/
def State.plumbRef (s : State) (runs : List (List Int)) : State × Bool :=
  match s.calTake 0 0 runs with
  | .ok v =>
    let s := (s.setF Reg.plumbStatusPresent 1).addWrap Reg.plumbStatusSeq 1
    (s.setCalState fun c => { c with
      plumbDone := true, obs := (List.range 4).map fun q => (v.getD (2 * q) 0, v.getD (2 * q + 1) 0) }, true)
  | .error _ => (s.setF Reg.plumbStatusPresent 0, false)

/-! ## Passes (R428, R430 to R434) -/

/-- A half is up and locked for a pass (R434). -/
def State.calReady (s : State) (p : Nat) : Bool :=
  s.inLathedUp && s.analogOn (halfOf p) && s.synState (2 * halfOf p) == synLocked &&
    s.synState (2 * halfOf p + 1) == synLocked

/-- The runs of a path's pass that were repeated for an LO: the transmit LO's, and at IDs 5 to 7 the receive LO's too
(R434). -/
def State.repeatsOf (s : State) (p id : Nat) : Nat :=
  mapGet 0 (2 * p) s.cal.repeats + if 5 ≤ id ∧ id ≤ 7 then mapGet 0 (2 * p + 1) s.cal.repeats else 0

/-- A fourth repeat abandoned a path's preparation at a calibration: it is one that this calibration's LOs allow (R434). -/
def State.abandoned (s : State) (m : CalMeasure) (id : Nat) : Bool :=
  m.aborted.map Fin.val == some id && decide (4 ≤ s.repeatsOf m.path.val id)

/-- What a calibration of ID 1 to 7 of a path comes to: nothing to write (it keeps its value), a result, or a failure. -/
def State.calOne (s : State) (m : CalMeasure) (id : Nat) : Except Nat (Option (List Int)) :=
  let p := m.path.val
  let present := s.flag Reg.plumbStatusPresent
  if s.obsBad p then .error failObs
  else if !present && s.flag Reg.calCtrlRequirePlumb then .error failPlumb
  else if s.abandoned m id then .error failAborted
  else if !present && decide (5 ≤ id) then .ok none
  else (s.calTake id p (m.runs.getD id [])).map some

/-- The calibrations of a list of IDs in their order, up to the first failure. -/
def State.calList (s : State) (m : CalMeasure) : List Nat → Except (Nat × Nat) (List (Nat × List Int))
  | [] => .ok []
  | id :: t =>
    match s.calOne m id with
    | .error k => .error (id, k)
    | .ok none => s.calList m t
    | .ok (some v) => (s.calList m t).map fun l => (id, v) :: l

/-- The results that a list of calibrations takes in their order, up to the first failure, with one that lies outside its
limit (R432). -/
def State.calTaken (s : State) (m : CalMeasure) : List Nat → List (Nat × List Int)
  | [] => []
  | id :: t =>
    match s.calOne m id with
    | .ok none => s.calTaken m t
    | .ok (some v) => (id, v) :: s.calTaken m t
    | .error k =>
      if k != failLimit then []
      else match (takeRuns id (m.runs.getD id [])).map (s.withoutObs id m.path.val) with
        | some v => [(id, v)]
        | none => []

/-- Record the results that a list of calibrations takes. -/
def State.calRecordQuality (s : State) (m : CalMeasure) (ids : List Nat) : State :=
  s.each (s.calTaken m ids) fun s x => s.calQuality m.path.val x.1 x.2

/-- The paths of PATH_PREPARE that were prepared. -/
def State.prepared (s : State) (p : Nat) : State :=
  match s.job with
  | some (.pathPrepare left done) =>
    if testBit left p && !testBit done p then { s with job := some (.pathPrepare left (done + 2 ^ p)) } else s
  | _ => s

/-- The pass of a path is over: its repeats and the runs taken count no more (R434, R435). -/
def State.passOver (s : State) (p : Nat) : State :=
  s.setCalState fun c => { c with
    repeats := c.repeats.filter fun x => x.1 / 2 != p
    coupler := c.coupler.filter fun x => x.1 != p }

/-- The preparation pass of a path in CAL ends (R188, R431 to R433, R439). -/
def State.prepEnd (s : State) (m : CalMeasure) : State :=
  let p := m.path.val
  let ids := [1, 2, 3, 4, 5, 6, 7]
  if !s.prepTurn p || !s.calReady p then s
  else
    let s := if s.cal.plumbDone then s else (s.plumbRef (m.runs.getD 0 [])).1
    let s := s.calRecordQuality m ids
    match s.calList m ids with
    | .error e => (s.calFailed p e.1 e.2).fence fenceCal p
    | .ok l =>
      let s := (s.passOver p).setPath p pathReady
      let s := (s.each l fun s x => s.calWrite p x.1 x.2).calTrace p (l.map Prod.fst)
      let s := s.when (!l.any fun x => x.1 == 7) fun s => s.keepRow p
      let s := ((s.setF (Reg.calPathStatusRestored p) 0).setF (Reg.calPathStatusDue p) 0).setF
        (Reg.prepBar p) s.bar
      let s := match s.synTemp (2 * halfOf p) with
        | some t => s.setCalState fun c => { c with stamps := putPath p t c.stamps }
        | none => s
      s.prepared p

/-- A path on which CAL_RUN with an ID acts (R435, R452). -/
def State.calActs (s : State) (id p : Nat) : Bool :=
  if id = 8 then s.path p == pathActive && s.tileState (p / 8) == tileUp
  else s.path p == pathFenced && [fenceHost, fenceTile, fenceCal, fenceAerial].contains (s.fenceReason p)

/-- The result of a TX_COUPLER is written, or discarded and counted (R433, R435): the state and whether it succeeded. -/
def State.couplerEnd (s : State) (p : Nat) (r : Except Nat (List Int)) : State × Bool :=
  let s := s.passOver p
  match r with
  | .error k => ((s.calFailed p 8 k).addSat (Reg.calPathStatusCouplerFails p) 1, false)
  | .ok v => ((s.calWrite p 8 v).calTrace p [8], true)

/-- The runs of TX_COUPLER that a path's pass has taken. -/
def State.couplerRuns (s : State) (p : Nat) : List (List Int) :=
  ((s.cal.coupler.find? fun x => x.1 == p).map Prod.snd).getD []

/-- Two runs that agree, or three, are all that a calibration takes (R432). -/
def runsDone : List (List Int) → Bool
  | [a, b] => runsAgree 8 a b
  | l => decide (3 ≤ l.length)

/-- One path of a CAL_RUN: the state and whether the path was calibrated. -/
def State.calRunOne (s : State) (id : Nat) (m : CalMeasure) : State × Bool :=
  let p := m.path.val
  if !s.calActs id p then (s, false)
  else if id = 8 then
    s.couplerEnd p (if s.obsBad p then .error failObs else s.calTake 8 p (s.couplerRuns p))
  else if !s.calReady p then (s, false)
  else
    let s := s.calRecordQuality m [id]
    match s.calOne m id with
    | .error k => (s.calFailed p id k, false)
    | .ok none => ((s.calTrace p []).when (id == 7) fun s => s.keepRow p, true)
    | .ok (some v) => ((s.calWrite p id v).calTrace p [id], true)

/-- The pass of CAL_RUN ends: its results are written together. A fourth repeat for an LO has abandoned it, and then it
writes nothing (R431, R434). -/
def State.calRunEnd (s : State) (id mask : Nat) (l : List CalMeasure) : State :=
  let n := mapGet 0 128 s.cal.repeats
  let s := s.setCalState fun c => { c with repeats := mapErase 128 c.repeats }
  if 4 ≤ n then (s.each (maskList 64 mask) fun s p => (s.passOver p).calFailed p id failAborted).completeDone [0, 0]
  else if id = 0 then
    let s := match l with
      | m :: _ => (s.plumbRef (m.runs.getD 0 [])).1
      | [] => s.setF Reg.plumbStatusPresent 0
    s.completeDone [0, 0]
  else
    let r := (l.filter fun m => testBit mask m.path.val).foldl (fun (x : State × List Nat) m =>
      let y := x.1.calRunOne id m
      (y.1, if y.2 then insertOnce m.path.val x.2 else x.2)) (s, [])
    r.1.completeDone (maskWords (listMask r.2))

/-- The paths through whose receivers PLUMB_REF measures the tone, one of each quarter of a half that is On (R164, R426),
where a pass includes it. -/
def State.plumbPaths (s : State) (run : Bool) : List Nat :=
  let with_ : Bool := if run then (match s.job with | some (.calRun 0 _) => true | _ => false) else !s.cal.plumbDone
  if with_ then [0, 16, 32, 48].filter fun p => s.analogOn (halfOf p) else []

/-- Paths use the observation time in µs that their passes need through the loop-back port, charged to CAL (R431): what a path
does not hold is requested first, and then false is told (R162). -/
def State.obsTake (s : State) (paths : List Nat) (grains : Nat) : State × Bool :=
  let short := paths.filter fun p => decide (s.obsHeld 5 p 2 < grains)
  if short.isEmpty then (s.each paths fun s p => s.obsSpend 5 p 2, true)
  else (s.each short fun s p => s.obsNeed 5 p 2 grains, false)

/-- The paths that preparation serves, one of each quarter, whose passes are reported (R431, R434). -/
def State.prepServed (s : State) (l : List CalMeasure) : List Nat :=
  (l.map fun m => m.path.val).filter fun p => s.prepTurn p && s.calReady p

/-- The paths of a CAL_RUN of ID 1 to 7 whose passes are reported. -/
def State.runServed (s : State) (l : List CalMeasure) : List Nat :=
  match s.job with
  | some (.calRun id mask) => (l.map fun m => m.path.val).filter fun p => testBit mask p && s.calActs id p && s.calReady p
  | _ => []

/-- Every path of a CAL_RUN of ID 8 has its runs, or can have none (R432, R435). -/
def State.couplerAll (s : State) (mask : Nat) : Bool :=
  (maskList 64 mask).all fun p => !s.calActs 8 p || s.obsBad p || runsDone (s.couplerRuns p)

/-- CAL_PASS_END: the preparation passes of the paths in turn end, or the pass of CAL_RUN. `grains` is the observation time
in µs that the pass of each path needs; the runs of ID 8 come by TX_COUPLER_RUN. -/
def State.calPassEnd (run : Bool) (l : List CalMeasure) (grains : Nat) (s : State) : State :=
  let plumb := s.plumbPaths run
  let served := if run then s.runServed l else s.prepServed l
  match run, s.job with
  | true, some (.calRun 8 mask) =>
    if s.couplerAll mask || decide (4 ≤ mapGet 0 128 s.cal.repeats) then
      s.calRunEnd 8 mask ((List.finRange 64).map fun p => ⟨p, [], none⟩)
    else s
  | true, some (.calRun id mask) =>
    let a := s.obsTake (plumb ++ served) grains
    if a.2 then a.1.calRunEnd id mask l else a.1
  | true, _ => s
  | false, _ =>
    if served.isEmpty then s
    else
      let a := s.obsTake (plumb ++ served.filter fun p => !plumb.contains p) grains
      if a.2 then a.1.each (l.filter fun m => served.contains m.path.val) State.prepEnd else a.1

/-- A path in preparation, calibration or test (R452). -/
def State.calBusy (s : State) (m : Nat) : Bool := (maskList 64 m).any fun p => s.path p == pathCal

/-- CAL_RUN (0x40). -/
def calRunSpec : CmdSpec where
  opcode := 0x40
  states := lathedUp
  role := roleI
  argOk s := decide (s.argW 0 ≤ 8) && (s.argW 0 != 8 || s.inService)
  classes := [5]
  usesPath := true
  run _ s :=
    let id := s.argW 0
    let m := s.maskArg 1
    if id = 0 then { s with job := some (.calRun 0 0) }
    else if s.calBusy m then s.complete .busy
    else
      let l := (maskList 64 m).filter (s.calActs id)
      if l.isEmpty then s.completeDone [0, 0] else { s with job := some (.calRun id (listMask l)) }

/-- COUPLER_PERIOD bars have passed since a path's last TX_COUPLER on its period (R430). -/
def State.couplerDue (s : State) (p : Nat) : Bool :=
  match s.cal.couplerBars.find? fun x => x.1 == p with
  | some x => decide (x.2 + s.couplerPeriod ≤ barOfNs s.nowNs) || decide (barOfNs s.nowNs < x.2)
  | none => true

/-- CAL_RUN of ID 8 measures a path, and lacks runs of it. -/
def State.couplerAsked (s : State) (p : Nat) : Bool :=
  match s.job with
  | some (.calRun 8 mask) => testBit mask p && !s.obsBad p && !runsDone (s.couplerRuns p)
  | _ => false

/-- TX_COUPLER runs on a path: on its period, or for CAL_RUN (R430, R435). -/
def State.couplerTurn (s : State) (p : Nat) : Bool :=
  s.inService && s.calActs 8 p && (s.couplerAsked p || (s.flag Reg.calCtrlAutoCoupler && s.couplerDue p))

/-- A run of TX_COUPLER is taken: a pass of its period ends with the last of them, one of CAL_RUN with CAL_PASS_END. -/
def State.couplerTake (s : State) (p : Nat) (v : List Int) : State :=
  let asked := s.couplerAsked p
  let runs := s.couplerRuns p ++ [v]
  let s := s.setCalState fun c => { c with coupler := putPath p runs c.coupler }
  if !runsDone runs then s.obsNeed 5 p 0 16
  else if asked then s
  else
    ((s.setCalState fun c => { c with couplerBars := mapInsert p (barOfNs s.nowNs) (mapErase p c.couplerBars) }).couplerEnd
      p (s.calTake 8 p runs)).1

/-- A capture of TX_COUPLER (R432 to R435): its 16 µs need a grant of the forward coupler, which it asks for where it holds
none, and start at a symbol start of the timing carrier. A capture whose reference lies below −30 dBFS, or of which a sample
was not on air, is discarded and repeated; a fourth repeat for the LO abandons the pass. `v` is the gain and phase of the
capture. -/
def State.txCoupler (p : Nat) (v : List Int) (ref : List Sample) (s : State) : State :=
  if !s.couplerTurn p then s
  else if s.obsHeld 5 p 0 < 16 then s.obsNeed 5 p 0 16
  else match s.obsStarted 5 p 0 with
    | none => s
    | some a =>
      s.reach (a + nsTicks 16000) fun s =>
      let s := s.obsSpend 5 p 0
      let clean := (s.viewsIn a (a + nsTicks 16000)).all fun v => v.onAir.contains p
      if !s.couplerAsked p && decide (4 ≤ s.repeatsOf p 8) then
        (s.couplerEnd p (.error failAborted)).1
      else if lowReference ref || !clean then s.obsNeed 5 p 0 16
      else s.couplerTake p v

/-! ## The Seam (R437, R438) -/

/-- The roles changed after a Seam measurement of the present fret began, 96 µs after its boundary (R437, R438). -/
def State.seamBroken (s : State) : Bool :=
  match s.cal.roleNs with
  | some t => decide (s.absFret * 250000 + 96000 ≤ t) && decide (t ≤ s.nowNs)
  | none => false

/-- The Seam run of the present fret begins: SEAM_OUT is on from 96 µs after the boundary, and OBS_0 is granted to SEAM_IN
under CAL from 98 µs to 196 µs (R437). One whose grant the CAL budget does not cover is skipped (R438). -/
def State.seamBegins (s : State) : State :=
  let f := s.absFret * 250000
  if !s.coversObs 5 98 then
    ((s.setCalState fun c => { c with seamRun := some (s.absFret, false) }).addSat Reg.seamStatusSkipped 1).exhaust 5
  else
    let s := (s.charge 5 2 98).setObs 0 fun x =>
      { x with until_ := s.drone.ticks + nsTicks (f + 196000 - s.nowNs), ready := s.drone.ticks + nsTicks (f + 100000 - s.nowNs) }
    let s := ((s.setF (Reg.obsStatusSource 0) 2).setF (Reg.obsStatusClass 0) 5).setF (Reg.obsStatusBusy 0) 1
    s.setCalState fun c => { c with
      seamRun := some (s.absFret, true)
      seamOut := [(f + 96000, f + 164000)] }

/-- SEAM_MEASUREMENT: the Seam run of the present fret begins, or, once it has begun, ends 196 µs after the fret's boundary
with the mean phase in 2^-32 of a turn, the residual in 0.1°, and whether step 4 saw the twin's tone. It does not begin
while another grant holds OBS_0, which is not pre-empted (R162). -/
def State.seamMeasured (mean residual : Nat) (seen : Bool) (s : State) : State :=
  let f := s.absFret * 250000
  if !s.seamHere || decide (f + 196000 < s.nowNs) then s
  else if s.cal.seamRun = some (s.absFret, false) then s
  else if s.cal.seamRun = some (s.absFret, true) then
    let s := (s.passTo (f + 196000)).setCalState fun c => { c with seamRun := some (s.absFret, false) }
    if s.seamBroken then s else go s
  else
    let s := s.passTo (max s.nowNs (f + 98000))
    if s.obsTaken 0 then s else s.seamBegins
where
  go (s : State) : State :=
    let good : Bool := decide (residual ≤ 30)
    let s := if good then s.setCalState fun c => { c with
        seamOut := c.seamOut ++ [(s.absFret * 250000 + 180000, s.absFret * 250000 + 196000)] }
      else s
    let s := s.setF Reg.seamStatusResidual (min residual 254)
    let s := s.setFlag Reg.seamStatusTwinSeen seen
    let s :=
      if good then
        let d := toSigned 32 (mean + 2 ^ 32 - s.getF Reg.seamSkew * 2 ^ 16 % 2 ^ 32)
        s.newStepValue 2 0 (ofSigned 16 (roundDiv d (2 ^ 17)))
      else s
    let ok := good && seen
    let s := s.when (ok != s.flag Reg.seamOk) State.undo
    let s := s.setFlag Reg.seamOk ok
    if ok then s.setCalState fun c => { c with seamBar := barOfNs s.nowNs } else s

/-- 2 × PERIOD bars without a successful measurement clear OK. -/
def State.seamTimeout (s : State) : State :=
  if s.flag Reg.seamOk && s.cal.seamBar + 2 * s.getF Reg.seamCtrlPeriod ≤ barOfNs s.nowNs then
    (s.setF Reg.seamOk 0).undo
  else s

/-! ## When recalibration is due (R439) -/

/-- DUE of a path: its preparation is too old, or the temperature has moved. -/
def State.calDue (s : State) (p : Nat) : State :=
  let old := decide ((s.prepInterval * 360000 : Nat) < barDiff s.bar (s.getF (Reg.prepBar p)))
  if old || s.calWarm p then s.setF (Reg.calPathStatusDue p) 1 else s

/-- DUE of every path. -/
def State.calDueAll (s : State) : State := s.each (List.range 64) State.calDue

/-! ## Path self-test (R440 to R443) -/

/-- PATH_TEST (0x44). -/
def pathTestSpec : CmdSpec where
  opcode := 0x44
  states := lathedUp
  role := roleI
  argOk _ := true
  classes := [6]
  usesPath := true
  run _ s :=
    let m := s.maskArg 0
    if s.calBusy m then s.complete .busy
    else
      let l := (maskList 64 m).filter (s.calActs 1)
      if l.isEmpty then s.completeDone [0, 0, 0, 0] else { s with job := some (.pathTest (listMask l) 0 0 0) }

/-- The checks that a path's test skips, from the quarters whose check 1 failed before it and its own check 1. -/
def testSkips (present require bad1 : Bool) : List Nat :=
  (if !present && !require then [1, 3] else []) ++ (if bad1 then [2, 3, 4] else [])

/-- A number lies within a tolerance of another. -/
def near (tol a b : Int) : Bool := decide (a - b ≤ tol) && decide (b - a ≤ tol)

/-- The gain in 0.01 dB that the last TX_ARRAY found for a path through the loop-back; none: as G_REF. -/
def State.loopGain (s : State) (p : Nat) : Int :=
  match s.cal.loop.find? fun x => x.1 == p with
  | some x => x.2.1
  | none => 0

/-- Check `c` of a path's test passes on the numbers `v` that it measured (R440), levels in 0.01 dB and phases in 0.01°.
Check 1: gain and phase of the Plumb tone; 2: the test tone's gain relative to G_REF, its image and then every spur below the
carrier; 3: the Plumb tone's level in dBm and the image rejection; 4: the noise above that of the termination. -/
def State.testPasses (s : State) (p c : Nat) (v : List Int) : Bool :=
  let n (i : Nat) : Int := v.getD i 0
  let ref := s.cal.obs.getD (obsOf p) (0, 0)
  match c with
  | 1 => v.length == 2 && near 100 (n 0) ref.1 && near 100 (phaseDiff ref.2 (n 1)) 0
  | 2 => decide (2 ≤ v.length) && near 100 (n 0) (s.loopGain p) && decide (5500 ≤ n 1) &&
      (v.drop 2).all fun x => decide (6000 ≤ x)
  | 3 => v.length == 2 && near 100 (n 0) (toSigned 16 (s.getF Reg.plumbLevelLevel)) && decide (6000 ≤ n 1)
  | _ => v.length == 1 && near 200 (n 0) 280

/-- The test of a path under test ends: `checks` is what checks 1 to 4 measured. `micros` is the observation time that its
checks 1 and 2 need through the loop-back port, charged to BIST: what is not held is requested first (R162, R440). A fourth
repeat for an LO abandons the test (R434, R441). Where no path is left the command completes. -/
def State.pathTestEnd (p : Nat) (checks : List (List Int)) (micros : Nat) (s : State) : State :=
  match s.job with
  | some (.pathTest left passed failed bad) =>
    if left = 0 then next s left passed failed bad
    else if !s.underTest p then s
    else if decide (s.obsHeld 6 p 2 < micros) then s.obsNeed 6 p 2 micros
    else
      let again := mapGet 0 (2 * p) s.cal.repeats + mapGet 0 (2 * p + 1) s.cal.repeats
      let s := ((s.obsSpend 6 p 2).passOver p).syncPath p
      let left := listMask ((maskList 64 left).filter fun q => q != p)
      if 4 ≤ again then next (s.setF (Reg.calPathStatusFailKind p) failAborted) left passed failed bad
      else
        let q := obsOf p
        let present := s.flag Reg.plumbStatusPresent
        let require := s.flag Reg.calCtrlRequirePlumb
        let plumb := !present && require
        let skip1 := !present && !require
        let ok1 := s.testPasses p 1 (checks.getD 0 []) && !plumb
        let fail1 := !skip1 && !ok1
        let skips := testSkips present require (fail1 || testBit bad q)
        let ok (c : Nat) : Bool := if c = 1 then ok1 else s.testPasses p c (checks.getD (c - 1) [])
        let ran := [1, 2, 3, 4].filter fun c => !skips.contains c
        let passes := ran.filter ok
        let f := Reg.bistStatusObsBad
        let s :=
          if fail1 then s.setF f (s.getF f ||| 2 ^ q)
          else if !skip1 && testBit (s.getF f) q then s.setF f (s.getF f - 2 ^ q) else s
        let s := (((s.setF (Reg.bistPassed p) (listMask (passes.map (· - 1)))).setF (Reg.bistSkipped p)
          (listMask (skips.map (· - 1)))).addWrap (Reg.bistTests p) 1)
        let obs := fail1 || testBit bad q
        let s := if obs then s.setF (Reg.calPathStatusFailKind p) (if plumb then failPlumb else failObs) else s
        let late := ran.any fun c => c != 1 && !ok c
        let s := if late && s.path p == pathFenced && s.fenceReason p == fenceHost then
            s.setF (Reg.pathStateFenceReason p) fenceCal
          else s
        let bad := if fail1 then bad ||| 2 ^ q else bad
        if obs || late then next s left passed (failed + 2 ^ p) bad else next s left (passed + 2 ^ p) failed bad
  | _ => s
where
  next (s : State) (left passed failed bad : Nat) : State :=
    if left = 0 then s.completeDone (maskWords passed ++ maskWords failed)
    else { s with job := some (.pathTest left passed failed bad) }

/-! ## Saving and restoring (R444, R445) -/

/-- One bit of the CRC-32 of IEEE 802.3, reflected. -/
def crcBit (c : Nat) : Nat := if c % 2 = 1 then (c / 2) ^^^ 0xEDB88320 else c / 2

/-- One byte of the CRC-32. -/
def crcByte (c : Nat) (b : Byte) : Nat :=
  crcBit (crcBit (crcBit (crcBit (crcBit (crcBit (crcBit (crcBit (c ^^^ b.toNat))))))))

/-- The CRC-32 of the IEEE 802.3 polynomial (R444). -/
def crc32 (l : List Byte) : Nat := l.foldl crcByte 0xFFFFFFFF ^^^ 0xFFFFFFFF

/-- The registers of a path record: RX_IMAGE, TX_IMAGE, TX_DC, TX_OBS. -/
def calRegs (p : Nat) : List (List Fld) :=
  [[Reg.rxImageBetaRe p, Reg.rxImageBetaIm p], [Reg.txImageBetaRe p, Reg.txImageBetaIm p],
    [Reg.txDcDcI p, Reg.txDcDcQ p], [Reg.txObsAtten p, Reg.txObsLoopDelay p]]

/-- The word that fields make. -/
def State.fieldWord (s : State) (l : List Fld) : Nat := (l.map fun f => s.getF f * 2 ^ f.lo).sum

/-- Put a word into its fields. -/
def State.putFields (s : State) (l : List Fld) (w : Nat) : State := s.each l fun s f => s.setF f (bits w f.lo f.w)

/-- The fields of CAL.PATH_p.QUALITY. -/
def qualityFields (p : Nat) : List Fld :=
  [Reg.calPathQualityRxIrr p, Reg.calPathQualityTxImage p, Reg.calPathQualityTxLeak p, Reg.calPathQualityGainErr p]

/-- The 128-byte record of a path. -/
def State.calRecord (s : State) (p : Nat) : List Byte :=
  let gains := s.gainTable p
  let stamp := (s.cal.stamps.find? fun x => x.1 == p).map Prod.snd |>.getD 0
  ((calRegs p).flatMap fun l => leBytes 4 (s.fieldWord l)) ++ leBytes 4 (s.stepValue 0 p) ++ leBytes 4 (s.stepValue 1 p) ++
    leBytes 4 (s.fieldWord (qualityFields p)) ++ leBytes 4 (s.regValue (0x1700100 + 16 * p)) ++
    ((List.range 32).flatMap fun i => leBytes 2 (ofSigned 16 (gains.getD i 0))) ++
    leBytes 4 (s.getF (Reg.prepBar p)) ++ leBytes 1 (ofSigned 8 stamp) ++ List.replicate 27 0

/-- The calibration image (R444). -/
def State.calImage (s : State) : List Byte :=
  let head := leBytes 4 0x424C4143 ++ leBytes 4 1 ++ leBytes 4 targetId ++ leBytes 8 Config.deviceUid.toNat ++
    leBytes 6 (s.nowNs / 1000000000) ++ leBytes 2 0 ++ leBytes 4 (s.getF Reg.plumbStatusSeq) ++ List.replicate 32 0
  let body := head ++ ((List.range 64).flatMap s.calRecord) ++ leBytes 4 (s.getF Reg.seamPhase) ++ List.replicate 8 0
  body ++ leBytes 4 (crc32 body)

/-- CAL_SAVE (0x48). -/
def calSaveSpec : CmdSpec where
  opcode := 0x48
  states := lathedUp
  role := roleIO
  argOk s := offsetOk (s.argW 0) 8272
  classes := []
  usesPath := false
  run _ s := (s.writeBytes .capture .spine (s.argW 0) s.calImage).completeDone [8272]

/-- Apply the record of a path (R445): changed corrections move to their new values (R126, R156). -/
def State.calRestore (s : State) (p : Nat) (r : List Byte) : State :=
  let old := s
  let s := s.each ((List.range 4).zip (calRegs p)) fun s x => s.putFields x.2 (leAt (4 * x.1) 4 r)
  let s := (s.newStepValue 0 p (leAt 16 4 r)).newStepValue 1 p (leAt 20 4 r)
  let s := s.putFields (qualityFields p) (leAt 24 4 r)
  let s := (s.setF (Reg.calPathStatusRestored p) 1).setF (Reg.calPathStatusTraced p) (leAt 28 4 r % 2)
  let gains := (List.range 32).map fun i => toSigned 16 (leAt (32 + 2 * i) 2 r)
  State.rampFrom (old := old) (p := p) <| (s.setF (Reg.prepBar p) (leAt 96 4 r)).setCalState fun c => { c with
    gains := putPath p gains c.gains
    stamps := putPath p (toSigned 8 (leAt 100 1 r)) c.stamps
    rx := mapErase p c.rx
    tx := mapErase p c.tx
    loop := mapErase p c.loop }

/-- CAL_RESTORE (0x49). -/
def calRestoreSpec : CmdSpec where
  opcode := 0x49
  states d := d == .lathed
  role := roleI
  argOk s := offsetOk (s.argW 0) 8272
  classes := []
  usesPath := false
  run _ s :=
    let r := s.readCapture (s.argW 0) 8272
    let s := r.1
    let img := r.2.1
    if !r.2.2 then s.completeFail reasonMemPoison
    else if leAt 0 4 img ≠ 0x424C4143 ∨ leAt 4 4 img ≠ 1 then s.completeFail reasonBadHeader
    else if leAt 8 4 img ≠ targetId ∨ leAt 12 8 img ≠ Config.deviceUid.toNat then s.completeFail reasonTarget
    else if leAt 8268 4 img ≠ crc32 (img.take 8268) then s.completeFail reasonBadFraming
    else
      let l := (List.range 64).filter fun p => s.path p != pathCal
      let s := s.each l fun s p => s.calRestore p (slice (64 + 128 * p) 128 img)
      (s.newStepValue 2 0 (leAt 8256 4 img)).completeDone (0 :: maskWords (listMask l))

/-! ## Ageing and the margin plan (R446 to R449) -/

/-- The monitors of the groups LOGIC, MEMORY and ANALOG. -/
def ageGroup : Nat → List Nat
  | 0 => List.range 12
  | 1 => (List.range 12).map (· + 12)
  | _ => (List.range 8).map (· + 24)

/-- D of a group: the largest drift of its unbroken monitors, at least 0 (R447). -/
def State.groupDrift (s : State) (g : Nat) : Nat :=
  ((ageGroup g).map fun i =>
    if s.flag (Reg.ageingBroken i) then 0 else (toSigned 24 (s.getF (Reg.ageingDrift i))).toNat).foldl max 0

/-- The plan as it stands in spine memory. -/
def State.planBytes (s : State) : List Byte :=
  leBytes 4 (s.regValue 0x1701100) ++ leBytes 4 (s.regValue 0x1701104)

/-- Compute the plan (R447) and hold it in spine memory (R448). -/
def State.replan (s : State) : State :=
  let l := s.groupDrift 0
  let m := s.groupDrift 1
  let a := s.groupDrift 2
  let s := s.setF Reg.planAGuardMv (min 60 (20 + 5 * ((l + 399) / 400)))
  let s := s.setF Reg.planAMemTiming (if m < 2000 then 0 else if m < 5000 then 1 else if m < 10000 then 2 else 3)
  let s := s.setF Reg.planAPrepIntervalH (max 168 (2160 - a / 5))
  let s := s.setF Reg.planBCouplerPeriod (max 100 (6000 - a))
  let s := (s.setF Reg.ageingStatusDue 0).addWrap Reg.ageingStatusPlans 1
  let s := s.setCalState fun c => { c with plan := [l, m, a], measured := 0 }
  s.writeBytes .spine .spine planAddr s.planBytes

/-- A plan is computed on MONITOR's grains: one fabric cycle for each word of it (R404, R448); told false, it waits. -/
def State.askPlan (s : State) : State × Bool := s.ask 14 4 1

/-- The plan that is due, where CAL_CTRL has it follow by itself (R449). -/
def State.replanWaiting (s : State) : State :=
  if !(s.flag Reg.ageingStatusDue && s.flag Reg.calCtrlMarginAuto && s.inLathedUp) then s
  else
    let a := s.askPlan
    if a.2 then a.1.replan else a.1

/-- A replan is due (R449). -/
def State.replanDue (s : State) : State :=
  let grown := (List.range 3).any fun g => decide (s.cal.plan.getD g 0 + 100 ≤ s.groupDrift g)
  if !grown && s.cal.measured < 720 then s
  else
    let s := if s.flag Reg.ageingStatusDue then s else (s.setF Reg.ageingStatusDue 1).raise 117
    s.replanWaiting

/-- The monitors are to be measured: after an entry into LATHED, and every 360,000 bars (R446). -/
def State.ageingDue (s : State) : Bool :=
  match s.cal.agedBar with
  | none => true
  | some b => decide (b + 360000 ≤ barOfNs s.nowNs) || decide (barOfNs s.nowNs < b)

/-- The 32 monitors are measured (R446), and their four words moved on MONITOR's grains (R404); a measurement that its
budget does not cover waits. -/
def State.ageing (drifts : List Int) (s : State) : State :=
  if !s.inLathedUp || !s.ageingDue || s.deferred 14 then s
  else
    let a := s.ask 14 4 4
    if !a.2 then a.1
    else
    let s := a.1
    let s := s.each ((List.range 32).zip drifts) fun s x =>
      let broken := decide (x.2 < -2000) || decide (50000 < x.2)
      let was := s.flag (Reg.ageingBroken x.1)
      let s := ((s.setF (Reg.ageingDrift x.1) (ofSigned 24 x.2)).setF (Reg.ageingValid x.1) 1).setFlag
        (Reg.ageingBroken x.1) broken
      s.when (broken && !was) fun s => s.raise 115
    (s.setCalState fun c => { c with measured := c.measured + 1, agedBar := some (barOfNs s.nowNs) }).replanDue

/-- MARGIN_REPLAN (0x50). -/
def marginReplanSpec : CmdSpec where
  opcode := 0x50
  states := lathedUp
  role := roleIO
  argOk _ := true
  classes := [14]
  usesPath := false
  run _ s :=
    let a := s.askPlan
    if a.2 then a.1.replan.completeDone [] else { a.1 with job := some (.waitBudget 0x50) }

/-! ## The meanings -/

/-- CAL_RUN. -/
def execCalRun (p : Port) (s : State) : Outcome := act (s.framed p) (calRunSpec.issue p)
/-- PATH_TEST. -/
def execPathTest (p : Port) (s : State) : Outcome := act (s.framed p) (pathTestSpec.issue p)
/-- CAL_SAVE. -/
def execCalSave (p : Port) (s : State) : Outcome := act (s.framed p) (calSaveSpec.issue p)
/-- CAL_RESTORE. -/
def execCalRestore (p : Port) (s : State) : Outcome := act (s.framed p) (calRestoreSpec.issue p)
/-- MARGIN_REPLAN. -/
def execMarginReplan (p : Port) (s : State) : Outcome := act (s.framed p) (marginReplanSpec.issue p)
/-- CAL_PASS_END. -/
def execCalPassEnd (run : Bool) (l : List CalMeasure) (grains : Nat) (s : State) : Outcome :=
  act s (State.calPassEnd run l grains)
/-- TX_COUPLER_RUN. -/
def execTxCouplerRun (m : CouplerRun) (ref : List (Int × Int)) (s : State) : Outcome :=
  act s (State.txCoupler m.path.val [m.gain, m.phase] ref)
/-- SEAM_MEASUREMENT. -/
def execSeamMeasurement (mean : Word) (residual : Nat) (seen : Bool) (s : State) : Outcome :=
  act s (State.seamMeasured mean.toNat residual seen)
/-- SEAM_OK_TIMEOUT. -/
def execSeamOkTimeout (s : State) : Outcome := act s State.seamTimeout
/-- AGEING_MEASUREMENT. -/
def execAgeingMeasurement (drifts : List Int) (s : State) : Outcome := act s (State.ageing drifts)

end Sys2Proof.Machine
end

