-- ==== Sys2Proof/Machine/Faeror.lean ====
section
/-! DEFINITION. The Faeror instruction set (chapter 10): instructions, their 32-bit words, and decoding. -/

namespace Sys2Proof.Machine

/-! ## Instructions -/

/-- ALU operations on three registers (class 0x2). -/
inductive Alu3 where
  | add | sub | adds | subs | and_ | or_ | xor_ | shlv | srav | min | max | cadd | csub
  deriving DecidableEq, Repr

/-- Shifts by SH (class 0x2). -/
inductive AluSh where
  | shl | shr | sra
  deriving DecidableEq, Repr

/-- ALU operations on two registers (class 0x2). -/
inductive Alu2 where
  | abs | neg | conj | cswap | mov
  deriving DecidableEq, Repr

/-- ALU operations on a register and an immediate (class 0x3). -/
inductive AluI where
  | addi | andi | ori | xori
  deriving DecidableEq, Repr

/-- Loads and stores of one value (class 0x4). -/
inductive MemOp where
  | ldw | ldh | stw | sth
  deriving DecidableEq, Repr

/-- Complex multiplies (class 0x6, VAR 0 to 5). -/
inductive CMul where
  | cmac | cmacj | cmsu | cmsuj | cmul | cmulj
  deriving DecidableEq, Repr

/-- Real multiplies (class 0x6, VAR 6 to 8). -/
inductive RMul where
  | rmac | rmsu | rmul
  deriving DecidableEq, Repr

/-- Complex multiplies with dual load (class 0x7). -/
inductive CMulLd where
  | cmacld | cmacjld | cmsuld | cmsujld
  deriving DecidableEq, Repr

/-- Sums of two accumulators (class 0x8, OP 4 and 5). -/
inductive AccSum where
  | aadd | asub
  deriving DecidableEq, Repr

/-- The pointer files (class 0x9): p, m, l and b. -/
inductive AddrFile where
  | p | m | l | b
  deriving DecidableEq, Repr

/-- An instruction with its operand fields (R307, R312). -/
inductive FaInstr where
  | nop
  | halt
  | b (target : BitVec 14)
  | bc (cond : Fin 13) (target : BitVec 14)
  | call (target : BitVec 14)
  | ret
  | reti
  | wait
  | sig (target : BitVec 14)
  | rep (n : Fin 1024) (count : RepCount)
  | alu3 (op : Alu3) (rd rs rt : Fin 16)
  | alush (op : AluSh) (rd rs : Fin 16) (sh : Fin 32)
  | alu2 (op : Alu2) (rd rs : Fin 16)
  | cmp (rs rt : Fin 16)
  | alui (op : AluI) (rd rs : Fin 16) (imm : BitVec 16)
  | movi (rd : Fin 16) (imm : BitVec 16)
  | movhi (rd : Fin 16) (imm : BitVec 16)
  | cmpi (rs : Fin 16) (imm : BitVec 16)
  | mem (op : MemOp) (g : Fin 16) (p : Fin 8) (pm : PostMod)
  | wzero (p : Fin 8) (pm : PostMod)
  | ldd (ga gb : Fin 16) (pa pb : Fin 8) (ma mb : Option (Fin 8))
  | cmul (op : CMul) (gx gy : Fin 16)
  | rmul (op : RMul) (gx gy : Fin 16) (acc : Fin 4) (hx hy : Bool)
  | cmulld (op : CMulLd) (gx gy : Fin 16) (px py mx my : Fin 8)
  | clra (mask : BitVec 4)
  | mvag (g : Fin 16) (acc : Fin 4) (k : Fin 32)
  | mvga (g : Fin 16) (acc : Fin 4)
  | acopy (acc acc2 : Fin 4)
  | asum (op : AccSum) (acc acc2 : Fin 4)
  | cmbg (g : Fin 16) (k : Fin 32)
  | stac (p : Fin 8) (pm : Option (Fin 8)) (k : Fin 32)
  | stah (p : Fin 8) (pm : Option (Fin 8)) (acc : Fin 4) (k : Fin 32)
  | mvt (file : AddrFile) (g : Fin 16) (index : Fin 8)
  | mvf (file : AddrFile) (g : Fin 16) (index : Fin 8)
  | mvts (g : Fin 16) (index : Fin 10)
  | mvfs (g : Fin 16) (index : Fin 10)
  | li (file : AddrFile) (index : Fin 8) (imm : BitVec 21)
  deriving DecidableEq, Repr

/-! ## Codes (R307, R312) -/

/-- FUNC of class 0x2. -/
def Alu3.func : Alu3 → Nat
  | .add => 0
  | .sub => 1
  | .adds => 2
  | .subs => 3
  | .and_ => 4
  | .or_ => 5
  | .xor_ => 6
  | .shlv => 10
  | .srav => 11
  | .min => 12
  | .max => 13
  | .cadd => 17
  | .csub => 18

/-- FUNC of the shifts. -/
def AluSh.func : AluSh → Nat
  | .shl => 7
  | .shr => 8
  | .sra => 9

/-- FUNC of the two-register forms. -/
def Alu2.func : Alu2 → Nat
  | .abs => 14
  | .neg => 15
  | .conj => 19
  | .cswap => 20
  | .mov => 21

/-- FUNC of class 0x3. -/
def AluI.func : AluI → Nat
  | .addi => 0
  | .andi => 1
  | .ori => 2
  | .xori => 3

/-- OP of class 0x4. -/
def MemOp.op : MemOp → Nat
  | .ldw => 0
  | .ldh => 1
  | .stw => 2
  | .sth => 3

/-- VAR of class 0x6. -/
def CMul.var : CMul → Nat
  | .cmac => 0
  | .cmacj => 1
  | .cmsu => 2
  | .cmsuj => 3
  | .cmul => 4
  | .cmulj => 5

/-- VAR of the real multiplies. -/
def RMul.var : RMul → Nat
  | .rmac => 6
  | .rmsu => 7
  | .rmul => 8

/-- VAR of class 0x7. -/
def CMulLd.var : CMulLd → Nat
  | .cmacld => 0
  | .cmacjld => 1
  | .cmsuld => 2
  | .cmsujld => 3

/-- OP of class 0x8. -/
def AccSum.op : AccSum → Nat
  | .aadd => 4
  | .asub => 5

/-- The place of a file among the move codes. -/
def AddrFile.code : AddrFile → Nat
  | .p => 0
  | .m => 1
  | .l => 2
  | .b => 3

/-- The 17 low bits of a class 0x4 word that tell the post-modify: PM, IMM and the offset or m index. -/
def postCode : PostMod → Nat
  | .none => 0
  | .imm off => 2 ^ 16 + 2 ^ 15 + off.toNat
  | .reg m => 2 ^ 16 + m.val

/-- PM and m of class 0x8. -/
def pmCode (pm : Option (Fin 8)) : Nat :=
  match pm with
  | some m => 8 + m.val
  | none => 0

/-- PM of class 0x5. -/
def pmBit (m : Option (Fin 8)) : Nat := match m with | some _ => 1 | none => 0

/-- m of class 0x5. -/
def pmReg (m : Option (Fin 8)) : Nat := match m with | some x => x.val | none => 0

/-! ## The words (R307) -/

/-- A class 0x0 word. -/
def ctlWord (opc cond target : Nat) : Nat := opc * 2 ^ 24 + cond * 2 ^ 20 + target

/-- A class 0x2 word. -/
def aluWord (func rd rs rt sh : Nat) : Nat :=
  2 * 2 ^ 28 + func * 2 ^ 22 + rd * 2 ^ 18 + rs * 2 ^ 14 + rt * 2 ^ 10 + sh * 2 ^ 5

/-- A class 0x3 word. -/
def immWord (func rd rs imm : Nat) : Nat := 3 * 2 ^ 28 + func * 2 ^ 24 + rd * 2 ^ 20 + rs * 2 ^ 16 + imm

/-- A class 0x4 word. -/
def memWord (op g p pm : Nat) : Nat := 4 * 2 ^ 28 + op * 2 ^ 24 + g * 2 ^ 20 + p * 2 ^ 17 + pm

/-- A class 0x6 word. -/
def mulWord (var gx gy acc hx hy : Nat) : Nat :=
  6 * 2 ^ 28 + var * 2 ^ 24 + gx * 2 ^ 20 + gy * 2 ^ 16 + acc * 2 ^ 14 + hx * 2 ^ 13 + hy * 2 ^ 12

/-- A class 0x8 word. -/
def accWord (op g p pm k acc acc2 mask : Nat) : Nat :=
  8 * 2 ^ 28 + op * 2 ^ 24 + g * 2 ^ 20 + p * 2 ^ 17 + pm * 2 ^ 13 + k * 2 ^ 8 + acc * 2 ^ 6 + acc2 * 2 ^ 4 + mask

/-- A class 0x9 word of OP 0 to 9. -/
def movWord (op g index : Nat) : Nat := 9 * 2 ^ 28 + op * 2 ^ 24 + g * 2 ^ 20 + index * 2 ^ 16

/-- The word of an instruction (R307, R312). -/
def faEncode : FaInstr → Nat
  | .nop => ctlWord 0 0 0
  | .halt => ctlWord 1 0 0
  | .b t => ctlWord 2 0 t.toNat
  | .bc c t => ctlWord 3 c.val t.toNat
  | .call t => ctlWord 4 0 t.toNat
  | .ret => ctlWord 5 0 0
  | .reti => ctlWord 6 0 0
  | .wait => ctlWord 7 0 0
  | .sig t => ctlWord 8 0 t.toNat
  | .rep n (.imm c) => 2 ^ 28 + n.val * 2 ^ 17 + c.toNat
  | .rep n (.reg g) => 2 ^ 28 + 2 ^ 27 + n.val * 2 ^ 17 + g.val
  | .alu3 op rd rs rt => aluWord op.func rd.val rs.val rt.val 0
  | .alush op rd rs sh => aluWord op.func rd.val rs.val 0 sh.val
  | .alu2 op rd rs => aluWord op.func rd.val rs.val 0 0
  | .cmp rs rt => aluWord 16 0 rs.val rt.val 0
  | .alui op rd rs imm => immWord op.func rd.val rs.val imm.toNat
  | .movi rd imm => immWord 4 rd.val 0 imm.toNat
  | .movhi rd imm => immWord 5 rd.val 0 imm.toNat
  | .cmpi rs imm => immWord 6 0 rs.val imm.toNat
  | .mem op g p pm => memWord op.op g.val p.val (postCode pm)
  | .wzero p pm => memWord 4 0 p.val (postCode pm)
  | .ldd ga gb pa pb ma mb =>
    5 * 2 ^ 28 + ga.val * 2 ^ 24 + gb.val * 2 ^ 20 + pa.val * 2 ^ 17 + pb.val * 2 ^ 14 + pmReg ma * 2 ^ 11 +
      pmReg mb * 2 ^ 8 + pmBit ma * 2 ^ 7 + pmBit mb * 2 ^ 6
  | .cmul op gx gy => mulWord op.var gx.val gy.val 0 0 0
  | .rmul op gx gy acc hx hy => mulWord op.var gx.val gy.val acc.val (bit hx) (bit hy)
  | .cmulld op gx gy px py mx my =>
    7 * 2 ^ 28 + op.var * 2 ^ 26 + gx.val * 2 ^ 22 + gy.val * 2 ^ 18 + px.val * 2 ^ 15 + py.val * 2 ^ 12 +
      mx.val * 2 ^ 9 + my.val * 2 ^ 6
  | .clra mask => accWord 0 0 0 0 0 0 0 mask.toNat
  | .mvag g acc k => accWord 1 g.val 0 0 k.val acc.val 0 0
  | .mvga g acc => accWord 2 g.val 0 0 0 acc.val 0 0
  | .acopy acc acc2 => accWord 3 0 0 0 0 acc.val acc2.val 0
  | .asum op acc acc2 => accWord op.op 0 0 0 0 acc.val acc2.val 0
  | .cmbg g k => accWord 6 g.val 0 0 k.val 0 0 0
  | .stac p pm k => accWord 7 0 p.val (pmCode pm) k.val 0 0 0
  | .stah p pm acc k => accWord 8 0 p.val (pmCode pm) k.val acc.val 0 0
  | .mvt f g i => movWord (2 * f.code) g.val i.val
  | .mvf f g i => movWord (2 * f.code + 1) g.val i.val
  | .mvts g i => movWord 8 g.val i.val
  | .mvfs g i => movWord 9 g.val i.val
  | .li f i imm => 9 * 2 ^ 28 + (12 + f.code) * 2 ^ 24 + i.val * 2 ^ 21 + imm.toNat

/-! ## Decoding (R307) -/

/-- A g register field of a word. -/
def fReg (w lo : Nat) : Fin 16 := Fin.ofNat 16 (w / 2 ^ lo)

/-- A three-bit field of a word. -/
def fIdx (w lo : Nat) : Fin 8 := Fin.ofNat 8 (w / 2 ^ lo)

/-- An accumulator field of a word. -/
def fAcc (w lo : Nat) : Fin 4 := Fin.ofNat 4 (w / 2 ^ lo)

/-- A five-bit field of a word. -/
def fK (w lo : Nat) : Fin 32 := Fin.ofNat 32 (w / 2 ^ lo)

/-- TARGET. -/
def fTarget (w : Nat) : BitVec 14 := BitVec.ofNat 14 w

/-- IMM16. -/
def fImm (w : Nat) : BitVec 16 := BitVec.ofNat 16 w

/-- The post-modify of a class 0x4 word. -/
def fPost (w : Nat) : PostMod :=
  if testBit w 16 then if testBit w 15 then .imm (BitVec.ofNat 15 w) else .reg (fIdx w 0) else .none

/-- The post-modify of a class 0x8 word. -/
def fPm (w : Nat) : Option (Fin 8) := if testBit w 16 then some (fIdx w 13) else none

/-- The control class. -/
def readCtl (w : Nat) : Option FaInstr :=
  match bits w 24 4 with
  | 0 => some .nop
  | 1 => some .halt
  | 2 => some (.b (fTarget w))
  | 3 => if h : bits w 20 4 < 13 then some (.bc ⟨bits w 20 4, h⟩ (fTarget w)) else none
  | 4 => some (.call (fTarget w))
  | 5 => some .ret
  | 6 => some .reti
  | 7 => some .wait
  | 8 => some (.sig (fTarget w))
  | _ => none

/-- The repeat class. -/
def readRep (w : Nat) : Option FaInstr :=
  some (.rep (Fin.ofNat 1024 (w / 2 ^ 17)) (if testBit w 27 then .reg (fReg w 0) else .imm (fImm w)))

/-- The ALU register class. -/
def readAlu (w : Nat) : Option FaInstr :=
  let a3 (op : Alu3) : Option FaInstr := some (.alu3 op (fReg w 18) (fReg w 14) (fReg w 10))
  let sh (op : AluSh) : Option FaInstr := some (.alush op (fReg w 18) (fReg w 14) (fK w 5))
  let a2 (op : Alu2) : Option FaInstr := some (.alu2 op (fReg w 18) (fReg w 14))
  match bits w 22 6 with
  | 0 => a3 .add
  | 1 => a3 .sub
  | 2 => a3 .adds
  | 3 => a3 .subs
  | 4 => a3 .and_
  | 5 => a3 .or_
  | 6 => a3 .xor_
  | 7 => sh .shl
  | 8 => sh .shr
  | 9 => sh .sra
  | 10 => a3 .shlv
  | 11 => a3 .srav
  | 12 => a3 .min
  | 13 => a3 .max
  | 14 => a2 .abs
  | 15 => a2 .neg
  | 16 => some (.cmp (fReg w 14) (fReg w 10))
  | 17 => a3 .cadd
  | 18 => a3 .csub
  | 19 => a2 .conj
  | 20 => a2 .cswap
  | 21 => a2 .mov
  | _ => none

/-- The ALU immediate class. -/
def readImm (w : Nat) : Option FaInstr :=
  match bits w 24 4 with
  | 0 => some (.alui .addi (fReg w 20) (fReg w 16) (fImm w))
  | 1 => some (.alui .andi (fReg w 20) (fReg w 16) (fImm w))
  | 2 => some (.alui .ori (fReg w 20) (fReg w 16) (fImm w))
  | 3 => some (.alui .xori (fReg w 20) (fReg w 16) (fImm w))
  | 4 => some (.movi (fReg w 20) (fImm w))
  | 5 => some (.movhi (fReg w 20) (fImm w))
  | 6 => some (.cmpi (fReg w 16) (fImm w))
  | _ => none

/-- The load and store class. -/
def readMem (w : Nat) : Option FaInstr :=
  match bits w 24 4 with
  | 0 => some (.mem .ldw (fReg w 20) (fIdx w 17) (fPost w))
  | 1 => some (.mem .ldh (fReg w 20) (fIdx w 17) (fPost w))
  | 2 => some (.mem .stw (fReg w 20) (fIdx w 17) (fPost w))
  | 3 => some (.mem .sth (fReg w 20) (fIdx w 17) (fPost w))
  | 4 => some (.wzero (fIdx w 17) (fPost w))
  | _ => none

/-- The dual-load class. -/
def readLdd (w : Nat) : Option FaInstr :=
  some (.ldd (fReg w 24) (fReg w 20) (fIdx w 17) (fIdx w 14)
    (if testBit w 7 then some (fIdx w 11) else none) (if testBit w 6 then some (fIdx w 8) else none))

/-- The multiply class. -/
def readMul (w : Nat) : Option FaInstr :=
  let c (op : CMul) : Option FaInstr := some (.cmul op (fReg w 20) (fReg w 16))
  let r (op : RMul) : Option FaInstr := some (.rmul op (fReg w 20) (fReg w 16) (fAcc w 14) (testBit w 13) (testBit w 12))
  match bits w 24 4 with
  | 0 => c .cmac
  | 1 => c .cmacj
  | 2 => c .cmsu
  | 3 => c .cmsuj
  | 4 => c .cmul
  | 5 => c .cmulj
  | 6 => r .rmac
  | 7 => r .rmsu
  | 8 => r .rmul
  | _ => none

/-- The class of multiplies with dual load. -/
def readMulLd (w : Nat) : Option FaInstr :=
  let c (op : CMulLd) : Option FaInstr :=
    some (.cmulld op (fReg w 22) (fReg w 18) (fIdx w 15) (fIdx w 12) (fIdx w 9) (fIdx w 6))
  match bits w 26 2 with
  | 0 => c .cmacld
  | 1 => c .cmacjld
  | 2 => c .cmsuld
  | _ => c .cmsujld

/-- The accumulator class. -/
def readAcc (w : Nat) : Option FaInstr :=
  match bits w 24 4 with
  | 0 => some (.clra (BitVec.ofNat 4 w))
  | 1 => some (.mvag (fReg w 20) (fAcc w 6) (fK w 8))
  | 2 => some (.mvga (fReg w 20) (fAcc w 6))
  | 3 => some (.acopy (fAcc w 6) (fAcc w 4))
  | 4 => some (.asum .aadd (fAcc w 6) (fAcc w 4))
  | 5 => some (.asum .asub (fAcc w 6) (fAcc w 4))
  | 6 => some (.cmbg (fReg w 20) (fK w 8))
  | 7 => some (.stac (fIdx w 17) (fPm w) (fK w 8))
  | 8 => some (.stah (fIdx w 17) (fPm w) (fAcc w 6) (fK w 8))
  | _ => none

/-- The move class. -/
def readMov (w : Nat) : Option FaInstr :=
  let g := fReg w 20
  let i := fIdx w 16
  let special (f : Fin 10 → FaInstr) : Option FaInstr :=
    if h : bits w 16 4 < 10 then some (f ⟨bits w 16 4, h⟩) else none
  match bits w 24 4 with
  | 0 => some (.mvt .p g i)
  | 1 => some (.mvf .p g i)
  | 2 => some (.mvt .m g i)
  | 3 => some (.mvf .m g i)
  | 4 => some (.mvt .l g i)
  | 5 => some (.mvf .l g i)
  | 6 => some (.mvt .b g i)
  | 7 => some (.mvf .b g i)
  | 8 => special (.mvts g)
  | 9 => special (.mvfs g)
  | 12 => some (.li .p (fIdx w 21) (BitVec.ofNat 21 w))
  | 13 => some (.li .m (fIdx w 21) (BitVec.ofNat 21 w))
  | 14 => some (.li .l (fIdx w 21) (BitVec.ofNat 21 w))
  | 15 => some (.li .b (fIdx w 21) (BitVec.ofNat 21 w))
  | _ => none

/-- The instruction that a word's used fields spell, whatever its other bits. -/
def faRead (w : Nat) : Option FaInstr :=
  match bits w 28 4 with
  | 0 => readCtl w
  | 1 => readRep w
  | 2 => readAlu w
  | 3 => readImm w
  | 4 => readMem w
  | 5 => readLdd w
  | 6 => readMul w
  | 7 => readMulLd w
  | 8 => readAcc w
  | 9 => readMov w
  | _ => none

/-- Decode a word (R307): a word with an undefined code, or with a reserved or unused field that is not 0, spells
none. -/
def faDecode (w : Nat) : Option FaInstr :=
  match faRead w with
  | some i => if faEncode i = w then some i else none
  | none => none

end Sys2Proof.Machine
end

