-- ==== Sys2Proof/Machine/Hod.lean ====
section
/-! DEFINITION. The Hod DMA engine (chapter 18): owners, descriptors, transfers, completion and faults. -/

namespace Sys2Proof.Machine

/-! ## Channels (R493 to R495) -/

/-- STATE of a channel. -/
def hodIdle : Nat := 0
def hodRunning : Nat := 1
def hodHeld : Nat := 2

/-- A channel's state beside its registers. -/
def State.hodChan (s : State) (k : Nat) : HodChan := vecGet s.hod k ⟨none, none, 0, 0⟩

/-- Change a channel's state beside its registers. -/
def State.setHod (s : State) (k : Nat) (f : HodChan → HodChan) : State := { s with hod := vecModify s.hod k f }

/-- A channel is RUNNING or HELD. -/
def State.hodActive (s : State) (k : Nat) : Bool := s.getF (Reg.chStatusState k) != hodIdle

/-- Set the address of the present descriptor. -/
def State.hodAt (s : State) (k a : Nat) : State :=
  (s.setF (Reg.chDescLo k) a).setHod k fun c => { c with addr := a }

/-- The address of the present descriptor (R497). -/
def State.hodAddr (s : State) (k : Nat) : Nat := (s.hodChan k).addr

/-- A read of DESC_LO or of FAULT_ADDR_LO latches its high word. -/
def State.descLatch (s : State) (k : Nat) : State := s.setF (Reg.chDescHi k) ((s.hodChan k).addr / 2 ^ 32)
def State.faultLatch (s : State) (k : Nat) : State := s.setF (Reg.chFaultAddrHi k) ((s.hodChan k).fault / 2 ^ 32)

/-- Start a channel on a list (R495). -/
def State.hodBegin (s : State) (k list : Nat) (role : Option Role) : State :=
  let s := (s.hodAt k list).setHod k fun c => { c with desc := none, role := role }
  ((s.setF (Reg.chStatusState k) hodRunning).setF (Reg.chChainCount k) 0).setF (Reg.chDoneBytes k) 0

/-- The core that a channel's line 4 belongs to (R506). -/
def HodOwner.core : HodOwner → Option Nat
  | .host => none
  | .maker n => some n
  | .operator n => some n

/-- Raise an event of a channel, with line 4 of its owner core (R506). -/
def State.hodEvent (s : State) (k ev : Nat) : State :=
  let s := s.raise ev
  match (s.hodOwner k).core with
  | some n => s.pendLine n 4
  | none => s

/-- A channel stops with a code. -/
def State.hodEnd (s : State) (k code : Nat) : State :=
  ((s.setF (Reg.chStatusState k) hodIdle).setF (Reg.chStatusCode k) code).setHod k fun c => { c with desc := none }

/-! ## Addresses (R496, R497) -/

/-- The parts of an address: SPACE, the bits that must be 0, and ADDR. -/
def hodSpace (a : Nat) : Nat := bits a 60 4
def hodOffset (a : Nat) : Nat := bits a 0 48

/-- The core that an address of space 4 names, and the byte in its memory. -/
def hodCore (a : Nat) : Nat := bits a 17 5
def hodByte (a : Nat) : Nat := bits a 0 17

/-- The size of a space in bytes; of one core's data memory in space 4. -/
def hodSize (space : Nat) : Nat :=
  if space = 0 then 2 ^ 48 else if space = 1 then 4194304 else if space = 2 then 3145728
  else if space = 3 then 16777216 else 131072

/-- The offset that a range check uses: within one core's memory in space 4. -/
def hodLocal (a : Nat) : Nat := if hodSpace a = 4 then hodByte a else hodOffset a

/-- A range of an address lies inside its memory. -/
def hodInside (a n : Nat) : Bool :=
  bits a 48 12 == 0 && decide (hodLocal a + n ≤ hodSize (hodSpace a)) &&
    (hodSpace a != 4 || (decide (hodCore a < 24) && decide (hodOffset a < 2 ^ 22)))

/-- The owner of a channel may read, or write, the space of an address (R304, R497). -/
def State.hodMay (s : State) (o : HodOwner) (a : Nat) (write : Bool) : Bool :=
  let op : Bool := match o with | .operator _ => true | _ => false
  match hodSpace a with
  | 0 => true
  | 1 => true
  | 2 => !op
  | 3 => !op && !write
  | 4 =>
    match o with
    | .host => (s.core (hodCore a)).operator
    | .maker _ => true
    | .operator n => hodCore a == n
  | _ => false

/-- A descriptor may lie at an address: 64-byte aligned, in host or capture memory or in the owner core's data
memory (R496). -/
def hodListOk (o : HodOwner) (a : Nat) : Bool :=
  a % 64 == 0 && hodInside a 64 &&
    (hodSpace a == 0 || hodSpace a == 1 || (hodSpace a == 4 && o.core == some (hodCore a)))

/-- The memory and byte of an address in a coded memory. -/
def hodMem (a : Nat) : Option (MemId × Nat) :=
  match hodSpace a with
  | 1 => some (.capture, hodOffset a)
  | 2 => some (.stencil, hodOffset a)
  | 3 => some (.registry, hodOffset a)
  | 4 => some (.faData, 131072 * hodCore a + hodByte a)
  | _ => none

/-! ## Descriptors (R496, R498) -/

/-- The fields of a descriptor. -/
structure HodDesc where
  ctrl : Nat
  next : Nat
  src : Nat
  dst : Nat
  length : Nat
  rows : Nat
  cols : Nat
  elem : Nat
  srcStride : Nat
  dstStride : Nat
  /-- A reserved bit is set. -/
  reserved : Bool
  deriving DecidableEq, Repr

/-- Read a descriptor. -/
def hodDescOf (d : List Byte) : HodDesc :=
  let ctrl := leAt 0 4 d
  let len := leAt 32 4 d
  let shape := leAt 36 4 d
  let b := leAt 40 4 d
  ⟨ctrl, leAt 8 8 d, leAt 16 8 d, leAt 24 8 d, len % 2 ^ 24, shape % 65536, shape / 65536, 2 ^ (b % 4 + 1),
    leAt 44 4 d, leAt 48 4 d, decide (128 ≤ ctrl) || decide (3 ≤ bits ctrl 4 3) || decide (2 ^ 24 ≤ len) || decide (4 ≤ b)⟩

def HodDesc.own (d : HodDesc) : Bool := testBit d.ctrl 0
def HodDesc.last (d : HodDesc) : Bool := testBit d.ctrl 1
def HodDesc.irq (d : HodDesc) : Bool := testBit d.ctrl 2
def HodDesc.mode (d : HodDesc) : Nat := bits d.ctrl 4 3

/-- The source rows of a descriptor: offsets from SRC and lengths. -/
def HodDesc.srcRows (d : HodDesc) : List (Nat × Nat) :=
  if d.mode = 0 then [(0, d.length)] else (List.range d.rows).map fun r => (r * d.srcStride, d.cols * d.elem)

/-- The destination runs: offsets from DST, and the source bytes of each by their place in the rows put end to end. -/
def HodDesc.dstRuns (d : HodDesc) : List (Nat × List Nat) :=
  let row := d.cols * d.elem
  if d.mode = 0 then [(0, List.range d.length)]
  else if d.mode = 1 then
    (List.range d.rows).map fun r => (r * d.dstStride, (List.range row).map (· + r * row))
  else
    (List.range d.cols).map fun c => (c * d.dstStride, (List.range d.rows).flatMap fun r =>
      (List.range d.elem).map (· + r * row + c * d.elem))

/-- A source row and a destination run share a byte of a coded memory or of host memory (R499). -/
def HodDesc.overlaps (d : HodDesc) : Bool :=
  hodSpace d.src == hodSpace d.dst && d.srcRows.any fun r => d.dstRuns.any fun w =>
    decide (hodOffset d.src + r.1 < hodOffset d.dst + w.1 + w.2.length) &&
      decide (hodOffset d.dst + w.1 < hodOffset d.src + r.1 + r.2)

/-- A descriptor is BAD_DESC (R498). -/
def State.hodBad (s : State) (k : Nat) (d : HodDesc) : Bool :=
  let o := s.hodOwner k
  let e := d.elem
  let span (w : Nat) (stride n : Nat) : Nat := if n = 0 then 0 else (n - 1) * stride + w
  let srcSpan := if d.mode = 0 then d.length else span (d.cols * e) d.srcStride d.rows
  let dstSpan := if d.mode = 0 then d.length
    else if d.mode = 1 then span (d.cols * e) d.dstStride d.rows else span (d.rows * e) d.dstStride d.cols
  d.reserved || d.length == 0 || !s.hodMay o d.src false || !s.hodMay o d.dst true || !hodInside d.src srcSpan ||
    !hodInside d.dst dstSpan ||
    (d.mode != 0 && (d.length != d.rows * d.cols * e || d.src % e != 0 || d.dst % e != 0 || d.srcStride % e != 0 ||
      d.dstStride % e != 0)) ||
    (d.mode == 1 && (decide (d.srcStride < d.cols * e) || decide (d.dstStride < d.cols * e))) ||
    (d.mode == 2 && (decide (d.srcStride < d.cols * e) || decide (d.dstStride < d.rows * e)))

/-! ## Moving data (R499 to R503) -/

/-- A byte on its way, and whether it comes from a poisoned word. -/
abbrev HodData := Byte × Bool

/-- Whether bytes of a word of a coded memory read as damaged. -/
def State.byteBad (s : State) (m : MemId) (a : Nat) : Bool :=
  match s.wordMark m (a / 32) with
  | .clean => false
  | .correctable _ _ => false
  | _ => true

/-- Bytes at an address, read through the words that hold them; host memory gives the bytes of an operand. -/
def State.hodRead (s : State) (a n : Nat) (host : List HodData) : State × List HodData :=
  match hodMem a with
  | none => (s, (List.range n).map fun i => host.getD i (0, false))
  | some (m, b) =>
    let r := s.readBytes m .hod b n
    (r.1, (List.range n).map fun i => (r.2.1.getD i 0, s.byteBad m (b + i)))

/-- A piece of a transfer that runs as one: its source rows and its destination runs, as offsets and lengths (R501). -/
structure HodTile where
  srcs : List (Nat × Nat)
  dsts : List (Nat × Nat)
  deriving DecidableEq, Repr

/-- The tiles of a descriptor: of a transpose up to 32 source rows by 256 source bytes, from SRC on; else one (R501). -/
def HodDesc.tiles (d : HodDesc) : List HodTile :=
  if d.mode != 2 then [⟨d.srcRows, d.dstRuns.map fun w => (w.1, w.2.length)⟩]
  else
    let wide := 256 / d.elem
    (List.range ((d.rows + 31) / 32)).flatMap fun i => (List.range ((d.cols + wide - 1) / wide)).map fun j =>
      let rows := min 32 (d.rows - 32 * i)
      let cols := min wide (d.cols - wide * j)
      ⟨(List.range rows).map fun r => ((32 * i + r) * d.srcStride + wide * j * d.elem, cols * d.elem),
        (List.range cols).map fun c => ((wide * j + c) * d.dstStride + 32 * i * d.elem, rows * d.elem)⟩

/-- Leave out each number that equals the one after it. -/
def dropRepeats : List Nat → List Nat
  | [] => []
  | x :: t => if t.head? = some x then dropRepeats t else x :: dropRepeats t

/-- The words of 32 bytes that rising ranges from an address on touch, each once (R500, R501). -/
def touchedWords (a : Nat) (l : List (Nat × Nat)) : List Nat :=
  dropRepeats (l.flatMap fun x =>
    if x.2 = 0 then []
    else (List.range ((a + x.1 + x.2 - 1) / 32 + 1 - (a + x.1) / 32)).map (· + (a + x.1) / 32))

/-- Read the source words of every tile, each once in a tile (R482, R483, R501). -/
def State.hodTouch (s : State) (d : HodDesc) : State :=
  match hodMem d.src with
  | none => s
  | some (m, b) => s.each (d.tiles.flatMap fun x => touchedWords b x.srcs) fun s w => (s.readWord m w .hod false).1

/-- The source bytes of a descriptor, row by row: as stored, with the poison of their words (R502). -/
def State.hodSource (s : State) (d : HodDesc) (host : List HodData) : List HodData :=
  match hodMem d.src with
  | none => host
  | some (m, b) => d.srcRows.flatMap fun r => (List.range r.2).map fun i =>
      ((s.mem m).byte (b + r.1 + i), s.byteBad m (b + r.1 + i))

/-- Bytes that lie in a row from an address on. -/
abbrev HodRun := Nat × List HodData

/-- Join the runs that follow one another without a gap. -/
def joinRuns : List HodRun → List HodRun
  | [] => []
  | x :: t =>
    if x.2.isEmpty then joinRuns t
    else match joinRuns t with
      | [] => [x]
      | y :: u => if x.1 + x.2.length = y.1 then (x.1, x.2 ++ y.2) :: u else x :: y :: u

/-- Cut a run where words end; `fuel` bounds the number of words. -/
def cutWords : Nat → HodRun → List HodRun
  | 0, _ => []
  | fuel + 1, (a, d) =>
    if d.isEmpty then []
    else
      let n := 32 - a % 32
      (a, d.take n) :: cutWords fuel (a + n, d.drop n)

/-- Runs that each lie in one word, put together by word. -/
def byWord : List HodRun → List (Nat × List HodRun)
  | [] => []
  | x :: t =>
    match byWord t with
    | [] => [(x.1 / 32, [x])]
    | y :: u => if y.1 = x.1 / 32 then (y.1, x :: y.2) :: u else (x.1 / 32, [x]) :: y :: u

/-- Cut a run where the poison of its bytes changes (R502). -/
def cutPoison (a : Nat) : List HodData → List HodRun
  | [] => []
  | x :: t =>
    match cutPoison (a + 1) t with
    | (b, y :: u) :: r => if y.2 = x.2 then (a, x :: y :: u) :: r else (a, [x]) :: (b, y :: u) :: r
    | _ => [(a, [x])]

/-- A word of a memory with the bytes of runs in place of those it holds. -/
def State.overlay (s : State) (m : MemId) (w : Nat) (runs : List HodRun) : List Byte :=
  (List.range 32).map fun i =>
    match runs.findSome? fun r => if r.1 ≤ 32 * w + i then r.2[32 * w + i - r.1]? else none with
    | some x => x.1
    | none => (s.mem m).byte (32 * w + i)

/-- Write the bytes of a transfer that lie in one word: a word covered whole is a fresh codeword, else the write has byte
enables; a poisoned byte leaves the word poisoned (R500, R502). Stencil memory judges it as one write (R225). -/
def State.hodWriteWord (s : State) (roles : List Role) (m : MemId) (w : Nat) (runs : List HodRun) : State :=
  let bad := runs.any fun r => r.2.any (·.2)
  let d := s.overlay m w runs
  let t :=
    if (runs.map (·.2.length)).sum = 32 then if bad then s.writePoisoned m w d else s.writeWhole m w d
    else
      let t := s.writePart m .hod (32 * w) d
      if bad then t.setMark m w .poisoned else t
  if m = .stencil then s.stencilJudge roles (runs.map fun r => (r.1, r.2.length)) t else t

/-- Write rising runs to the memory of an address; what host memory receives is cut where the EP bit changes (R500,
R502). -/
def State.hodWrite (s : State) (roles : List Role) (a : Nat) (runs : List HodRun) : State :=
  match hodMem a with
  | none => { s with out := { s.out with
      host := s.out.host ++ ((joinRuns runs).flatMap fun r => cutPoison (hodOffset a + r.1) r.2).map fun r =>
        ⟨r.1, r.2.map (·.1), r.2.any (·.2)⟩ } }
  | some (m, b) =>
    let pieces := (joinRuns runs).flatMap fun r => cutWords (r.2.length / 32 + 2) (b + r.1, r.2)
    s.each (byWord pieces) fun s x => s.hodWriteWord roles m x.1 x.2

/-- The roles under which a channel's stencil writes are judged: the starting session's; a maker core's firmware has
those of both (R225, R497). -/
def State.hodRoles (s : State) (k : Nat) : List Role :=
  match s.hodOwner k with
  | .host => (s.hodChan k).role.toList
  | .maker _ => [.installer, .operator]
  | .operator _ => []

/-- Where source and destination overlap the result is not defined (R499): the bytes moved are free values. -/
def HodDesc.defined (d : HodDesc) (seed : Nat) (l : List HodData) : List HodData :=
  if d.overlaps then
    (List.range l.length).map fun i => (BitVec.ofNat 8 (Config.freeOf 499 [seed, i]), (l.getD i (0, false)).2)
  else l

/-- The destination runs of the first `limit` bytes of a descriptor, as offsets from DST. -/
def HodDesc.placed (d : HodDesc) (data : List HodData) (limit : Nat) : List HodRun :=
  (d.dstRuns.foldl (fun (x : List HodRun × Nat) run =>
    let l := (run.2.take (limit - x.2)).map fun i => data.getD i (0, false)
    (x.1 ++ [(run.1, l)], x.2 + l.length)) ([], 0)).1

/-- Move the first `limit` bytes of a descriptor's data: whether any was poisoned. -/
def State.hodMove (s : State) (k : Nat) (d : HodDesc) (host : List HodData) (limit : Nat) : State × Bool :=
  let s := s.hodTouch d
  let runs := d.placed (d.defined s.drawn (s.hodSource d host)) limit
  (({ s with drawn := s.drawn + 1 } : State).hodWrite (s.hodRoles k) d.dst runs, runs.any fun r => r.2.any (·.2))

/-- The fabric cycles of a descriptor's data: one for each word read or written in each tile (R501, R503). -/
def hodCycles (d : HodDesc) : Nat :=
  (d.tiles.map fun x => (touchedWords d.src x.srcs).length + (touchedWords d.dst x.dsts).length).sum

/-! ## Completion (R504 to R509) -/

/-- Write four bytes of a descriptor back (R496, R504). -/
def State.hodBack (s : State) (k off v : Nat) : State :=
  s.hodWrite [] (s.hodAddr k + off) [(0, (leBytes 4 v).map fun b => (b, false))]

/-- Write STATUS, and then CTRL with OWN cleared (R504). -/
def State.hodWriteBack (s : State) (k : Nat) (d : HodDesc) (code : Nat) (poisoned : Bool) (done : Nat) : State :=
  (s.hodBack k 4 (code + 16 * bit poisoned + 256 * done)).hodBack k 0 (d.ctrl / 2 * 2)

/-- A channel's present descriptor ends without data: BAD_DESC or LOOP_SUSPECT. -/
def State.hodRefuse (s : State) (k : Nat) (d : HodDesc) (code : Nat) : State :=
  ((s.hodWriteBack k d code false 0).hodEnd k code).hodEvent k 100

/-- Hod runs: the spine runs outside Light Hold (R509). -/
def State.hodRuns (s : State) : Bool := s.phase == .run && s.dev != .lightHold

/-- CHAIN_LIMIT: 0 acts as 4,096 (R507). -/
def State.hodLimit (s : State) (k : Nat) : Nat :=
  let n := s.getF (Reg.chChainLimit k)
  if n = 0 then 4096 else n

/-- An access of a channel ends in BUS_FAULT (R508); what CTRL of a descriptor that was never fetched reads is free. -/
def State.hodFault (s : State) (k a : Nat) (d : Option HodDesc) (done : Nat) (backOk : Bool) : State :=
  let s := (s.setF (Reg.chFaultAddrLo k) a).setHod k fun c => { c with fault := a }
  let s := s.setF (Reg.chDoneBytes k) done
  let d := d.getD (hodDescOf (leBytes 4 (Config.freeOf 508 [s.hodAddr k, s.drawn])))
  let s := ({ s with drawn := s.drawn + 1 } : State).setFlag (Reg.chStatusWbFailed k) !backOk
  let s := if backOk then s.hodWriteBack k d 5 false done else s
  (s.hodEnd k 5).hodEvent k 100

/-- HOD_DESCRIPTOR_FETCH (R495, R496, R498, R505, R507); `host` is what host memory holds at the address. -/
def State.hodFetch (k : Nat) (host : List Byte) (s : State) : State :=
  if !s.hodRuns || s.getF (Reg.chStatusState k) != hodRunning || (s.hodChan k).desc.isSome then s
  else
    let a := s.hodAddr k
    if !hodListOk (s.hodOwner k) a then s.hodFault k a none 0 false
    else
      let x := s.ask 8 4 2
      if !x.2 then x.1.setF (Reg.chStatusState k) hodHeld
      else
        let r := x.1.hodRead a 64 (host.map fun b => (b, false))
        let bytes := r.2.map (·.1)
        let d := hodDescOf bytes
        let s := r.1.addWrap (Reg.chChainCount k) 1
        let s := s.setF (Reg.chDoneBytes k) 0
        if !d.own then (s.hodEnd k 2).hodEvent k 101
        else if s.hodLimit k ≤ s.getF (Reg.chChainCount k) ∧ !d.last then s.hodRefuse k d 4
        else if s.hodBad k d then s.hodRefuse k d 6
        else s.setHod k fun c => { c with desc := some bytes }

/-- HOD_DESCRIPTOR_END: the data moves and the descriptor completes (R499 to R506); `host` are the source bytes that
host memory gives, each with whether its completion carried the EP bit. -/
def State.hodFinish (k : Nat) (host : List HodData) (s : State) : State :=
  match (s.hodChan k).desc with
  | none => s
  | some bytes =>
    if !s.hodRuns || s.getF (Reg.chStatusState k) != hodRunning then s
    else
      let d := hodDescOf bytes
      let x := s.ask 8 4 (hodCycles d + 2)
      if !x.2 then x.1.setF (Reg.chStatusState k) hodHeld
      else
        let r := x.1.hodMove k d host d.length
        let s := (r.1.setF (Reg.chDoneBytes k) d.length).hodWriteBack k d 1 r.2 d.length
        let s := if r.2 then s.setF (Reg.chStatusPoisoned k) 1 else s
        if d.last then (s.hodEnd k 1).hodEvent k 101
        else
          let s := if d.irq then s.hodEvent k 101 else s
          (s.hodAt k d.next).setHod k fun c => { c with desc := none }

/-- HOD_BUS_FAULT: an access is not completed in time (R508): its address, the bytes moved before it, and whether the
write-back succeeds. -/
def State.hodBusFault (k addr done : Nat) (backOk : Bool) (host : List HodData) (s : State) : State :=
  if !s.hodRuns || !s.hodActive k then s
  else match (s.hodChan k).desc with
    | none => s.hodFault k (s.hodAddr k) none 0 backOk
    | some bytes =>
      let d := hodDescOf bytes
      let n := min done d.length
      (s.hodMove k d host n).1.hodFault k addr (some d) n backOk

/-- Stop a channel (R509): STOPPED and the bytes moved go to the descriptor's STATUS, and OWN stays set. -/
def State.hodHalt (s : State) (k : Nat) : State :=
  if !s.hodActive k then s
  else
    let done := s.getF (Reg.chDoneBytes k)
    let s := if (s.hodChan k).desc.isSome then s.hodBack k 4 (3 + 256 * done) else s
    s.hodEnd k 3

/-- Every running channel stops: entry into Light Hold (R509). -/
def State.hodHaltAll (s : State) : State := s.each (List.range 16) State.hodHalt

/-- Held channels go on at the next fret (R503). -/
def State.hodFret (s : State) : State :=
  s.each (List.range 16) fun s k =>
    if s.getF (Reg.chStatusState k) = hodHeld then s.setF (Reg.chStatusState k) hodRunning else s

/-! ## Kicks (R494, R495, R509) -/

/-- The channel of a kick word: word j of the core's kick words. -/
def State.kickChannel (s : State) (n j : Nat) : Option Nat :=
  (List.range 16).find? fun k => k % 8 == j && (s.hodOwner k).core == some n

/-- A core's store has left a value in kick word j (R494): bit 0 starts the channel and Hod writes the result code; bit 2
without bit 0 stops it. -/
def State.hodKick (s : State) (n j v : Nat) : State :=
  match s.kickChannel n j with
  | none => s
  | some k =>
    if testBit v 0 then
      let off := bits v 5 18 * 32
      let space : Nat := if testBit v 1 then 1 else 4
      let a := space * 2 ^ 60 + (if space = 4 then 131072 * n + off else off)
      let busy := s.hodActive k
      let ok : Bool := off % 64 == 0
      let code := if busy then 2 else if ok then 1 else 3
      let s := if busy || !ok then s else s.hodBegin k a none
      s.writePart .faData .hod (131072 * n + 0x1FFE0 + 4 * j) (leBytes 4 (code * 2 ^ 28))
    else if testBit v 2 then s.hodHalt k
    else s

/-! ## The host's commands (R494, R509, R510) -/

/-- The host owns the channel that word 0 names. -/
def State.hodHostChannel (s : State) : Bool := decide (s.argW 0 < 16) && s.hodOwner (s.argW 0) == .host

/-- The list address in words 1 and 2. -/
def State.hodList (s : State) : Nat := s.argW 1 + s.argW 2 * 2 ^ 32

/-- HOD_START (0xC4). -/
def hodStartSpec : CmdSpec where
  opcode := 0xC4
  states d := d != .lightHold && d != .maker
  role := roleIO
  argOk s := s.hodHostChannel && s.hodList % 64 == 0 && decide (hodSpace s.hodList ≤ 1)
  classes := [8]
  usesPath := false
  run p s :=
    if s.hodActive (s.argW 0) then s.complete .busy
    else (s.hodBegin (s.argW 0) s.hodList (s.session p).role).completeDone []

/-- HOD_STOP (0xC5). -/
def hodStopSpec : CmdSpec where
  opcode := 0xC5
  states d := d != .lightHold && d != .maker
  role := roleIO
  argOk s := s.hodHostChannel
  classes := []
  usesPath := false
  run _ s :=
    let k := s.argW 0
    let t := s.hodHalt k
    t.completeDone [t.getF (Reg.chDoneBytes k)]

/-- HOD_START. -/
def execHodStart (p : Port) (s : State) : Outcome := act (s.framed p) (hodStartSpec.issue p)
/-- HOD_STOP. -/
def execHodStop (p : Port) (s : State) : Outcome := act (s.framed p) (hodStopSpec.issue p)
/-- HOD_DESCRIPTOR_FETCH. -/
def execHodDescriptorFetch (k : Fin 16) (host : BitVec 512) (s : State) : Outcome :=
  act s (State.hodFetch k.val (leBytes 64 host.toNat))
/-- HOD_DESCRIPTOR_END. -/
def execHodDescriptorEnd (k : Fin 16) (host : List (Byte × Bool)) (s : State) : Outcome :=
  act s (State.hodFinish k.val host)
/-- HOD_BUS_FAULT. -/
def execHodBusFault (k : Fin 16) (addr : BitVec 64) (done : BitVec 24) (backOk : Bool) (host : List (Byte × Bool))
    (s : State) : Outcome :=
  act s (State.hodBusFault k.val addr.toNat done.toNat backOk host)

end Sys2Proof.Machine
end

