-- ==== Sys2Proof/Machine/Cores.lean ====
section
/-! DEFINITION. The Faeror cores (chapter 09): loading, starting, halting, interrupts, and late writes. -/

namespace Sys2Proof.Machine

/-! ## Small operations -/

/-- Change a core. -/
def State.modCore (s : State) (n : Nat) (f : Core → Core) : State := s.setCore n (f (s.core n))

/-- The FAEROR domain runs. -/
def State.faOn (s : State) : Bool := s.phase == .run && s.domain .faeror == .on

/-- A g register. -/
def Core.gv (c : Core) (k : Nat) : Word := vecGet c.g k 0

/-- Write a g register. -/
def Core.setG (c : Core) (k : Nat) (v : Word) : Core := { c with g := vecSet c.g k v }

/-- The bits of ST (R280). -/
def stZ : Nat := 1
def stN : Nat := 2
def stC : Nat := 4
def stV : Nat := 8
def stAv : Nat := 16
def stSv : Nat := 256
def stIe : Nat := 512

/-- The defined bits of ST. -/
def stMask : Nat := 1023

/-- Set sticky bits of ST: they outlive a move into ST that has not landed (R298, R310). -/
def Core.stick (c : Core) (m : Nat) : Core :=
  { c with
    st := c.st ||| m
    late := c.late.map fun x =>
      match x.eff with
      | .status v k => { x with eff := .status v (k ||| m) }
      | _ => x }

/-- A class that the firmware of a maker core may set (R306). -/
def classAllowed (v : Nat) : Bool := (decide (2 ≤ v) && decide (v ≤ 6)) || v == 12 || v == 14

/-- A late write lands. -/
def Core.landOne (c : Core) (e : LateEff) : Core :=
  match e with
  | .load r v => c.setG r v
  | .flags m v => { c with st := (c.st &&& (stMask - m)) ||| v }
  | .addr f k v =>
    if f = 0 then { c with p := vecSet c.p k v } else if f = 1 then { c with m := vecSet c.m k v }
    else if f = 2 then { c with l := vecSet c.l k v } else { c with b := vecSet c.b k v }
  | .spec i v =>
    let n := v.toNat
    if i = 1 then { c with mode := n % 16 } else if i = 2 then { c with vbase := n % 16384 }
    else if i = 5 then { c with ien := n % 256 }
    else if c.operator || !classAllowed (n % 16) then c else { c with cls := n % 16 }
  | .status v k => { c with st := ((match v with | some x => x.toNat | none => c.ist) &&& stMask) ||| k }

/-- One slot passes: the late writes whose slots have run out land, in their order (R281). -/
def Core.land (c : Core) : Core :=
  let l := c.late.map fun x => { x with slots := x.slots - 1 }
  let c := { c with late := l.filter fun x => decide (0 < x.slots) }
  (l.filter fun x => x.slots == 0).foldl (fun c x => c.landOne x.eff) c

/-- Every late write lands: the pipeline empties. -/
def Core.landAll (c : Core) : Core := c.late.foldl (fun c x => c.landOne x.eff) { c with late := [], inFlight := [] }

/-- Add a late write of this instruction. -/
def Core.later (c : Core) (e : LateEff) : Core := { c with late := c.late ++ [⟨3, e⟩] }

/-! ## Starting and halting (R280, R300 to R303) -/

/-- A core starts from ENTRY: every register of R280 takes its start value. -/
def Core.startAt (c : Core) (code : Nat) : Core :=
  { Core.blank with
    run := .running, loaded := c.loaded, operator := c.operator, entry := c.entry, pc := c.entry % 16384
    cls := if c.operator then 15 else 12, start := code, irq := c.irq, haltPc := c.haltPc, cause := c.cause
    haltAddr := c.haltAddr, restarts := c.restarts, cycles := c.cycles, inFret := c.inFret }

/-- The CAUSE codes (R301). -/
def causeHalt : Nat := 1
def causeHost : Nat := 2
def causePoison : Nat := 3
def causeProgUe : Nat := 4
def causeAlign : Nat := 5
def causeRange : Nat := 6
def causeIllegal : Nat := 7
def causeLath : Nat := 8

/-- EV_65 for each AV bit that goes from 0 to 1 between two values of a core's ST (R298). -/
def State.avRise (s : State) (old new : Nat) : State :=
  s.each (maskList 4 (bits new 4 4 &&& (15 - bits old 4 4))) fun s _ => s.raise 65

/-- A core halts at its present place (R301). -/
def State.coreHalt (s : State) (n cause : Nat) (addr : Option Nat) : State :=
  let st := (s.core n).st
  let s := s.modCore n fun c =>
    let c := c.landAll
    { c with
      run := .halted, branch := none, loops := [], haltPc := c.pc, cause := cause
      haltAddr := match addr with | some a => a % 131072 | none => c.haltAddr }
  let s := s.avRise st (s.core n).st
  if cause = causeHost ∨ cause = causeLath then s else s.raise 64

/-- The first word of a core's data memory and of its program memory. -/
def dataWord (n : Nat) : Nat := 4096 * n
def progWord (n : Nat) : Nat := 2048 * n

/-- Make a core's data memory unwritten: every word reads as poisoned (R291). -/
def State.dataUnwritten (s : State) (n : Nat) : State :=
  let x := s.mem .faData
  let inside (k : Nat) : Bool := decide (dataWord n ≤ k) && decide (k < dataWord n + 4096)
  let s := s.setMem .faData { x with
    bytes := x.bytes.filter fun p => !inside (p.1 / 32), marks := x.marks.filter fun p => !inside p.1 }
  if x.rest = .poisoned then s else s.each (List.range 4096) fun s i => s.setMark .faData (dataWord n + i) .poisoned

/-- The section of a lath that names a core, and whether it is an operator kernel (R37 to R39). -/
def coreSection (recs : List LathRec) (n : Nat) : Option (Firmware × Bool) :=
  recs.findSome? fun r =>
    if r.typ == typFirmware || r.typ == typKernel then
      match firmwareOf r.payload with
      | some f => if testBit f.coreMask n then some (f, r.typ == typKernel) else none
      | none => none
    else none

/-- The running cores of a class whose ceiling is reached stall until the next fret (R306). -/
def State.stallCores (s : State) (cls : Nat) : State :=
  let l := (List.range 24).filter fun n => (s.core n).run == .running && (s.core n).cls == cls
  if s.mayUse cls 1 || l.isEmpty then s
  else (s.each l fun s n => s.modCore n fun c => { c with run := .stalled }).exhaust cls

/-- Load a core's section and start it (R57, R300): `cause` is what its halt record shows from then on. -/
def State.loadCore (s : State) (n : Nat) (f : Firmware) (kernel : Bool) (cause : Nat) : State :=
  let s := s.writeBytes .faProg .spine (65536 * n) f.program
  let s := s.writeBytes .faData .spine (131072 * n) f.data
  let s := s.modCore n fun c =>
    ({ c with loaded := true, operator := kernel, entry := f.entry % 16384, irq := 0, cause := cause } : Core).startAt 0
  s.stallCores (s.core n).cls

/-- The cores follow a lath application: those whose section the load carries are loaded and started, those that no
section names any longer stay halted (R57, R300). A live re-lath touches only the cores whose section changes, halts
them with cause LATH and zero-fills their data memories; another load leaves CAUSE at NONE (R301). An absent FAEROR loads
nothing (R21). -/
def State.applyCores (s : State) (old new carried : List LathRec) (live : Bool) : State :=
  if s.absent .faeror then s
  else s.each (List.range 24) fun s n =>
    let b := coreSection new n
    if coreSection old n = b && (live || (coreSection carried n).isNone) then s
    else
      let cause := if live && (s.core n).loaded then causeLath else 0
      let s := if live && (s.core n).loaded && (s.core n).run != .halted then s.coreHalt n causeLath none else s
      let s := if live then s.zeroWords .faData (dataWord n) 4096 else s.dataUnwritten n
      match b with
      | some x => s.loadCore n x.1 x.2 cause
      | none => s.modCore n fun c => { c with run := .halted, loaded := false, operator := false, cause := cause }

/-- No core holds firmware (R69). -/
def State.unloadCores (s : State) : State := { s with cores := Vector.replicate 24 Core.blank }

/-- A Light Hold wake: each loaded core restarts with its data memory unwritten (R103, R104). -/
def State.resumeCores (s : State) : State :=
  s.each (List.range 24) fun s n =>
    let s := s.dataUnwritten n
    if !(s.core n).loaded then s
    else
      let s := s.modCore n fun c => c.startAt 1
      s.stallCores (s.core n).cls

/-- The cores at a fret boundary's Tc: line 1 FRET, the end of budget stalls, and the restart of halted maker cores
(R285, R302, R306). -/
def State.coreFret (s : State) : State :=
  if !s.faOn then s
  else
    let s := s.each (List.range 24) fun s n => s.modCore n fun c =>
      if !c.loaded then c
      else
        let c := { c with irq := c.irq ||| 2, inFret := 0 }
        if c.run = .stalled then { c with run := .running }
        else if c.run = .halted && !c.operator && c.cause != 0 && c.cause != causeHost && c.cause != causeLath then
          { c.startAt 2 with restarts := min 255 (c.restarts + 1) }
        else c
    s.each (List.range 16) State.stallCores

/-- A write of RUN = 1 to a halted operator core (R303). -/
def State.coreRun (s : State) (n : Nat) : State :=
  let s := s.modCore n fun c => if c.loaded && c.run = .halted then c.startAt 2 else c
  s.stallCores (s.core n).cls

/-- A write of RUN = 0 to a running core (R303). -/
def State.coreHostHalt (s : State) (n : Nat) : State :=
  if (s.core n).run = .halted then s else s.coreHalt n causeHost none

/-- A write to DOORBELL of an operator core (R285). -/
def State.coreDoorbell (s : State) (n v : Nat) : State :=
  (s.modCore n fun c => { c with dbell := BitVec.ofNat 32 v }).pendLine n 0

/-! ## Interrupts (R285, R286, R314) -/

/-- The lowest line that is pending and enabled. -/
def Core.line (c : Core) : Option Nat := (List.range 8).find? fun k => testBit c.irq k && testBit c.ien k

/-- The core holds interrupts off: in delay slots, load-use slots and repeats (R286). -/
def Core.holdsOff (c : Core) : Bool :=
  c.branch.isSome || !c.loops.isEmpty || c.late.any fun x =>
    match x.eff with
    | .load _ _ => decide (2 ≤ x.slots)
    | _ => false

/-- Enter the handler of a line (R285). -/
def Core.enter (c : Core) (k : Nat) : Core :=
  let c := c.landAll
  { c with
    iret := c.pc, ist := c.st, st := c.st &&& (stMask - stIe), irq := c.irq &&& (255 - 2 ^ k)
    pc := (c.vbase + 8 * k) % 16384 }

/-- `k` cycles pass for a core: its stores move on and TIMER counts down (R280, R289). -/
def Core.cyclesPass (c : Core) (k : Nat) : Core :=
  { c with
    inFlight := (c.inFlight.filter fun x => decide (k ≤ x)).map (· - k)
    timer := c.timer - k
    irq := if 0 < c.timer ∧ c.timer ≤ k then c.irq ||| 32 else c.irq
    cycles := (c.cycles + k) % 2 ^ 32
    inFret := c.inFret + k }

/-- Charge cycles of a core to its class. -/
def State.chargeCore (s : State) (cls k : Nat) : State := (s.charge cls 1 k).stallCores cls

/-- The core's next cycle may pass: it runs, the class that the cycle is charged to has cycles left, and so has the fret
(R9, R306). -/
def State.mayCycle (s : State) (n cls : Nat) : Bool :=
  s.faOn && (s.core n).run == .running && s.mayUse cls 1 && decide ((s.core n).inFret < coreFretCycles)

/-- A core is ready to issue. A move into CLASS by instruction i counts from i + 3 (R281, R306). -/
def State.faReady (s : State) (n : Nat) : Bool := s.mayCycle n (s.core n).land.cls

/-- An instruction halts its core in its issue, whose cycles are charged like any others (R301, R306). -/
def State.faHalt (s : State) (n k cause : Nat) (addr : Option Nat) : State :=
  ((s.modCore n fun c => c.cyclesPass k).coreHalt n cause addr).chargeCore (s.core n).land.cls k

/-- The handler of a line is entered in one cycle, charged like any other (R285, R306). -/
def State.faEnter (s : State) (n : Nat) (c : Core) (k : Nat) : State :=
  let s := s.setCore n ((c.enter k).cyclesPass 1)
  (s.avRise c.st (s.core n).ist).chargeCore c.landAll.cls 1

/-- FA_INTERRUPT_ENTRY (R285). -/
def State.faInterrupt (n : Nat) (s : State) : State :=
  let c := s.core n
  if !s.mayCycle n c.landAll.cls || !testBit c.st 9 || c.holdsOff then s
  else match c.line with
    | some k => s.faEnter n c k
    | none => s

/-- WAIT_END (R314): the core enters the handler of the line, which empties its pipeline, or goes on at the next
instruction, with the writes under way in their slots (R281). A core whose class has no cycles left goes from waiting to
stalled, and its interrupts wait (R306). -/
def State.faWaitEnd (n : Nat) (s : State) : State :=
  let c := (s.core n).landAll
  if !s.faOn || (s.core n).run != .waiting then s
  else match c.line with
    | none => s
    | some k =>
      if testBit c.st 9 then
        let s := (s.setCore n { c with run := .running }).avRise (s.core n).st c.st
        if s.mayCycle n c.cls then s.faEnter n (s.core n) k else s.stallCores c.cls
      else (s.modCore n fun c => { c with run := .running }).stallCores (s.core n).cls

/-- FA_TIMER_EXPIRY (R285). -/
def State.faTimer (n : Nat) (s : State) : State :=
  if !s.faOn || (s.core n).timer = 0 then s
  else (s.modCore n fun c => { c with timer := 0 }).pendLine n 5

/-! ## Data memory (R287, R290 to R292) -/

/-- What stops an access: ALIGN before RANGE (R287). -/
def accessFault (a size : Nat) : Option Nat :=
  if a % size ≠ 0 then some causeAlign else if 131072 ≤ a then some causeRange else none

/-- A load of `size` bytes: the value, or the cause of a halt (R287, R292). -/
def State.faLoad (s : State) (n a size : Nat) : State × Except Nat Nat :=
  match accessFault a size with
  | some c => (s, .error c)
  | none =>
    let r := s.readWord .faData (dataWord n + a / 32) .core true
    if r.2.good then (r.1, .ok (leAt (a % 32) size r.2.data)) else (r.1.raise 66, .error causePoison)

/-- A store of bytes that may be made: the merge of R290, and a kick where it touches a kick word (R494). -/
def State.faStore (s : State) (n a : Nat) (d : List Byte) : State :=
  let s := s.writePart .faData .core (131072 * n + a) d
  if a < 0x1FFE0 then s
  else
    let j := (a - 0x1FFE0) / 4
    s.hodKick n j (ofLe (s.rawBytes .faData (131072 * n + 0x1FFE0 + 4 * j) 4))

end Sys2Proof.Machine
end

