-- ==== Sys2Proof/Machine/FaExec.lean ====
section
/-! DEFINITION. What each Faeror instruction does (chapters 09 and 10): addressing, arithmetic, flags, hazards, repeats
and halts. -/

namespace Sys2Proof.Machine

/-! ## Addressing (R293 to R295) -/

/-- The circular length in force of a pointer: above 131,072 it acts as 131,072 (R295). -/
def Core.len (c : Core) (k : Nat) : Nat := min (bits (vecGet c.l k 0).toNat 0 18) 131072

/-- The base of a pointer. -/
def Core.base (c : Core) (k : Nat) : Nat := bits (vecGet c.b k 0).toNat 0 17

/-- The address that a pointer holds. -/
def Core.ptr (c : Core) (k : Nat) : Nat := (vecGet c.p k 0).toNat

/-- Post-modify a pointer by an offset (R293, R294). -/
def Core.postModify (c : Core) (k : Nat) (off : Int) : Core :=
  let p : Int := (c.ptr k : Nat)
  let v : Int := if c.len k = 0 then p + off else (c.base k : Nat) + (p - (c.base k : Nat) + off) % (c.len k : Nat)
  { c with p := vecSet c.p k (BitVec.ofInt 32 v) }

/-- The offset of an m register. -/
def Core.offM (c : Core) (m : Nat) : Int := (vecGet c.m m 0).toInt

/-- Post-modify as a class 0x4 word names. -/
def Core.post (c : Core) (k : Nat) (pm : PostMod) : Core :=
  match pm with
  | .none => c
  | .imm off => c.postModify k off.toInt
  | .reg m => c.postModify k (c.offM m.val)

/-- Post-modify by an m register, if one is named. -/
def Core.postReg (c : Core) (k : Nat) (m : Option (Fin 8)) : Core :=
  match m with
  | none => c
  | some m => c.postModify k (c.offM m.val)

/-! ## The ALU (R310, R312) -/

/-- A result of the ALU: the value, the flags it writes (bits Z, N, C and V of ST) and their values, and saturation. -/
structure AluOut where
  v : Word
  mask : Nat
  flags : Nat
  sv : Bool
  deriving DecidableEq, Repr

/-- Z and N of a value. -/
def flagsZN (v : Word) : Nat := stZ * bit (v == 0) + stN * bit v.msb

/-- A value with Z and N. -/
def outZN (v : Word) : AluOut := ⟨v, 3, flagsZN v, false⟩

/-- An integer does not fit a signed 32-bit register. -/
def overflows32 (i : Int) : Bool := decide (i < -(2 ^ 31)) || decide (2 ^ 31 ≤ i)

/-- An addition or subtraction modulo 2^32 with Z, N, C and V (R310). -/
def outWrap (x y : Word) (sub : Bool) : AluOut :=
  let v := if sub then x - y else x + y
  let carry : Bool := if sub then decide (y.toNat ≤ x.toNat) else decide (2 ^ 32 ≤ x.toNat + y.toNat)
  let i := if sub then x.toInt - y.toInt else x.toInt + y.toInt
  ⟨v, 15, flagsZN v + stC * bit carry + stV * bit (overflows32 i), false⟩

/-- A saturating result with Z, N and V. -/
def outSat (i : Int) : AluOut :=
  let v := BitVec.ofInt 32 (satSigned 32 i)
  ⟨v, 11, flagsZN v + stV * bit (overflows32 i), overflows32 i⟩

/-- The I and Q halves of a register, signed (10, notation). -/
def halfI (v : Word) : Int := (v.truncate 16).toInt
def halfQ (v : Word) : Int := ((v >>> 16).truncate 16).toInt

/-- A complex value of two 16-bit halves. -/
def complexWord (i q : Int) : Word := BitVec.ofNat 32 (ofSigned 16 i + 65536 * ofSigned 16 q)

/-- A complex result, each half saturated to 16 bits. -/
def outComplex (i q : Int) : AluOut :=
  ⟨complexWord (satSigned 16 i) (satSigned 16 q), 0, 0, satSigned 16 i != i || satSigned 16 q != q⟩

/-- The three-register operations (R312). -/
def aluRun3 (op : Alu3) (x y : Word) : AluOut :=
  match op with
  | .add => outWrap x y false
  | .sub => outWrap x y true
  | .adds => outSat (x.toInt + y.toInt)
  | .subs => outSat (x.toInt - y.toInt)
  | .and_ => outZN (x &&& y)
  | .or_ => outZN (x ||| y)
  | .xor_ => outZN (x ^^^ y)
  | .shlv => outZN (x <<< (y.toNat % 32))
  | .srav => outZN (x.sshiftRight (y.toNat % 32))
  | .min => outZN (if x.toInt ≤ y.toInt then x else y)
  | .max => outZN (if x.toInt ≤ y.toInt then y else x)
  | .cadd => outComplex (halfI x + halfI y) (halfQ x + halfQ y)
  | .csub => outComplex (halfI x - halfI y) (halfQ x - halfQ y)

/-- The shifts by SH. -/
def aluRunSh (op : AluSh) (x : Word) (k : Nat) : AluOut :=
  match op with
  | .shl => outZN (x <<< k)
  | .shr => outZN (x >>> k)
  | .sra => outZN (x.sshiftRight k)

/-- The two-register operations. -/
def aluRun2 (op : Alu2) (x : Word) : AluOut :=
  match op with
  | .abs => outSat (if x.toInt < 0 then -x.toInt else x.toInt)
  | .neg => outSat (-x.toInt)
  | .conj => outComplex (halfI x) (-(halfQ x))
  | .cswap => ⟨complexWord (halfQ x) (halfI x), 0, 0, false⟩
  | .mov => outZN x

/-- The immediate operations. -/
def aluRunI (op : AluI) (x : Word) (imm : BitVec 16) : AluOut :=
  match op with
  | .addi => outWrap x (imm.signExtend 32) false
  | .andi => outZN (x &&& imm.zeroExtend 32)
  | .ori => outZN (x ||| imm.zeroExtend 32)
  | .xori => outZN (x ^^^ imm.zeroExtend 32)

/-- Write the flags of a result: Z, N, C and V late, SV at once (R298, R310). -/
def Core.putFlags (c : Core) (o : AluOut) : Core :=
  let c := if o.mask = 0 then c else c.later (.flags o.mask o.flags)
  if o.sv then c.stick stSv else c

/-- Write a result and its flags. -/
def Core.putAlu (c : Core) (rd : Nat) (o : AluOut) : Core := (c.setG rd o.v).putFlags o

/-! ## Rounding and accumulators (R296 to R299, R317) -/

/-- Rounding, shift and saturation to width w: the value, and whether it saturated (R299). -/
def roundSat (w : Nat) (v : Int) (k : Nat) : Int × Bool :=
  let r := (v + (if k = 0 then 0 else (2 ^ (k - 1) : Nat))) / (2 ^ k : Nat)
  (satSigned w r, satSigned w r != r)

/-- Write an accumulator with the result of an accumulating update (R297). -/
def Core.accumulate (c : Core) (k : Nat) (v : Int) : Core :=
  if satSigned 40 v = v then { c with acc := vecSet c.acc k v }
  else
    let w := if testBit c.mode k then toSigned 40 (ofSigned 40 v) else satSigned 40 v
    let c := c.stick (stAv * 2 ^ k)
    { c with acc := vecSet c.acc k w, lastAv := c.lastAv ||| stAv * 2 ^ k }

/-- The four signed products of a complex multiply under its variant (R296, R312). -/
def products (x y : Word) (conj neg : Bool) : Vector Int 4 :=
  let s (b : Bool) : Int := if b then -1 else 1
  #v[s neg * (halfI x * halfI y), s (neg != conj) * (halfQ x * halfQ y), s (neg != conj) * (halfI x * halfQ y),
    s neg * (halfQ x * halfI y)]

/-- Add four products into the accumulators. -/
def Core.addProducts (c : Core) (l : Vector Int 4) : Core :=
  (List.range 4).foldl (fun c k => c.accumulate k (vecGet c.acc k 0 + vecGet l k 0)) c

/-- The complex multiplies (R312). -/
def Core.runCMul (c : Core) (op : CMul) (x y : Word) : Core :=
  match op with
  | .cmac => c.addProducts (products x y false false)
  | .cmacj => c.addProducts (products x y true false)
  | .cmsu => c.addProducts (products x y false true)
  | .cmsuj => c.addProducts (products x y true true)
  | .cmul => { c with acc := products x y false false }
  | .cmulj => { c with acc := products x y true false }

/-- The complex multiply of a multiply with dual load. -/
def CMulLd.mul : CMulLd → CMul
  | .cmacld => .cmac
  | .cmacjld => .cmacj
  | .cmsuld => .cmsu
  | .cmsujld => .cmsuj

/-- The half of a register that a real multiply names. -/
def halfOfWord (v : Word) (q : Bool) : Int := if q then halfQ v else halfI v

/-- The real multiplies (R312). -/
def Core.runRMul (c : Core) (op : RMul) (k : Nat) (v : Int) : Core :=
  match op with
  | .rmac => c.accumulate k (vecGet c.acc k 0 + v)
  | .rmsu => c.accumulate k (vecGet c.acc k 0 - v)
  | .rmul => { c with acc := vecSet c.acc k v }

/-- An accumulator as a store, move or shift sees it (R281). -/
def Core.accRead (c : Core) (k : Nat) : Int := vecGet c.accOld k 0

/-- The combined complex result, rounded (R317): its word, and whether it saturated. -/
def Core.combined (c : Core) (k : Nat) : Word × Bool :=
  let i := roundSat 16 (c.accRead 0 - c.accRead 1) k
  let q := roundSat 16 (c.accRead 2 + c.accRead 3) k
  (complexWord i.1 q.1, i.2 || q.2)

/-- Set SV if a value saturated. -/
def Core.sat (c : Core) (b : Bool) : Core := if b then c.stick stSv else c

/-! ## Conditions (R311) -/

/-- BC's condition on ST. -/
def condHolds (st cond : Nat) : Bool :=
  let z := testBit st 0
  let n := testBit st 1
  let cy := testBit st 2
  let v := testBit st 3
  match cond with
  | 0 => z
  | 1 => !z
  | 2 => n != v
  | 3 => n == v
  | 4 => !z && n == v
  | 5 => z || n != v
  | 6 => cy
  | 7 => !cy
  | 8 => n
  | 9 => !n
  | 10 => v
  | 11 => !v
  | _ => true

/-! ## Special registers (R280, R318) -/

/-- Read a special register. -/
def Core.special (c : Core) (i : Nat) : Nat :=
  match i with
  | 0 => c.st
  | 1 => c.mode
  | 2 => c.vbase
  | 3 => c.iret
  | 4 => c.ist
  | 5 => c.ien
  | 6 => c.cls
  | 7 => c.timer
  | 8 => c.dbell.toNat
  | _ => c.start

/-- Move into a special register; `av` are the AV bits that the instruction before set (R298, R318). -/
def Core.putSpecial (c : Core) (i : Nat) (v : Word) (av : Nat) : Core :=
  match i with
  | 0 => c.later (.status (some v) av)
  | 3 => { c with iret := v.toNat % 16384 }
  | 4 => { c with ist := v.toNat }
  | 7 => { c with timer := v.toNat }
  | 8 => c
  | 9 => c
  | _ => c.later (.spec i v)

/-- The value of a p, m, l or b register as a move out of it sees it: the last move into it counts at once (R281). -/
def Core.addrRead (c : Core) (f k : Nat) : Word :=
  let reg := vecGet (if f = 0 then c.p else if f = 1 then c.m else if f = 2 then c.l else c.b) k 0
  c.late.foldl (fun v x => match x.eff with | .addr f' k' w => if f' = f ∧ k' = k then w else v | _ => v) reg

/-- A value as it is kept in a register of a file: l is 18 bits wide and b 17 (R280). -/
def AddrFile.fit (f : AddrFile) (v : Word) : Word :=
  match f with
  | .p => v
  | .m => v
  | .l => BitVec.ofNat 32 (v.toNat % 2 ^ 18)
  | .b => BitVec.ofNat 32 (v.toNat % 2 ^ 17)

/-- The value of an IMM21 move (R312). -/
def AddrFile.immValue (f : AddrFile) (imm : BitVec 21) : Word :=
  match f with
  | .p => imm.zeroExtend 32
  | .m => imm.signExtend 32
  | .l => BitVec.ofNat 32 (min imm.toNat 131072)
  | .b => BitVec.ofNat 32 (imm.toNat % 2 ^ 17)

/-! ## Order, repeats and slots (R281 to R284, R289) -/

/-- The next address, and the repeats that stay open, once the instruction at `pc` has run. -/
def stepLoops (pc : Nat) : List Loop → Nat × List Loop
  | [] => ((pc + 1) % 16384, [])
  | x :: t =>
    if x.last ≠ pc then ((pc + 1) % 16384, x :: t)
    else if 1 < x.left then (x.first, { x with left := x.left - 1 } :: t)
    else stepLoops pc t

/-- A branch, call or return. -/
def FaInstr.branches : FaInstr → Bool
  | .b _ => true
  | .bc _ _ => true
  | .call _ => true
  | .ret => true
  | .reti => true
  | _ => false

/-- The two pointers or the two destinations of a dual load are the same (R316). -/
def FaInstr.clash : FaInstr → Bool
  | .ldd ga gb pa pb _ _ => ga == gb || pa == pb
  | .cmulld _ gx gy px py _ _ => gx == gy || px == py
  | _ => false

/-- An instruction that may not stand where it stands (R282, R284, R314, R316). -/
def Core.misplaced (c : Core) (i : FaInstr) : Bool :=
  let slot := c.branch.isSome
  let body := !c.loops.isEmpty
  let stop : Bool := i.branches || i == .halt || i == .wait
  i.clash || (stop && (slot || body)) ||
    match i with
    | .rep n _ =>
      slot || decide (3 ≤ c.loops.length) || c.loops.any fun x => decide ((x.last + 16384 - c.pc) % 16384 < n.val + 1)
    | _ => false

/-- The instruction loads two words (R289). -/
def FaInstr.dual : FaInstr → Bool
  | .ldd _ _ _ _ _ _ => true
  | .cmulld _ _ _ _ _ _ _ => true
  | _ => false

/-- The instruction claims slot B in WB (R288). -/
def FaInstr.stores : FaInstr → Bool
  | .mem .stw _ _ _ => true
  | .mem .sth _ _ _ => true
  | .wzero _ _ => true
  | .stac _ _ _ => true
  | .stah _ _ _ _ => true
  | _ => false

/-- The cycles for which a dual load stalls behind stores in flight (R289). -/
def Core.stalls (c : Core) (i : FaInstr) : Nat :=
  if i.dual then ((List.range 4).find? fun j => !c.inFlight.contains j).getD 4 else 0

/-! ## One instruction -/

/-- What an instruction does beside moving on: the state, or the cause and address of a halt. -/
abbrev FaStep := State × Option (Nat × Option Nat)

/-- It changes its core alone. -/
def State.faOk (s : State) (n : Nat) (f : Core → Core) : FaStep := (s.modCore n f, none)

/-- It halts. -/
def State.faStop (s : State) (cause : Nat) (addr : Option Nat) : FaStep := (s, some (cause, addr))

/-- A load into g, by a pointer. -/
def State.faLoadG (s : State) (n g a size : Nat) (f : Core → Core) : FaStep :=
  let r := s.faLoad n a size
  match r.2 with
  | .error c => r.1.faStop c (some a)
  | .ok v =>
    let w : Word := if size = 2 then (BitVec.ofNat 16 v).signExtend 32 else BitVec.ofNat 32 v
    r.1.faOk n fun c => f (c.later (.load g w))

/-- A store of `size` bytes. -/
def State.faStoreV (s : State) (n a size v : Nat) (f : Core → Core) : FaStep :=
  match accessFault a size with
  | some c => s.faStop c (some a)
  | none => (s.modCore n f).faStore n a (leBytes size v) |>.faOk n id

/-- Two loads through two pointers (R312, R316). -/
def State.faLoad2 (s : State) (n ga gb aa ab : Nat) (f : Core → Core) : FaStep :=
  let x := s.faLoad n aa 4
  match x.2 with
  | .error c => x.1.faStop c (some aa)
  | .ok v =>
    let y := x.1.faLoad n ab 4
    match y.2 with
    | .error c => y.1.faStop c (some ab)
    | .ok w => y.1.faOk n fun c => f ((c.later (.load ga (BitVec.ofNat 32 v))).later (.load gb (BitVec.ofNat 32 w)))

/-- What an instruction does (R312). `c` is the core as the instruction reads it, `av` the AV bits that the instruction
before it set. -/
def State.faRun (s : State) (n : Nat) (c : Core) (av : Nat) (i : FaInstr) : FaStep :=
  match i with
  | .nop => s.faOk n id
  | .halt => s.faStop causeHalt none
  | .b t => s.faOk n fun c => { c with branch := some ⟨2, some t.toNat⟩ }
  | .bc cond t => s.faOk n fun c =>
      { c with branch := some ⟨2, some (if condHolds c.st cond.val then t.toNat else (c.pc + 3) % 16384)⟩ }
  | .call t => s.faOk n fun c =>
      { c.setG 15 (BitVec.ofNat 32 ((c.pc + 3) % 16384)) with branch := some ⟨2, some t.toNat⟩ }
  | .ret => s.faOk n fun c => { c with branch := some ⟨2, some ((c.gv 15).toNat % 16384)⟩ }
  | .reti => s.faOk n fun c => { c.later (.status none 0) with branch := some ⟨2, none⟩ }
  | .wait => s.faOk n fun c => { c with run := .waiting }
  | .sig t =>
    let k := t.toNat % 32
    if k < 24 ∧ (!c.operator || (s.core k).operator) then (s.pendLine k 6, none) else s.faOk n id
  | .rep _ _ => s.faOk n id
  | .alu3 op rd rs rt => s.faOk n fun c => c.putAlu rd.val (aluRun3 op (c.gv rs.val) (c.gv rt.val))
  | .alush op rd rs sh => s.faOk n fun c => c.putAlu rd.val (aluRunSh op (c.gv rs.val) sh.val)
  | .alu2 op rd rs => s.faOk n fun c => c.putAlu rd.val (aluRun2 op (c.gv rs.val))
  | .cmp rs rt => s.faOk n fun c => c.putFlags (outWrap (c.gv rs.val) (c.gv rt.val) true)
  | .alui op rd rs imm => s.faOk n fun c => c.putAlu rd.val (aluRunI op (c.gv rs.val) imm)
  | .movi rd imm => s.faOk n fun c => c.putAlu rd.val (outZN (imm.signExtend 32))
  | .movhi rd imm => s.faOk n fun c =>
      c.setG rd.val (BitVec.ofNat 32 (imm.toNat * 65536 + (c.gv rd.val).toNat % 65536))
  | .cmpi rs imm => s.faOk n fun c => c.putFlags (outWrap (c.gv rs.val) (imm.signExtend 32) true)
  | .mem .ldw g p pm => s.faLoadG n g.val (c.ptr p.val) 4 fun c => c.post p.val pm
  | .mem .ldh g p pm => s.faLoadG n g.val (c.ptr p.val) 2 fun c => c.post p.val pm
  | .mem .stw g p pm => s.faStoreV n (c.ptr p.val) 4 (c.gv g.val).toNat fun c => c.post p.val pm
  | .mem .sth g p pm =>
    let r := roundSat 16 (c.gv g.val).toInt 0
    s.faStoreV n (c.ptr p.val) 2 (ofSigned 16 r.1) fun c => (c.post p.val pm).sat r.2
  | .wzero p pm =>
    let a := c.ptr p.val
    if 131072 ≤ a then s.faStop causeRange (some a)
    else ((s.modCore n fun c => c.post p.val pm).writeWhole .faData (dataWord n + a / 32) (fit 32 []), none)
  | .ldd ga gb pa pb ma mb => s.faLoad2 n ga.val gb.val (c.ptr pa.val) (c.ptr pb.val)
      fun c => (c.postReg pa.val ma).postReg pb.val mb
  | .cmul op gx gy => s.faOk n fun c => c.runCMul op (c.gv gx.val) (c.gv gy.val)
  | .rmul op gx gy acc hx hy => s.faOk n fun c =>
      c.runRMul op acc.val (halfOfWord (c.gv gx.val) hx * halfOfWord (c.gv gy.val) hy)
  | .cmulld op gx gy px py mx my => s.faLoad2 n gx.val gy.val (c.ptr px.val) (c.ptr py.val) fun c' =>
      ((c'.runCMul op.mul (c.gv gx.val) (c.gv gy.val)).postReg px.val (some mx)).postReg py.val (some my)
  | .clra mask => s.faOk n fun c =>
      { c with acc := Vector.ofFn fun k => if testBit mask.toNat k.val then 0 else vecGet c.acc k.val 0 }
  | .mvag g acc k => s.faOk n fun c =>
      let r := roundSat 32 (c.accRead acc.val) k.val
      (c.setG g.val (BitVec.ofInt 32 r.1)).sat r.2
  | .mvga g acc => s.faOk n fun c => { c with acc := vecSet c.acc acc.val (c.gv g.val).toInt }
  | .acopy acc acc2 => s.faOk n fun c => { c with acc := vecSet c.acc acc.val (c.accRead acc2.val) }
  | .asum .aadd acc acc2 => s.faOk n fun c => c.accumulate acc.val (c.accRead acc.val + c.accRead acc2.val)
  | .asum .asub acc acc2 => s.faOk n fun c => c.accumulate acc.val (c.accRead acc.val - c.accRead acc2.val)
  | .cmbg g k => s.faOk n fun c => (c.setG g.val (c.combined k.val).1).sat (c.combined k.val).2
  | .stac p pm k => s.faStoreV n (c.ptr p.val) 4 (c.combined k.val).1.toNat
      fun c' => (c'.postReg p.val pm).sat (c.combined k.val).2
  | .stah p pm acc k =>
    let r := roundSat 16 (c.accRead acc.val) k.val
    s.faStoreV n (c.ptr p.val) 2 (ofSigned 16 r.1) fun c => (c.postReg p.val pm).sat r.2
  | .mvt f g k => s.faOk n fun c => c.later (.addr f.code k.val (f.fit (c.gv g.val)))
  | .mvf f g k => s.faOk n fun c => c.setG g.val (c.addrRead f.code k.val)
  | .mvts g k => s.faOk n fun c => c.putSpecial k.val (c.gv g.val) av
  | .mvfs g k => s.faOk n fun c => c.setG g.val (BitVec.ofNat 32 (c.special k.val))
  | .li f k imm => s.faOk n fun c => c.later (.addr f.code k.val (f.immValue imm))

/-- The COUNT of a REPEAT. -/
def Core.repCount (c : Core) (k : RepCount) : Nat :=
  match k with
  | .imm v => v.toNat
  | .reg g => (c.gv g.val).toNat % 65536

/-- Program order after an instruction: delay slots, repeats, the next address (R281, R284). `c` is the core before it. -/
def Core.moveOn (c' c : Core) (i : FaInstr) : Core :=
  let x : Nat × List Loop := match i with
    | .rep n k =>
      let last := (c.pc + n.val + 1) % 16384
      if c.repCount k = 0 then stepLoops last c.loops
      else ((c.pc + 1) % 16384, ⟨(c.pc + 1) % 16384, last, c.repCount k⟩ :: c.loops)
    | _ => stepLoops c.pc c.loops
  let c' := { c' with pc := x.1, loops := x.2 }
  match c.branch with
  | none => c'
  | some y =>
    if 1 < y.slots then { c' with branch := some ⟨y.slots - 1, y.target⟩ }
    else { c' with branch := none, pc := (match y.target with | some t => t | none => c'.iret) % 16384 }

/-- The word at a program address of a core, and whether its fetch word is good (R301, R312). -/
def State.faWord (s : State) (n pc : Nat) : Nat := ofLe (s.rawBytes .faProg (65536 * n + 4 * pc) 4)

/-- The fetch word that holds a program address is damaged. -/
def State.faFetchBad (s : State) (n pc : Nat) : Bool :=
  match s.wordMark .faProg (progWord n + pc / 8) with
  | .clean => false
  | .correctable _ _ => false
  | _ => true

/-- An instruction issues on a core, its word fetched and good. -/
def State.faDo (s : State) (n : Nat) (i : FaInstr) : State :=
  let c := (s.core n).land
  if c.misplaced i then s.faHalt n 1 causeIllegal none
  else
    let k := 1 + c.stalls i
    let c := c.cyclesPass k
    let av := c.lastAv
    let r := (s.setCore n { c with lastAv := 0 }).faRun n c av i
    match r.2 with
    | some h => ({ r.1 with cores := s.cores }).faHalt n k h.1 h.2
    | none =>
      let s' := r.1.modCore n fun c' =>
        { c'.moveOn c i with
          accOld := c.acc
          inFlight := if i.stores then c'.inFlight ++ [2] else c'.inFlight }
      ((s'.avRise (s.core n).st c.st).avRise c.st (s'.core n).st).chargeCore c.cls k

/-- The core stalls if its class has no cycles left; one that has used the fret's own cycles waits for the next (R9). -/
def State.faStall (s : State) (n : Nat) : State :=
  let cls := (s.core n).land.cls
  if s.faOn && (s.core n).run == .running && !s.mayUse cls 1 then
    (s.modCore n fun c => { c with run := .stalled }).exhaust cls
  else s

/-- The core issues the instruction that its program memory holds at its place; `i` says which it is, and nothing
happens where it is another. A damaged fetch word halts the core (R301). -/
def State.faIssue (n : Nat) (i : FaInstr) (s : State) : State :=
  if !s.faReady n then s.faStall n
  else
    let pc := (s.core n).pc
    if s.faFetchBad n pc then (s.readWord .faProg (progWord n + pc / 8) .core false).1.faHalt n 1 causeProgUe none
    else if faDecode (s.faWord n pc) != some i then s
    else (s.readWord .faProg (progWord n + pc / 8) .core false).1.faDo n i

/-- ILLEGAL_INSTRUCTION: the word at the core's place spells none (R307). -/
def State.faIllegal (n : Nat) (s : State) : State :=
  if !s.faReady n then s.faStall n
  else
    let pc := (s.core n).pc
    if s.faFetchBad n pc then (s.readWord .faProg (progWord n + pc / 8) .core false).1.faHalt n 1 causeProgUe none
    else if (faDecode (s.faWord n pc)).isSome then s
    else (s.readWord .faProg (progWord n + pc / 8) .core false).1.faHalt n 1 causeIllegal none

/-- FA_INTERRUPT_ENTRY. -/
def execFaInterruptEntry (core : Fin 24) (s : State) : Outcome := act s (State.faInterrupt core.val)
/-- WAIT_END. -/
def execWaitEnd (core : Fin 24) (s : State) : Outcome := act s (State.faWaitEnd core.val)
/-- FA_TIMER_EXPIRY. -/
def execFaTimerExpiry (core : Fin 24) (s : State) : Outcome := act s (State.faTimer core.val)
/-- ILLEGAL_INSTRUCTION. -/
def execIllegalInstruction (core : Fin 24) (s : State) : Outcome := act s (State.faIllegal core.val)
/-- NOP. -/
def execNop (core : Fin 24) (s : State) : Outcome :=
  act s (State.faIssue core.val (.nop))
/-- HALT. -/
def execHalt (core : Fin 24) (s : State) : Outcome :=
  act s (State.faIssue core.val (.halt))
/-- B. -/
def execB (core : Fin 24) (t : BitVec 14) (s : State) : Outcome :=
  act s (State.faIssue core.val (.b t))
/-- BC. -/
def execBc (core : Fin 24) (cond : Fin 13) (t : BitVec 14) (s : State) : Outcome :=
  act s (State.faIssue core.val (.bc cond t))
/-- CALL. -/
def execCall (core : Fin 24) (t : BitVec 14) (s : State) : Outcome :=
  act s (State.faIssue core.val (.call t))
/-- RET. -/
def execRet (core : Fin 24) (s : State) : Outcome :=
  act s (State.faIssue core.val (.ret))
/-- RETI. -/
def execReti (core : Fin 24) (s : State) : Outcome :=
  act s (State.faIssue core.val (.reti))
/-- WAIT. -/
def execWait (core : Fin 24) (s : State) : Outcome :=
  act s (State.faIssue core.val (.wait))
/-- SIG. -/
def execSig (core : Fin 24) (t : BitVec 14) (s : State) : Outcome :=
  act s (State.faIssue core.val (.sig t))
/-- REPEAT. -/
def execRepeat (core : Fin 24) (n : Fin 1024) (count : RepCount) (s : State) : Outcome :=
  act s (State.faIssue core.val (.rep n count))
/-- ADD. -/
def execAdd (core : Fin 24) (rd : Fin 16) (rs : Fin 16) (rt : Fin 16) (s : State) : Outcome :=
  act s (State.faIssue core.val (.alu3 .add rd rs rt))
/-- SUB. -/
def execSub (core : Fin 24) (rd : Fin 16) (rs : Fin 16) (rt : Fin 16) (s : State) : Outcome :=
  act s (State.faIssue core.val (.alu3 .sub rd rs rt))
/-- ADDS. -/
def execAdds (core : Fin 24) (rd : Fin 16) (rs : Fin 16) (rt : Fin 16) (s : State) : Outcome :=
  act s (State.faIssue core.val (.alu3 .adds rd rs rt))
/-- SUBS. -/
def execSubs (core : Fin 24) (rd : Fin 16) (rs : Fin 16) (rt : Fin 16) (s : State) : Outcome :=
  act s (State.faIssue core.val (.alu3 .subs rd rs rt))
/-- AND. -/
def execAnd (core : Fin 24) (rd : Fin 16) (rs : Fin 16) (rt : Fin 16) (s : State) : Outcome :=
  act s (State.faIssue core.val (.alu3 .and_ rd rs rt))
/-- OR. -/
def execOr (core : Fin 24) (rd : Fin 16) (rs : Fin 16) (rt : Fin 16) (s : State) : Outcome :=
  act s (State.faIssue core.val (.alu3 .or_ rd rs rt))
/-- XOR. -/
def execXor (core : Fin 24) (rd : Fin 16) (rs : Fin 16) (rt : Fin 16) (s : State) : Outcome :=
  act s (State.faIssue core.val (.alu3 .xor_ rd rs rt))
/-- SHL. -/
def execShl (core : Fin 24) (rd : Fin 16) (rs : Fin 16) (sh : Fin 32) (s : State) : Outcome :=
  act s (State.faIssue core.val (.alush .shl rd rs sh))
/-- SHR. -/
def execShr (core : Fin 24) (rd : Fin 16) (rs : Fin 16) (sh : Fin 32) (s : State) : Outcome :=
  act s (State.faIssue core.val (.alush .shr rd rs sh))
/-- SRA. -/
def execSra (core : Fin 24) (rd : Fin 16) (rs : Fin 16) (sh : Fin 32) (s : State) : Outcome :=
  act s (State.faIssue core.val (.alush .sra rd rs sh))
/-- SHLV. -/
def execShlv (core : Fin 24) (rd : Fin 16) (rs : Fin 16) (rt : Fin 16) (s : State) : Outcome :=
  act s (State.faIssue core.val (.alu3 .shlv rd rs rt))
/-- SRAV. -/
def execSrav (core : Fin 24) (rd : Fin 16) (rs : Fin 16) (rt : Fin 16) (s : State) : Outcome :=
  act s (State.faIssue core.val (.alu3 .srav rd rs rt))
/-- MIN. -/
def execMin (core : Fin 24) (rd : Fin 16) (rs : Fin 16) (rt : Fin 16) (s : State) : Outcome :=
  act s (State.faIssue core.val (.alu3 .min rd rs rt))
/-- MAX. -/
def execMax (core : Fin 24) (rd : Fin 16) (rs : Fin 16) (rt : Fin 16) (s : State) : Outcome :=
  act s (State.faIssue core.val (.alu3 .max rd rs rt))
/-- ABS. -/
def execAbs (core : Fin 24) (rd : Fin 16) (rs : Fin 16) (s : State) : Outcome :=
  act s (State.faIssue core.val (.alu2 .abs rd rs))
/-- NEG. -/
def execNeg (core : Fin 24) (rd : Fin 16) (rs : Fin 16) (s : State) : Outcome :=
  act s (State.faIssue core.val (.alu2 .neg rd rs))
/-- CMP. -/
def execCmp (core : Fin 24) (rs : Fin 16) (rt : Fin 16) (s : State) : Outcome :=
  act s (State.faIssue core.val (.cmp rs rt))
/-- CADD. -/
def execCadd (core : Fin 24) (rd : Fin 16) (rs : Fin 16) (rt : Fin 16) (s : State) : Outcome :=
  act s (State.faIssue core.val (.alu3 .cadd rd rs rt))
/-- CSUB. -/
def execCsub (core : Fin 24) (rd : Fin 16) (rs : Fin 16) (rt : Fin 16) (s : State) : Outcome :=
  act s (State.faIssue core.val (.alu3 .csub rd rs rt))
/-- CONJ. -/
def execConj (core : Fin 24) (rd : Fin 16) (rs : Fin 16) (s : State) : Outcome :=
  act s (State.faIssue core.val (.alu2 .conj rd rs))
/-- CSWAP. -/
def execCswap (core : Fin 24) (rd : Fin 16) (rs : Fin 16) (s : State) : Outcome :=
  act s (State.faIssue core.val (.alu2 .cswap rd rs))
/-- MOV. -/
def execMov (core : Fin 24) (rd : Fin 16) (rs : Fin 16) (s : State) : Outcome :=
  act s (State.faIssue core.val (.alu2 .mov rd rs))
/-- ADDI. -/
def execAddi (core : Fin 24) (rd : Fin 16) (rs : Fin 16) (imm : BitVec 16) (s : State) : Outcome :=
  act s (State.faIssue core.val (.alui .addi rd rs imm))
/-- ANDI. -/
def execAndi (core : Fin 24) (rd : Fin 16) (rs : Fin 16) (imm : BitVec 16) (s : State) : Outcome :=
  act s (State.faIssue core.val (.alui .andi rd rs imm))
/-- ORI. -/
def execOri (core : Fin 24) (rd : Fin 16) (rs : Fin 16) (imm : BitVec 16) (s : State) : Outcome :=
  act s (State.faIssue core.val (.alui .ori rd rs imm))
/-- XORI. -/
def execXori (core : Fin 24) (rd : Fin 16) (rs : Fin 16) (imm : BitVec 16) (s : State) : Outcome :=
  act s (State.faIssue core.val (.alui .xori rd rs imm))
/-- MOVI. -/
def execMovi (core : Fin 24) (rd : Fin 16) (imm : BitVec 16) (s : State) : Outcome :=
  act s (State.faIssue core.val (.movi rd imm))
/-- MOVHI. -/
def execMovhi (core : Fin 24) (rd : Fin 16) (imm : BitVec 16) (s : State) : Outcome :=
  act s (State.faIssue core.val (.movhi rd imm))
/-- CMPI. -/
def execCmpi (core : Fin 24) (rs : Fin 16) (imm : BitVec 16) (s : State) : Outcome :=
  act s (State.faIssue core.val (.cmpi rs imm))
/-- LDW. -/
def execLdw (core : Fin 24) (g : Fin 16) (p : Fin 8) (pm : PostMod) (s : State) : Outcome :=
  act s (State.faIssue core.val (.mem .ldw g p pm))
/-- LDH. -/
def execLdh (core : Fin 24) (g : Fin 16) (p : Fin 8) (pm : PostMod) (s : State) : Outcome :=
  act s (State.faIssue core.val (.mem .ldh g p pm))
/-- STW. -/
def execStw (core : Fin 24) (g : Fin 16) (p : Fin 8) (pm : PostMod) (s : State) : Outcome :=
  act s (State.faIssue core.val (.mem .stw g p pm))
/-- STH. -/
def execSth (core : Fin 24) (g : Fin 16) (p : Fin 8) (pm : PostMod) (s : State) : Outcome :=
  act s (State.faIssue core.val (.mem .sth g p pm))
/-- WZERO. -/
def execWzero (core : Fin 24) (p : Fin 8) (pm : PostMod) (s : State) : Outcome :=
  act s (State.faIssue core.val (.wzero p pm))
/-- LDD. -/
def execLdd (core : Fin 24) (ga : Fin 16) (gb : Fin 16) (pa : Fin 8) (pb : Fin 8) (ma : Option (Fin 8)) (mb : Option (Fin 8)) (s : State) : Outcome :=
  act s (State.faIssue core.val (.ldd ga gb pa pb ma mb))
/-- CMAC. -/
def execCmac (core : Fin 24) (gx : Fin 16) (gy : Fin 16) (s : State) : Outcome :=
  act s (State.faIssue core.val (.cmul .cmac gx gy))
/-- CMACJ. -/
def execCmacj (core : Fin 24) (gx : Fin 16) (gy : Fin 16) (s : State) : Outcome :=
  act s (State.faIssue core.val (.cmul .cmacj gx gy))
/-- CMSU. -/
def execCmsu (core : Fin 24) (gx : Fin 16) (gy : Fin 16) (s : State) : Outcome :=
  act s (State.faIssue core.val (.cmul .cmsu gx gy))
/-- CMSUJ. -/
def execCmsuj (core : Fin 24) (gx : Fin 16) (gy : Fin 16) (s : State) : Outcome :=
  act s (State.faIssue core.val (.cmul .cmsuj gx gy))
/-- CMUL. -/
def execCmul (core : Fin 24) (gx : Fin 16) (gy : Fin 16) (s : State) : Outcome :=
  act s (State.faIssue core.val (.cmul .cmul gx gy))
/-- CMULJ. -/
def execCmulj (core : Fin 24) (gx : Fin 16) (gy : Fin 16) (s : State) : Outcome :=
  act s (State.faIssue core.val (.cmul .cmulj gx gy))
/-- RMAC. -/
def execRmac (core : Fin 24) (gx : Fin 16) (gy : Fin 16) (acc : Fin 4) (hx : Bool) (hy : Bool) (s : State) : Outcome :=
  act s (State.faIssue core.val (.rmul .rmac gx gy acc hx hy))
/-- RMSU. -/
def execRmsu (core : Fin 24) (gx : Fin 16) (gy : Fin 16) (acc : Fin 4) (hx : Bool) (hy : Bool) (s : State) : Outcome :=
  act s (State.faIssue core.val (.rmul .rmsu gx gy acc hx hy))
/-- RMUL. -/
def execRmul (core : Fin 24) (gx : Fin 16) (gy : Fin 16) (acc : Fin 4) (hx : Bool) (hy : Bool) (s : State) : Outcome :=
  act s (State.faIssue core.val (.rmul .rmul gx gy acc hx hy))
/-- CMACLD. -/
def execCmacld (core : Fin 24) (gx : Fin 16) (gy : Fin 16) (px : Fin 8) (py : Fin 8) (mx : Fin 8) (my : Fin 8) (s : State) : Outcome :=
  act s (State.faIssue core.val (.cmulld .cmacld gx gy px py mx my))
/-- CMACJLD. -/
def execCmacjld (core : Fin 24) (gx : Fin 16) (gy : Fin 16) (px : Fin 8) (py : Fin 8) (mx : Fin 8) (my : Fin 8) (s : State) : Outcome :=
  act s (State.faIssue core.val (.cmulld .cmacjld gx gy px py mx my))
/-- CMSULD. -/
def execCmsuld (core : Fin 24) (gx : Fin 16) (gy : Fin 16) (px : Fin 8) (py : Fin 8) (mx : Fin 8) (my : Fin 8) (s : State) : Outcome :=
  act s (State.faIssue core.val (.cmulld .cmsuld gx gy px py mx my))
/-- CMSUJLD. -/
def execCmsujld (core : Fin 24) (gx : Fin 16) (gy : Fin 16) (px : Fin 8) (py : Fin 8) (mx : Fin 8) (my : Fin 8) (s : State) : Outcome :=
  act s (State.faIssue core.val (.cmulld .cmsujld gx gy px py mx my))
/-- CLRA. -/
def execClra (core : Fin 24) (mask : BitVec 4) (s : State) : Outcome :=
  act s (State.faIssue core.val (.clra mask))
/-- MVAG. -/
def execMvag (core : Fin 24) (g : Fin 16) (acc : Fin 4) (k : Fin 32) (s : State) : Outcome :=
  act s (State.faIssue core.val (.mvag g acc k))
/-- MVGA. -/
def execMvga (core : Fin 24) (g : Fin 16) (acc : Fin 4) (s : State) : Outcome :=
  act s (State.faIssue core.val (.mvga g acc))
/-- ACOPY. -/
def execAcopy (core : Fin 24) (acc : Fin 4) (acc2 : Fin 4) (s : State) : Outcome :=
  act s (State.faIssue core.val (.acopy acc acc2))
/-- AADD. -/
def execAadd (core : Fin 24) (acc : Fin 4) (acc2 : Fin 4) (s : State) : Outcome :=
  act s (State.faIssue core.val (.asum .aadd acc acc2))
/-- ASUB. -/
def execAsub (core : Fin 24) (acc : Fin 4) (acc2 : Fin 4) (s : State) : Outcome :=
  act s (State.faIssue core.val (.asum .asub acc acc2))
/-- CMBG. -/
def execCmbg (core : Fin 24) (g : Fin 16) (k : Fin 32) (s : State) : Outcome :=
  act s (State.faIssue core.val (.cmbg g k))
/-- STAC. -/
def execStac (core : Fin 24) (p : Fin 8) (pm : Option (Fin 8)) (k : Fin 32) (s : State) : Outcome :=
  act s (State.faIssue core.val (.stac p pm k))
/-- STAH. -/
def execStah (core : Fin 24) (p : Fin 8) (pm : Option (Fin 8)) (acc : Fin 4) (k : Fin 32) (s : State) : Outcome :=
  act s (State.faIssue core.val (.stah p pm acc k))
/-- MVTP. -/
def execMvtp (core : Fin 24) (g : Fin 16) (k : Fin 8) (s : State) : Outcome :=
  act s (State.faIssue core.val (.mvt .p g k))
/-- MVTM. -/
def execMvtm (core : Fin 24) (g : Fin 16) (k : Fin 8) (s : State) : Outcome :=
  act s (State.faIssue core.val (.mvt .m g k))
/-- MVTL. -/
def execMvtl (core : Fin 24) (g : Fin 16) (k : Fin 8) (s : State) : Outcome :=
  act s (State.faIssue core.val (.mvt .l g k))
/-- MVTB. -/
def execMvtb (core : Fin 24) (g : Fin 16) (k : Fin 8) (s : State) : Outcome :=
  act s (State.faIssue core.val (.mvt .b g k))
/-- MVFP. -/
def execMvfp (core : Fin 24) (g : Fin 16) (k : Fin 8) (s : State) : Outcome :=
  act s (State.faIssue core.val (.mvf .p g k))
/-- MVFM. -/
def execMvfm (core : Fin 24) (g : Fin 16) (k : Fin 8) (s : State) : Outcome :=
  act s (State.faIssue core.val (.mvf .m g k))
/-- MVFL. -/
def execMvfl (core : Fin 24) (g : Fin 16) (k : Fin 8) (s : State) : Outcome :=
  act s (State.faIssue core.val (.mvf .l g k))
/-- MVFB. -/
def execMvfb (core : Fin 24) (g : Fin 16) (k : Fin 8) (s : State) : Outcome :=
  act s (State.faIssue core.val (.mvf .b g k))
/-- MVTS. -/
def execMvts (core : Fin 24) (g : Fin 16) (k : Fin 10) (s : State) : Outcome :=
  act s (State.faIssue core.val (.mvts g k))
/-- MVFS. -/
def execMvfs (core : Fin 24) (g : Fin 16) (k : Fin 10) (s : State) : Outcome :=
  act s (State.faIssue core.val (.mvfs g k))
/-- LIP. -/
def execLip (core : Fin 24) (k : Fin 8) (imm : BitVec 21) (s : State) : Outcome :=
  act s (State.faIssue core.val (.li .p k imm))
/-- LIM. -/
def execLim (core : Fin 24) (k : Fin 8) (imm : BitVec 21) (s : State) : Outcome :=
  act s (State.faIssue core.val (.li .m k imm))
/-- LIL. -/
def execLil (core : Fin 24) (k : Fin 8) (imm : BitVec 21) (s : State) : Outcome :=
  act s (State.faIssue core.val (.li .l k imm))
/-- LIB. -/
def execLib (core : Fin 24) (k : Fin 8) (imm : BitVec 21) (s : State) : Outcome :=
  act s (State.faIssue core.val (.li .b k imm))

end Sys2Proof.Machine
end

