-- ==== Sys2Proof/Machine/Registry.lean ====
section
/-! DEFINITION. The endpoint registry (chapter 08): entries and their fields, damage and suspension, the mirror of
word 0, and the window scheduler's preparation of frets. -/

namespace Sys2Proof.Machine

/-! ## Entries (R242 to R247) -/

/-- Word 0 of an entry as a 256-bit number, as it stands. -/
def State.word0 (s : State) (i : Nat) : Nat := ofLe (s.rawBytes .registry (64 * i) 32)

/-- Word 1 of an entry. -/
def State.word1 (s : State) (i : Nat) : Nat := ofLe (s.rawBytes .registry (64 * i + 32) 32)

/-- The fields of word 0 (R246). -/
def entryId (e : Nat) : Nat := bits e 0 40
def entryState (e : Nat) : Nat := bits e 40 4
def entryCarrier (e : Nat) : Nat := bits e 44 2
def entryHome (e : Nat) : Nat := bits e 46 2
def entryBeam (e : Nat) : Nat := bits e 48 8
def entryClass (e : Nat) : Nat := bits e 56 4
def entryTiming (e : Nat) : Nat := bits e 60 16
def entryCfo (e : Nat) : Nat := bits e 76 16
def entryNextBar (e : Nat) : Nat := bits e 92 32
def entryNextFret (e : Nat) : Nat := bits e 124 6
def entryPeriod (e : Nat) : Nat := bits e 130 24
def entryWindow (e : Nat) : Nat := bits e 154 6
def entryPrbStart (e : Nat) : Nat := bits e 160 9
def entryPrbCount (e : Nat) : Nat := bits e 169 5
def entryHint (e : Nat) : Nat := bits e 174 6
def entrySigAge (e : Nat) : Nat := bits e 180 16
def entryQuality (e : Nat) : Nat := bits e 196 8
def entryFlags (e : Nat) : Nat := bits e 204 8
def entryNoSig (e : Nat) : Bool := testBit e 204
def entryPinGrid (e : Nat) : Bool := testBit e 205

/-- The values of the STATE field. -/
def regFree : Nat := 0
def regParked : Nat := 1
def regScheduled : Nat := 2
def regOpen : Nat := 3

/-- A number with bits `lo + w - 1` to `lo` replaced. -/
def withBits (n lo w v : Nat) : Nat := n - bits n lo w * 2 ^ lo + v % 2 ^ w * 2 ^ lo

/-- Word 0 of an entry decodes as damaged (R269). -/
def State.word0Bad (s : State) (i : Nat) : Bool :=
  match s.wordMark .registry (2 * i) with
  | .clean => false
  | .correctable _ _ => false
  | _ => true

/-- Word 1 of an entry decodes as damaged (R272). -/
def State.word1Bad (s : State) (i : Nat) : Bool :=
  match s.wordMark .registry (2 * i + 1) with
  | .clean => false
  | .correctable _ _ => false
  | _ => true

/-- Write word 0 whole. -/
def State.putWord0 (s : State) (i e : Nat) : State := s.writeWhole .registry (2 * i) (leBytes 32 e)

/-- Write word 1 whole. -/
def State.putWord1 (s : State) (i e : Nat) : State := s.writeWhole .registry (2 * i + 1) (leBytes 32 e)

/-- Change word 0 of an entry that is not damaged. -/
def State.editWord0 (s : State) (i : Nat) (f : Nat → Nat) : State :=
  if s.word0Bad i then s
  else
    let e := s.word0 i
    if f e = e then s else s.putWord0 i (f e)

/-- The entries below a limit that hold anything but zeros, in ascending order. -/
def State.entriesBelow (s : State) (limit : Nat) : List Nat :=
  let l := s.registryMem.bytes.foldl (fun (a : List Nat) c =>
    match a with
    | [] => [c.1 / 64]
    | x :: _ => if x = c.1 / 64 then a else c.1 / 64 :: a) []
  l.reverse.filter fun i => decide (i < limit)

/-- The entries as far as ENTRY_LIMIT (R244). -/
def State.entries (s : State) : List Nat := s.entriesBelow (s.getF Reg.partitionEntryLimit)

/-- The chip holds an entry: its word 0 is not damaged and not FREE. -/
def State.holdsEntry (s : State) (i : Nat) : Bool := !s.word0Bad i && entryState (s.word0 i) != regFree

/-- The usable entries that are held. -/
def State.liveEntries (s : State) : List Nat := s.entries.filter s.holdsEntry

/-- Every entry that is held, those at or above ENTRY_LIMIT included (R244). -/
def State.heldEntries (s : State) : List Nat := (s.entriesBelow 262144).filter s.holdsEntry

/-! ## Damage (R269 to R272) -/

/-- Chip and twin form a pair that mirrors: LEAD or FOLLOW with the Bridge trained. -/
def State.askRepair (s : State) (i : Nat) : State :=
  if s.inPair then (s.bridgeSend 0x30 (beBytes 4 i)).addSat (Reg.bridgeCount 4) 1 else s

/-- Word 0 of an entry is found damaged (R269, R271). -/
def State.suspend (s : State) (i : Nat) : State :=
  if s.sched.suspended.contains i then s
  else if 256 ≤ s.sched.suspended.length then s.raise 53
  else
    let l := s.sched.suspended ++ [i]
    let first := ((s.sched.prep.getLast?).getD s.sched.cur).fret + 1
    let s := { s with sched := { s.sched with suspended := l, lapsed := s.sched.lapsed ++ [(i, first)] } }
    (((s.setF Reg.suspendCount l.length).setF Reg.suspendLast i).raise 53).askRepair i

/-- An entry is rewritten: it leaves the suspension list. -/
def State.resume (s : State) (i : Nat) : State :=
  let l := s.sched.suspended.filter fun x => x != i
  ({ s with sched := { s.sched with suspended := l, lapsed := s.sched.lapsed.filter fun x => x.1 != i } }).setF
    Reg.suspendCount l.length

/-- Read word 0 through the registry port: damage suspends the entry. -/
def State.readWord0 (s : State) (r : Requester) (i : Nat) : State × Bool :=
  if s.sched.suspended.contains i then (s, false)
  else
    let x := s.readWord .registry (2 * i) r false
    if x.2.good then (x.1, true) else (x.1.suspend i, false)

/-! ## Bars and frets by number (R245) -/

/-- The absolute number of a fret that a bar number and a fret index name. -/
def State.fretAt (s : State) (bar fret : Nat) : Int := ((barOfNs s.nowNs : Int) + barDiff bar s.bar) * 40 + fret

/-- The present fret. -/
def State.fretNow (s : State) : Int := (s.absFret : Nat)

/-- The fret of an entry's NEXT. -/
def State.nextOf (s : State) (e : Nat) : Int := s.fretAt (entryNextBar e) (entryNextFret e)

/-- An entry with its NEXT at a fret. -/
def withNext (e : Nat) (f : Int) : Nat :=
  withBits (withBits e 92 32 (ofSigned 32 (f / 40))) 124 6 (f % 40).toNat

/-- An entry is written FREE or PARKED: its one-off windows that are open close at the next fret boundary, and a FREE
entry has none to come (R278). -/
def State.closeOneOffs (s : State) (i : Nat) (free : Bool) : State :=
  let open_ := s.sched.cur.wins.filter fun w => w.index == i && w.oneOff
  { s with sched := { s.sched with
    cancels := s.sched.cancels ++ open_.map fun w => (i, w.start, s.fretNow + 1)
    oneOffs := if free then s.sched.oneOffs.filter fun o => o.index != i else s.sched.oneOffs } }

/-- Free an entry: fresh zero codewords in both words (R278). -/
def State.freeEntry (s : State) (i : Nat) : State :=
  ((s.zeroWords .registry (2 * i) 2).resume i).closeOneOffs i true

/-- An entry's period, at least one fret. -/
def periodOf (e : Nat) : Int := max (entryPeriod e) 1

/-- The first fret of the latest occurrence that starts at or before a fret, if NEXT has come by then. -/
def State.occStart (s : State) (e : Nat) (f : Int) : Option Int :=
  let n := s.nextOf e
  if f < n then none else some (n + (f - n) / periodOf e * periodOf e)

/-! ## Undo (R261) -/

/-- The preparation of an entry is discarded. -/
def State.undoEntry (s : State) (i : Nat) : State :=
  { s with sched := { s.sched with stale := if s.sched.stale.contains i then s.sched.stale else s.sched.stale ++ [i] } }

/-- The preparation of every fret from one on is discarded. -/
def State.undoFrom (s : State) (f : Int) : State :=
  { s with sched := { s.sched with staleFrom := match s.sched.staleFrom with
    | some g => some (min f g)
    | none => some f } }

/-! ## Layers and rows (R249, R255, R258) -/

/-- The directions of a class: uplink, downlink (R251). -/
def State.classDirs (v : State) (k : Nat) : Bool × Bool :=
  match v.getF (Reg.classADir k) with
  | 0 => (true, false)
  | 1 => (false, true)
  | _ => (true, true)

/-- The layers of a direction that the scheduler may assign on a carrier (R232, R255). -/
def State.schedLayers (v : State) (d c : Nat) : List Nat :=
  (List.range 48).filter fun l =>
    v.flag (Reg.layerConfigEnable d l) && !v.flag (Reg.layerConfigSource d l) && v.getF (Reg.layerConfigCarrier d l) == c

/-- Two windows share a group. -/
def Win.overlaps (x : Win) (g0 g1 : Nat) : Bool := decide (x.g0 ≤ g1) && decide (g0 ≤ x.g1)

/-- The layer of a window in a direction. -/
def Win.layer (x : Win) (d : Nat) : Option Nat := if d = 0 then x.ul else x.dl

/-- A layer for a window in a direction: LAYER_HINT first, then the lowest (R255). `busy` are the windows open in the
frets of the occurrence. -/
def State.pickLayer (v : State) (d e : Nat) (busy : List Win) (g0 g1 : Nat) : Option Nat :=
  let free (l : Nat) : Bool := !(busy.any fun x => x.layer d == some l && x.overlaps g0 g1)
  let l := (v.schedLayers d (entryCarrier e)).filter free
  if l.contains (entryHint e) then some (entryHint e) else l.head?

/-- The downlink of an entry is silent on this chip: standby (R258), or joint under R238. -/
def State.silentHere (s : State) (e : Nat) : Bool :=
  let r := s.getF Reg.bridgeRole
  let joint : Bool := entryHome e == 2
  if s.flag Reg.bridgeStatusArbitrating || r == roleSolo then false
  else if r == roleIsolated then joint
  else if joint then r == roleFollow && !s.flag Reg.seamOk
  else entryHome e != (if s.side = 2 then 1 else 0)

/-- The age of an entry's signature (R249). -/
def State.sigAge (s : State) (e : Nat) : Nat := (s.bar / 16 % 65536 + 65536 - entrySigAge e) % 65536

/-- An entry's rows in a direction come from the grid beam (R227, R249). -/
def State.usesGrid (s v : State) (i d : Nat) : Bool :=
  let e := s.word0 i
  let k := entryClass e
  let mx := min (v.getF (Reg.classBMaxSigAge k)) 32767
  let mq := v.getF (Reg.classBMinQuality k)
  let age := s.sigAge e
  entryNoSig e || entryPinGrid e || v.flag (Reg.classAPinGrid k) || (d == 1 && v.flag Reg.spectralCtrlDuplex) ||
    s.word1Bad i || (mx != 0 && (decide (mx < age) || decide (32768 ≤ age))) ||
    (entryQuality e != 0 && mq != 0 && decide (entryQuality e < mq))

/-- The weights of an entry's row in a direction (R226, R237). -/
def State.sigRow (s : State) (i d : Nat) : List Weight :=
  let w1 := s.word1 i
  let joint : Bool := d == 1 && entryHome (s.word0 i) == 2
  (List.range 64).map fun p =>
    if s.path p != pathActive then ⟨0, 0⟩
    else
      let t : Int := (bits w1 (4 * p) 4 * 2 ^ 60 : Nat)
      let w := turnWeight (if d = 0 then t else -t) (s.calWeight d p)
      if joint then rotateWeight (s.getF Reg.seamPhase * 2 ^ 48 : Nat) w else w

/-- The grid line of a beam in a direction. -/
def gridLine (d b : Nat) : Nat := 4096 + 256 * d + b

/-- The scheduler rows in use: those of the present and the prepared windows, and those that stencils reference (R232,
R259). -/
def State.usedRows (s : State) : List Nat :=
  let wins := s.sched.cur.wins ++ s.sched.prep.flatMap PrepFret.wins
  let named := wins.flatMap fun w => w.ulRow.toList ++ w.dlRow.toList
  let lines := (List.range 96).flatMap s.layerLines
  (named ++ lines.filter fun x => decide (512 ≤ x) && decide (x < 4096)).eraseDups

/-- The lines that symbols in progress, or just ended, take their weights from (R18). -/
def State.latchedLines (s : State) : List Nat :=
  (s.spectral.latched.flatMap Prod.snd).flatMap fun y => y.layers.flatMap fun x =>
    let held := match x.fade with
      | some f => f.src.getD [] ++ f.tgt
      | none => []
    ((x.entries ++ held).filter entryValid).map entryLine

/-- The lowest free scheduler row (R274): none that a symbol in progress uses. -/
def State.freeRow (s : State) (more : List Nat) : Option Nat :=
  let used := s.usedRows ++ more ++ s.latchedLines
  ((List.range 3584).map (· + 512)).find? fun x => !used.contains x

/-! ## One fret's windows (R255 to R257, R260) -/

/-- The state as it will be read for a fret: from the TARGET_BAR of an accepted live re-lath on, under the new lath
(R19). -/
def State.viewFor (s : State) (f : Int) : State :=
  match s.lath.pending with
  | some l => if s.fretAt l.targetBar 0 ≤ f then s.lathRegisters l.recs else s
  | none => s

/-- The bar of a service start that is pending: of a command of this chip, passed by the twin, or the device's own
(R88, R89, R471). -/
def State.startBar (s : State) : Option Nat :=
  match s.job with
  | some (.serviceStart bar _) => some bar
  | _ =>
    match s.bridge.passedStart with
    | some bar => some bar
    | none => s.bridge.autoStart.map fun x => x.1

/-- Windows may open in a fret: in SERVICE and DOZE up to a stop, and from a pending START_BAR on (R90, R253). -/
def State.serves (s : State) (f : Int) : Bool :=
  if s.job = some .serviceStop then s.inService && decide (f ≤ s.fretNow)
  else s.inService || match s.startBar with
    | some bar => decide (s.fretAt bar 0 ≤ f)
    | none => false

/-- An occurrence is cancelled in a fret (R277). -/
def State.cancelled (s : State) (i : Nat) (start f : Int) : Bool :=
  s.sched.cancels.any fun c => c.1 == i && c.2.1 == start && decide (c.2.2 ≤ f)

/-- The entry still has the window: it is not FREE, and not PARKED unless the window is one-off (R278). -/
def State.keepsWindow (s : State) (w : Win) : Bool :=
  s.word0Bad w.index || s.sched.suspended.contains w.index ||
    (let st := entryState (s.word0 w.index); st != regFree && (w.oneOff || st != regParked))

/-- A list has dealt with an entry's occurrence. -/
def PrepFret.tried (p : PrepFret) (i : Nat) (start : Int) : Bool :=
  p.missed.contains i || p.wins.any (fun w => w.index == i && w.start == start && !w.oneOff) ||
    p.deferred.any fun o => o.index == i && o.start == start && !o.oneOff

/-- The occurrence of an entry to be tried in a fret: one that starts there, or one in progress that the lists before
could not take (R257, R260). A closed list takes no occurrence it did not have. -/
def State.occurrence (s : State) (prev old : PrepFret) (i : Nat) : Option Occ :=
  let e := s.word0 i
  let f := old.fret
  let st := entryState e
  if st != regScheduled && st != regOpen then none
  else match s.occStart e f with
    | none => none
    | some a =>
      let last := a + entryWindow e - 1
      if last < f then none
      else if old.closed && !old.tried i a then none
      else if a = f || (prev.closed && !prev.tried i a) then some ⟨i, a, last, false⟩
      else none

/-- Put an occurrence in its place by class priority and entry index (R255). -/
def insertOcc (prio : Occ → Nat) (o : Occ) : List Occ → List Occ
  | [] => [o]
  | x :: t => if prio o < prio x ∨ (prio o = prio x ∧ o.index < x.index) then o :: x :: t else x :: insertOcc prio o t

/-- Put a window in its place in the window-list order. -/
def insertWin (w : Win) : List Win → List Win
  | [] => [w]
  | x :: t => if w.prio < x.prio ∨ (w.prio = x.prio ∧ w.index < x.index) then w :: x :: t else x :: insertWin w t

/-- Try to open an occurrence in a fret's list (R255, R256); one whose entry is found damaged is missed (R257). -/
def State.tryOpen (v : State) (later : List Win) (x : State × PrepFret) (o : Occ) : State × PrepFret :=
  let p := x.2
  if x.1.cancelled o.index o.start p.fret then (x.1, { p with missed := p.missed ++ [o.index] })
  else
    let r := x.1.readWord0 .scheduler o.index
    let s := r.1
    if !r.2 then
      let lapsed := s.sched.lapsed.map fun x => if x.1 == o.index then (x.1, p.fret + 1) else x
      ({ s with sched := { s.sched with lapsed := lapsed } }, { p with missed := p.missed ++ [o.index] })
    else
      let e := s.word0 o.index
      let g0 := entryPrbStart e / 4
      let g1 := (entryPrbStart e + entryPrbCount e - 1) / 4
      let busy := p.wins ++ later.filter fun w => decide (w.opens ≤ o.last)
      let dirs := v.classDirs (entryClass e)
      let s := (s.when dirs.1 fun s => (s.ask 0 0 1).1).when dirs.2 fun s => (s.ask 1 0 1).1
      let ul := if dirs.1 then v.pickLayer 0 e busy g0 g1 else none
      let dl := if dirs.2 then v.pickLayer 1 e busy g0 g1 else none
      let opened := (p.wins.filter fun w => w.opens == p.fret).length
      if 64 ≤ opened ∨ 1024 ≤ p.wins.length ∨ (dirs.1 ∧ ul = none) ∨ (dirs.2 ∧ dl = none) then
        let p := { p with crowded := p.crowded ++ [o.index] }
        if o.last ≤ p.fret then (s, { p with missed := p.missed ++ [o.index] })
        else (s, { p with deferred := p.deferred ++ [o] })
      else
        let w : Win := ⟨o.index, v.getF (Reg.classAPriority (entryClass e)), o.start, p.fret, o.last, g0, g1, ul, dl,
          none, none, s.usesGrid v o.index 0, s.usesGrid v o.index 1, dl.isSome && s.silentHere e, o.oneOff, entryPrbStart e,
          entryPrbCount e⟩
        (s, { p with wins := insertWin w p.wins, unbuilt := p.unbuilt ++ [o.index] })

/-- A window kept from the list before, under the entry as it stands now, whose PRBs it takes where they lie in its
groups; its rows are to be built. -/
def State.renew (s v : State) (w : Win) : Win :=
  let e := s.word0 w.index
  let w := if entryPrbStart e / 4 = w.g0 ∧ (entryPrbStart e + entryPrbCount e - 1) / 4 = w.g1 then
      { w with prbStart := entryPrbStart e, prbCount := entryPrbCount e }
    else w
  { w with
    ulRow := none, dlRow := none
    ulGrid := s.usesGrid v w.index 0, dlGrid := s.usesGrid v w.index 1
    silent := w.dl.isSome && s.silentHere e }

/-- Make the window list of a fret again for the entries that `redo` names, from the list before it; other entries keep
theirs (R255 to R257, R261); nothing opens for an entry at or above ENTRY_LIMIT (R244). `later` are the windows that later prepared frets hold and keep. -/
def State.makeList (s : State) (prev old : PrepFret) (redo : Nat → Bool) (later : List Win) : State × PrepFret :=
  let f := old.fret
  let v := s.viewFor f
  let stays (w : Win) : Bool := !redo w.index && (w.opens == f || prev.wins.any fun x => x.index == w.index && x.start == w.start)
  let kept := old.wins.filter stays
  let carried := (prev.wins.filter fun w => redo w.index && decide (f ≤ w.last) && s.keepsWindow w &&
    !s.cancelled w.index w.start f).map (s.renew v)
  let limit := v.getF Reg.partitionEntryLimit
  let again := prev.deferred.filter fun o => redo o.index && decide (f ≤ o.last)
  let base : PrepFret := { old with
    wins := carried.foldl (fun l w => insertWin w l) kept
    deferred := old.deferred.filter fun o => !redo o.index
    crowded := old.crowded.filter fun i => !redo i
    missed := (old.missed.filter fun i => !redo i || s.sched.suspended.contains i) ++
      (again.filter fun o => decide (limit ≤ o.index)).map Occ.index
    unbuilt := old.unbuilt.filter (fun i => !redo i) ++ carried.map Win.index }
  if !s.serves f then (s, { base with wins := [], deferred := [], unbuilt := [] })
  else
    let own := ((s.entriesBelow limit).filter fun i => redo i && !s.sched.suspended.contains i).filterMap (s.occurrence prev old)
    let ones := s.sched.oneOffs.filter fun o => redo o.index && decide (o.start = f) && decide (o.index < limit)
    let prio (o : Occ) : Nat := v.getF (Reg.classAPriority (entryClass (s.word0 o.index)))
    let first := (own ++ ones).foldl (fun l o => insertOcc prio o l) []
    (first ++ again.filter fun o => decide (o.index < limit)).foldl (v.tryOpen later) (s, base)

/-! ## Rows and staging maps (R259) -/

/-- Build the row of a window in a direction: none where it is served from the grid, silent or without a layer. The
answer says whether it is served as it should be. -/
def State.buildRow (s : State) (w : Win) (d : Nat) (taken : List Nat) : State × Option Nat × Bool :=
  let grid := if d = 0 then w.ulGrid else w.dlGrid
  if (w.layer d).isNone || (d == 1 && w.silent) || grid then (s, none, true)
  else
    let r := s.readWord .registry (2 * w.index + 1) .scheduler false
    if !r.2.good then (r.1, none, true)
    else
      let b := r.1.askAll d [(0, 1), (3, 8)]
      match b.1.freeRow taken with
      | none => (b.1, none, false)
      | some line => if b.2 then (b.1.writeLine line (b.1.sigRow w.index d), some line, true) else (b.1, none, false)

/-- Build the rows of a fret's windows that are not built; a window that lacks a row in one direction is served on grid
rows in every direction (R263). -/
def State.buildRows (s : State) (p : PrepFret) : State × PrepFret :=
  let go (x : State × List Win × List Nat × List Nat) (w : Win) : State × List Win × List Nat × List Nat :=
    if !p.unbuilt.contains w.index then (x.1, x.2.1 ++ [w], x.2.2.1, x.2.2.2)
    else
      let a := x.1.buildRow w 0 x.2.2.2
      let b := a.1.buildRow w 1 (x.2.2.2 ++ a.2.1.toList)
      if a.2.2 && b.2.2 then
        (b.1, x.2.1 ++ [{ w with ulRow := a.2.1, dlRow := b.2.1 }], x.2.2.1, x.2.2.2 ++ a.2.1.toList ++ b.2.1.toList)
      else (b.1, x.2.1 ++ [{ w with ulRow := none, dlRow := none }], x.2.2.1 ++ [w.index], x.2.2.2)
  let r := p.wins.foldl go (s, [], [], [])
  (r.1, { p with wins := r.2.1, unbuilt := r.2.2.1 })

/-- The map entry of a window's groups in a direction (R224, R258, R259). -/
def State.winEntry (s : State) (w : Win) (d : Nat) : Nat :=
  let line := match (if d = 0 then w.ulRow else w.dlRow) with
    | some x => x
    | none => gridLine d (entryBeam (s.word0 w.index))
  if d = 1 ∧ w.silent then w.index % 65536 * 65536
  else line + 16384 + w.index % 65536 * 65536

/-- The 68 entries of a layer's map under a window list. -/
def State.listMap (s : State) (wins : List Win) (d l : Nat) : List Nat :=
  let mine := wins.filter fun w => w.layer d == some l
  (List.range 68).map fun g =>
    match mine.find? fun w => decide (w.g0 ≤ g) && decide (g ≤ w.g1) with
    | some w => s.winEntry w d
    | none => 0

/-- The layer slots that the scheduler directs in a fret (R232). -/
def State.directedSlots (s : State) (f : Int) : List Nat :=
  let v := s.viewFor f
  (List.range 96).filter fun x =>
    v.flag (Reg.layerConfigEnable (x / 48) (x % 48)) && !v.flag (Reg.layerConfigSource (x / 48) (x % 48))

/-- The bytes of a layer slot's staging map under a fret's list (R222, R259). -/
def State.stagedBytes (s : State) (p : PrepFret) (x : Nat) : List Byte :=
  fit 288 ((s.listMap p.wins (x / 48) (x % 48)).flatMap (leBytes 4))

/-- Write the staging map of a layer slot, nine words charged to its direction's reservation (R10, R259), unless it
stands there as it should; one that its class is not granted is written at a later pass (R408). -/
def State.stageMap (x : State × PrepFret) (slot : Nat) : State × PrepFret :=
  let s := x.1
  let p := x.2
  let a := mapByte (stagingMap slot (p.fret % 8).toNat)
  let d := s.stagedBytes p slot
  if p.maps.contains slot && s.rawBytes .stencil a 288 == d then x
  else
    let r := s.ask (slot / 48) 3 9
    if r.2 then (r.1.writeBytes .stencil .spectral a d, { p with maps := insertOnce slot p.maps })
    else (r.1, { p with maps := p.maps.filter fun y => y != slot })

/-- Write the staging maps of a fret's list for the layers that the scheduler directs. -/
def State.stageMaps (s : State) (p : PrepFret) : State × PrepFret :=
  let l := if s.absent .spectral then [] else s.directedSlots p.fret
  l.foldl State.stageMap (s, { p with maps := p.maps.filter l.contains })

/-- A layer that the scheduler directs in a fret has no staging map for it. -/
def State.mapsMissing (s : State) (p : PrepFret) : Bool := !s.absent .spectral && (s.directedSlots p.fret).any fun x => !p.maps.contains x

/-! ## Run-ahead (R259 to R263) -/

/-- What a window map tells of a window beside its rows, offsets and grid flags (R339). -/
def Win.mapKey (f : Int) (w : Win) : List Nat :=
  [w.index, w.ul.getD 63, w.dl.getD 63, w.prbStart, w.prbCount, bit (w.start == f), bit (w.last == f), bit w.oneOff, bit w.silent]

/-- Make the lists of the prepared frets again, in ascending order, for the entries that an undo cause names. -/
def State.remake (s : State) (redo : Int → Nat → Bool) : PrepFret → List PrepFret → List PrepFret → State × List PrepFret
  | _, done, [] => (s, done)
  | prev, done, p :: t =>
    let later := t.flatMap fun q => q.wins.filter fun w => !redo q.fret w.index && w.opens == q.fret
    let r := s.makeList prev p (redo p.fret) later
    let key (q : PrepFret) := q.wins.map (Win.mapKey p.fret)
    let q := { r.2 with changed := p.changed || (p.revision.isSome && key p != key r.2) }
    let m := r.1.stageMaps q
    m.1.remake redo m.2 (done ++ [m.2]) t

/-- Carry out what undo causes have asked for: assignments at once, rows later (R261, R262). -/
def State.applyUndo (s : State) : State :=
  if s.sched.stale.isEmpty && s.sched.staleFrom.isNone then s
  else
    let stale := s.sched.stale
    let from_ := s.sched.staleFrom
    let redo (f : Int) (i : Nat) : Bool :=
      stale.contains i || (match from_ with | some g => decide (g ≤ f) | none => false)
    let prep := s.sched.prep
    let r := s.remake redo s.sched.cur [] prep
    { r.1 with sched := { r.1.sched with prep := r.2, stale := [], staleFrom := none } }

/-- Show the scheduler's place in REGISTRY.STATUS. -/
def State.showSched (s : State) : State :=
  let ahead := (s.sched.prep.takeWhile fun p => p.unbuilt.isEmpty).length
  ((s.setF Reg.registryStatusPrepAhead ahead).setF Reg.registryStatusOpenNow s.sched.cur.wins.length).setF
    Reg.registryStatusRowsFree (3584 - min 3584 s.usedRows.length)

/-- The first fret of the earliest occurrence of a SCHEDULED entry within 256 bars (R273). -/
def State.nextWindow (s : State) : Option Int :=
  let now := s.fretNow
  let l := s.liveEntries.filterMap fun i =>
    let e := s.word0 i
    if entryState e = regScheduled ∨ entryState e = regOpen then
      let n := s.nextOf e
      let m := if now < n then n else n + ((now - n) / periodOf e + 1) * periodOf e
      if m ≤ now + 10240 then some m else none
    else none
  l.foldl (fun a m => match a with | none => some m | some x => some (min x m)) none

/-- The first fret of the next window, one-off windows included: a need of the Doze controller (R91, R95). NONE counts as
the first fret 256 bars ahead (R273). -/
def State.windowNeed (s : State) : Int :=
  let ones := (s.sched.oneOffs.filter fun o => decide (s.fretNow < o.start)).map Occ.start
  ones.foldl min (s.nextWindow.getD (s.fretNow + 10240))

/-- Keep REGISTRY.NEXT_WINDOW (R273); a window that comes nearer in DOZE moves the wake (R94, R95). -/
def State.showNext (s : State) : State :=
  let s := s.needAt (s.windowNeed * 250000).toNat
  match s.nextWindow with
  | none => s.setF Reg.nextWindowFretNone 1
  | some f =>
    ((s.setF Reg.nextWindowBarBar (ofSigned 32 (f / 40))).setF Reg.nextWindowFretFret (f % 40).toNat).setF
      Reg.nextWindowFretNone 0

/-- The scheduler runs: LATHED, SERVICE and DOZE, in the REGISTRY domain (R21, R253). -/
def State.schedRuns (s : State) : Bool := s.inLathedUp && s.domain .registry == .on

/-- The present fret's list, empty when the scheduler has not followed the frets. -/
def State.alignSched (s : State) : State :=
  if s.sched.cur.fret = s.fretNow then s
  else { s with sched := { s.sched with
    cur := { PrepFret.empty s.fretNow with closed := true }, prep := s.sched.prep.filter fun p => decide (s.fretNow < p.fret) } }

/-- Prepare the next fret that is not prepared: its list, and its rows if `rows` (R259). -/
def State.prepareNext (s : State) (rows : Bool) : State :=
  let prev := (s.sched.prep.getLast?).getD s.sched.cur
  let f := prev.fret + 1
  let r := s.makeList prev (PrepFret.empty f) (fun _ => true) []
  let b := if rows then r.1.buildRows r.2 else r
  let m := b.1.stageMaps b.2
  { m.1 with sched := { m.1.sched with prep := m.1.sched.prep ++ [m.2] } }

/-- FRET_PREPARATION: the next fret, up to 8 ahead (R259). -/
def State.fretPreparation (s : State) : State :=
  if !s.schedRuns then s
  else
    let s := s.alignSched.applyUndo
    if 8 ≤ s.sched.prep.length then s else (s.prepareNext true).showSched

/-- Rebuild the rows that are not built, in ascending frets (R262). -/
def State.rebuildRows (s : State) : List PrepFret → List PrepFret → State
  | done, [] => { s with sched := { s.sched with prep := done } }
  | done, p :: t =>
    if p.unbuilt.isEmpty && !s.mapsMissing p then s.rebuildRows (done ++ [p]) t
    else
      let b := s.buildRows p
      let m := ({ b.1 with sched := { b.1.sched with prep := done ++ [b.2] ++ t } } : State).stageMaps b.2
      m.1.rebuildRows (done ++ [m.2]) t

/-- RUNAHEAD_REBUILD: after an undo cause (R261, R262). -/
def State.runaheadRebuild (s : State) : State :=
  if !s.schedRuns then s
  else
    let s := s.alignSched.applyUndo
    (s.rebuildRows [] s.sched.prep).showSched

/-- The window list of the next fret closes (R260). -/
def State.closeList (s : State) : State :=
  let s := s.alignSched.applyUndo
  let s := if s.sched.prep.isEmpty then s.prepareNext false else s
  { s with sched := { s.sched with prep := match s.sched.prep with
    | [] => []
    | p :: t => { p with closed := true } :: t } }

/-! ## The fret boundary (R250, R253, R254, R256, R257) -/

/-- An occurrence is missed: COUNT_2 and MISSED (R257). -/
def State.miss (s : State) (i n : Nat) : State :=
  if n = 0 then s else (s.addSat (Reg.registryCount 2) n).editWord0 i fun e => withBits e 206 1 1

/-- The occurrences of an entry that passed while it was suspended are missed (R257): those of its period up to the present
fret that begin before NEXT, from the fret on that `lapsed` names. -/
def State.missLapsed (s : State) (i : Nat) (first : Int) : State :=
  let e := s.word0 i
  let n := s.nextOf e
  let per := periodOf e
  let upTo : Int := min (n - 1) s.fretNow
  let k : Int := if n ≤ first then 0 else (n - first) / per
  let ahead : Int := if upTo < n - per then (n - per - upTo + per - 1) / per else 0
  s.miss i (k - ahead).toNat

/-- A window opens: COUNT_0, OPEN, MISSED clear, and, at an occurrence of a SCHEDULED entry, NO_SIG for a signature
whose age has come to half its range (R250, R254, R257). -/
def State.opens (s : State) (w : Win) : State :=
  (s.addWrap (Reg.registryCount 0) 1).editWord0 w.index fun e =>
    let e := withBits e 206 1 0
    let e' := if entryState e = regScheduled then withBits e 40 4 regOpen else e
    if 32768 ≤ s.sigAge e ∧ !w.oneOff then withBits e' 204 1 1 else e'

/-- A window is over: its entry reads SCHEDULED again unless another of its windows is open (R254). -/
def State.closes (s : State) (now : List Win) (w : Win) : State :=
  if now.any fun x => x.index == w.index then s
  else s.editWord0 w.index fun e => if entryState e = regOpen then withBits e 40 4 regScheduled else e

/-- Advance an entry's NEXT past the fret that begins, counting what has passed unopened (R253, R257). -/
def State.advance (s : State) (p : PrepFret) (serving : Bool) (i : Nat) : State :=
  let e := s.word0 i
  let f := p.fret
  let n := s.nextOf e
  let w : Int := entryWindow e
  let per := periodOf e
  if f < n then s
  else if !serving then
    let k := (f - n) / per + 1
    (s.miss i k.toNat).editWord0 i fun e => withNext e (n + k * per)
  else
    let m : Int := if n + w ≤ f then (f - n - w) / per + 1 else 0
    let s := s.miss i m.toNat
    let n' := n + m * per
    if f < n' then s.editWord0 i fun e => withNext e n'
    else if p.tried i n' then s.editWord0 i fun e => withNext e (n' + per)
    else if n' = f ∧ w ≤ 1 then (s.miss i 1).editWord0 i fun e => withNext e (n' + per)
    else s.editWord0 i fun e => withNext e n'

/-- The scheduler in a fret boundary's Tc: the list of the fret that begins comes into force. -/
def State.schedFret (s : State) : State :=
  let old := s.sched.cur
  let f := s.fretNow
  if !s.schedRuns then
    let s := s.each old.wins fun s w => s.closes [] w
    { s with sched := { s.sched with cur := { PrepFret.empty f with closed := true }, prep := [], oneOffs := [], cancels := [] } }
  else
    let serving := s.inService
    let s := s.applyUndo
    let rest := s.sched.prep.filter fun p => decide (f ≤ p.fret)
    let s := { s with sched := { s.sched with
      cur := if old.fret + 1 = f then old else { old with wins := old.wins.filter fun w => decide (f ≤ w.last), fret := f - 1 }
      prep := rest } }
    let s := match rest with
      | [] => s.prepareNext false
      | p :: _ => if p.fret = f then s
        else ({ s with sched := { s.sched with prep := [] } }).prepareNext false
    let p := (s.sched.prep.head?).getD (PrepFret.empty f)
    let p := { p with closed := true, wins := if serving then p.wins else [] }
    let r := if s.mapsMissing p then s.stageMaps p else (s, p)
    let s := r.1
    let p := r.2
    let s := { s with sched := { s.sched with
      cur := p
      prep := s.sched.prep.drop 1
      oneOffs := s.sched.oneOffs.filter fun o => decide (f < o.start)
      cancels := s.sched.cancels.filter fun c => decide (f < c.2.1 + 40)
      refreshed := false } }
    let n := if serving then p.unbuilt.length else 0
    let s := s.when (0 < n) fun s => (s.addSat (Reg.registryCount 3) n).raise 52
    let same (x w : Win) : Bool := x.index == w.index && x.start == w.start && x.oneOff == w.oneOff
    let s := s.each (old.wins.filter fun w => !(p.wins.any (same w))) fun s w => s.closes p.wins w
    let s := s.each (p.wins.filter fun w => !(old.wins.any (same w))) State.opens
    let s := s.when (serving && !p.crowded.isEmpty) fun s =>
      (s.addSat (Reg.registryCount 1) p.crowded.length).raise 48
    let s := s.when serving fun s => s.each p.missed fun s i => s.miss i 1
    let live := s.liveEntries.filter fun i =>
      let st := entryState (s.word0 i)
      st == regScheduled || st == regOpen
    (s.each live fun s i => s.advance p serving i).showNext.showSched

end Sys2Proof.Machine
end

