-- ==== Sys2Proof/Machine/RegCmd.lean ====
section
/-! DEFINITION. The registry commands (R275 to R279), their way through the lead (R363 to R365), signature refresh,
detection and repair (chapters 08 and 12). -/

namespace Sys2Proof.Machine

/-! ## Mirrors (R362 to R364) -/

/-- Put a frame with a given SEQ on the Bridge. -/
def State.bridgePut (s : State) (kind seq : Nat) (payload : List Byte) : State :=
  { s with out := { s.out with bridge := s.out.bridge ++ [⟨kind, seq, s.getF Reg.linkEpoch, payload⟩] } }

/-- Send, or send again, a MIRROR that stands in the list, if MIRROR has grains (R362). -/
def State.sendMirror (s : State) (m : MirrorRec) : State :=
  if !s.inPair then s
  else
    let a := s.askAll 9 [(0, 1), (4, 2)]
    if !a.2 then a.1
    else
      let s := a.1.bridgePut 0x10 m.seq (beBytes 4 m.index ++ m.image)
      let s := { s with bridge := { s.bridge with mirrorOut := s.bridge.mirrorOut.map fun (x : MirrorRec) =>
        if x.seq = m.seq then { x with sentTick := some s.drone.ticks } else x } }
      if m.sentTick.isSome then s.addSat (Reg.bridgeCount 3) 1 else s.addWrap (Reg.bridgeCount 1) 1

/-- Send the MIRRORs that have waited for grains. -/
def State.pumpMirrors (s : State) : State :=
  s.each (s.bridge.mirrorOut.filter fun m => m.sentTick.isNone) State.sendMirror

/-- Mirror an entry's word 0 as it now stands: the SEQ it is given (R363). -/
def State.mirror (s : State) (i : Nat) : State × Nat :=
  let r := s.readBytes .registry .bridge (64 * i) 32
  let s := r.1
  let q := mapGet 0 0x10 s.bridge.seqTx
  let m : MirrorRec := ⟨q, i, r.2.1, none⟩
  let s := { s with bridge := { s.bridge with
    seqTx := mapSet 0 0x10 ((q + 1) % 65536) s.bridge.seqTx
    mirrorOut := s.bridge.mirrorOut ++ [m] } }
  (s.sendMirror m, q)

/-- Mirror the entries of a list, in order: the SEQs. -/
def State.mirrorAll (s : State) (l : List Nat) : State × List Nat :=
  l.foldl (fun x i => let r := x.1.mirror i; (r.1, x.2 ++ [r.2])) (s, [])

/-! ## The divergence log (R370, R372) -/

/-- Write a record of the divergence log, while one is kept. -/
def State.diverge (s : State) (kind port opcode code i mask : Nat) (word : List Byte) : State :=
  if !s.bridge.diverging then s
  else
    let n := s.getF Reg.divergenceCount
    if 1024 ≤ n then s.addSat Reg.divergenceDropped 1
    else
      let rec_ := fit 64 (leBytes 4 s.bridge.divNext ++ leBytes 1 kind ++ leBytes 1 port ++ leBytes 1 opcode ++
        leBytes 1 code ++ leBytes 4 i ++ leBytes 4 s.bar ++ leBytes 4 s.short ++ leBytes 5 (entryId (ofLe word)) ++
        leBytes 1 mask ++ leBytes 6 0 ++ fit 32 word)
      let s := s.writeBytes .spine .spine (divergenceAddr + 64 * n) rec_
      ({ s with bridge := { s.bridge with divNext := s.bridge.divNext + 1 } }).setF Reg.divergenceCount (n + 1)

/-! ## Answers -/

/-- The final code with a number. -/
def cmdCodeOf : Nat → CmdCode
  | 0 => .done
  | 1 => .busy
  | 2 => .stateReject
  | 3 => .roleReject
  | 4 => .argReject
  | 5 => .budgetDefer
  | _ => .failed

/-- The PORT number of a registry command's origin (R370). -/
def RegOrigin.port : RegOrigin → Nat
  | .host p => portCode p
  | .fronthaul _ _ => 2
  | .forward _ => 3

/-- The body of a REG_RESP (R342). -/
def respBody (tag opcode code r0 r1 state : Nat) : List Byte :=
  beBytes 2 tag ++ beBytes 1 opcode ++ beBytes 1 code ++ beBytes 4 r0 ++ beBytes 4 r1 ++ beBytes 4 state

/-- A registry command ends: the host's command completes, the fronthaul's gets its REG_RESP (a refusal
counts, one for an isolated chip among them: R279, R340, R341), a forwarded one its FORWARD_RESP (R275, R342, R365). -/
def State.regEnd (s : State) (m : RegMsg) (code r0 r1 : Nat) : State :=
  match m.origin with
  | .host _ => (s.results (if m.opcode = 0x89 then [r0, r1] else [r0])).complete (cmdCodeOf code)
  | .fronthaul tag state =>
    let refused : Bool := (decide (1 ≤ code) && decide (code ≤ 5)) || (code == 6 && r0 == 18)
    let s := if refused then s.addSat (Reg.linkCount 11) 1 else s
    { s with fh := { s.fh with ready := s.fh.ready ++ [⟨tag, m.opcode, respBody tag m.opcode code r0 r1 state⟩] } }
  | .forward seq => s.bridgeSend 0x21 (beBytes 4 seq ++ beBytes 4 code ++ beBytes 4 r0 ++ beBytes 4 r1)

/-! ## Execution (R244, R252, R260, R269, R276 to R278) -/

/-- The words that a registry command's message names (MASK): both for REG_FREE. -/
def RegMsg.mask (m : RegMsg) : Nat :=
  if m.opcode = 0x88 then m.args.getD 1 0 else if m.opcode = 0x89 then m.args.getD 2 0
  else if m.opcode = 0x8A then 3 else 0

/-- The entries that it names: the first and how many. -/
def RegMsg.count (m : RegMsg) : Nat := if m.opcode = 0x89 then m.args.getD 1 0 else 1

/-- The entry image for its k-th entry. -/
def RegMsg.image (m : RegMsg) (k : Nat) : List Byte := slice (64 * k) 64 m.images

/-- Arguments in their ranges, whatever carries them (R275). -/
def regArgsOk (op : Nat) (a : List Nat) : Bool :=
  let x (i : Nat) := a.getD i 0
  if op = 0x88 then decide (1 ≤ x 1) && decide (x 1 ≤ 3)
  else if op = 0x89 then decide (1 ≤ x 1) && decide (x 1 ≤ 4096) && decide (1 ≤ x 2) && decide (x 2 ≤ 3)
  else if op = 0x8B then decide (x 1 < 256)
  else if op = 0x8C then
    let w := x 2
    decide (w < 2 ^ 17) && bits w 6 2 == 0 && bits w 14 2 == 0 && decide (bits w 0 6 < 40) &&
      decide (1 ≤ bits w 8 6) && decide (bits w 8 6 ≤ 40)
  else op == 0x8A

/-- Word 0 may leave an entry SCHEDULED or PARKED (R246, R252). -/
def State.entryFits (s : State) (e : Nat) : Bool :=
  decide (entryWindow e ≤ entryPeriod e) && decide (1 ≤ entryPrbCount e) && entryHome e != 3 &&
    decide (entryPrbStart e + entryPrbCount e ≤ s.getF (Reg.carConfigPrbCount 0 (entryCarrier e))) &&
    decide (1 ≤ entryWindow e) && decide (entryWindow e ≤ 40) && decide (entryNextFret e < 40) &&
    (decide (entryHint e < 48) || entryHint e == 63)

/-- Another entry that is not FREE has the ENDPOINT_ID. -/
def State.duplicate (s : State) (i ident : Nat) : Bool :=
  s.heldEntries.any fun j => j != i && entryId (s.word0 j) == ident

/-- Write one entry of a REG_WRITE or REG_BULK: none if it was written, else the status and the REASON (R276). -/
def State.regWriteOne (s : State) (op i mask : Nat) (img : List Byte) : State × Option (Nat × Nat) :=
  if s.getF Reg.partitionEntryLimit ≤ i then (s, some (4, 0))
  else
    let whole : Bool := op == 0x88 && testBit mask 0
    let r := if whole then (s, true) else s.readWord0 .spine i
    let s := r.1
    if !r.2 then (s, some (6, 20))
    else
      let old := s.word0 i
      let free : Bool := !s.word0Bad i && entryState old == regFree
      let e := ofLe (img.take 32)
      let st := entryState e
      if !testBit mask 0 && free then (s, some (4, 0))
      else if testBit mask 0 && (decide (3 ≤ st) || bits e 212 44 != 0) then (s, some (4, 0))
      else if testBit mask 0 && st != regFree && !s.entryFits e then (s, some (4, 0))
      else if testBit mask 0 && s.duplicate i (entryId e) then (s, some (4, 19))
      else
        let e := if entryState old = regOpen ∧ st = regScheduled ∧ !s.word0Bad i then withBits e 40 4 regOpen else e
        let s := if testBit mask 0 then (s.putWord0 i e).resume i else s
        let s := if testBit mask 1 then s.putWord1 i (ofLe (img.drop 32)) else s
        let s := s.when (testBit mask 0 && decide (st ≤ regParked)) fun s => s.closeOneOffs i (st == regFree)
        (s.undoEntry i, none)

/-- The run of a REG_WRITE or REG_BULK from its k-th entry on: status, REASON and entries written. -/
def State.regWrites (s : State) (m : RegMsg) (mask first : Nat) : Nat → Nat → State × Nat × Nat × Nat
  | 0, k => (s, 0, 0, k)
  | n + 1, k =>
    let r := s.regWriteOne m.opcode (first + k) mask (m.image k)
    match r.2 with
    | some x => (r.1, x.1, x.2, k)
    | none => r.1.regWrites m mask first n (k + 1)

/-- Open a one-off window, or cancel an occurrence (R262, R277). -/
def State.regWindow (s : State) (i bar w : Nat) : State × Nat × Nat :=
  if s.getF Reg.partitionEntryLimit ≤ i then (s, 4, 0)
  else
    let r := s.readWord0 .spine i
    let s := r.1
    if !r.2 then (s, 6, 20)
    else
      let e := s.word0 i
      let f := s.fretAt bar (bits w 0 6)
      let from_ := if f * 250000 - s.nowNs < 4000 then f + 1 else f
      if entryState e = regFree ∨ f ≤ s.fretNow then (s, 4, 0)
      else if testBit w 16 then
        let one : Bool := s.sched.oneOffs.any fun o => o.index == i && o.start == f
        let own : Bool := (entryState e == regScheduled || entryState e == regOpen) && s.occStart e f == some f
        if !one && !own then (s, 4, 0)
        else
          let s := { s with sched := { s.sched with
            cancels := s.sched.cancels ++ [(i, f, from_)]
            oneOffs := if from_ = f then s.sched.oneOffs.filter fun o => !(o.index == i && o.start == f)
              else s.sched.oneOffs } }
          (s.undoEntry i, 0, 0)
      else
        let last := f + bits w 8 6 - 1
        let s := if last < from_ then s
          else { s with sched := { s.sched with oneOffs := s.sched.oneOffs ++ [⟨i, from_, last, true⟩] } }
        (s.undoEntry i, 0, 0)

/-- REG_FIND: the lowest entry with an ENDPOINT_ID; damaged words before it are found by the reads (R269). -/
def State.regFind (s : State) (ident : Nat) : State × Nat :=
  let hit := s.liveEntries.find? fun i => entryId (s.word0 i) == ident
  let n := hit.getD 0xFFFFFFFF
  ((s.entries.filter fun i => s.word0Bad i && decide (i < n)).foldl (fun s i => (s.readWord0 .spine i).1) s, n)

/-- The registry-port cycles of a command: one for each word it names. -/
def State.regCycles (s : State) (m : RegMsg) : Nat :=
  let w := bit (testBit m.mask 0) + bit (testBit m.mask 1)
  if m.opcode = 0x8B then max 1 s.liveEntries.length else if m.opcode = 0x8C then 1 else m.count * w

/-- Run a registry command at the registry port: status, results 0 and 1, and the entries whose word 0 it changed. -/
def State.regRun (s : State) (m : RegMsg) (mask : Nat) : State × Nat × Nat × Nat × List Nat :=
  let a (i : Nat) := m.args.getD i 0
  if m.opcode = 0x8B then let r := s.regFind (a 0 + a 1 % 256 * 2 ^ 32); (r.1, 0, r.2, 0, [])
  else if m.opcode = 0x8C then let r := s.regWindow (a 0) (a 1) (a 2); (r.1, r.2.1, r.2.2, 0, [])
  else if m.opcode = 0x8A then
    if s.getF Reg.partitionEntryLimit ≤ a 0 then (s, 4, 0, 0, [])
    else ((s.freeEntry (a 0)).undoEntry (a 0), 0, 0, 0, [a 0])
  else
    let r := s.regWrites m mask (a 0) m.count 0
    (r.1, r.2.1, r.2.2.1, if m.opcode = 0x89 then r.2.2.2 else 0,
      if testBit mask 0 then (List.range r.2.2.2).map (· + a 0) else [])

/-- Log a registry command once for each entry that it names (R370). -/
def State.divergeMsg (s : State) (kind code : Nat) (m : RegMsg) : State :=
  s.each (List.range m.count) fun s k =>
    let word := if m.opcode = 0x88 ∨ m.opcode = 0x89 then (m.image k).take 32 else fit 32 []
    s.diverge kind m.origin.port m.opcode code (m.args.getD 0 0 + k) m.mask word

/-- Pass a command on to the lead (R365). -/
def State.forwardMsg (s : State) (m : RegMsg) : State :=
  let q := mapGet 0 0x20 s.bridge.seqTx
  let s := s.bridgeSend 0x20 (beBytes 4 m.opcode ++ (List.range 4).flatMap (fun i => beBytes 4 (m.args.getD i 0)) ++
    beBytes 4 0 ++ m.images)
  ({ s with bridge := { s.bridge with forwarded := s.bridge.forwarded ++ [Forwarded.mk q m none] } }).addWrap (Reg.bridgeCount 7) 1

/-- A command came over the Bridge by FORWARD (R365). -/
def RegMsg.forwarded (m : RegMsg) : Bool := match m.origin with | .forward _ => true | _ => false

/-- A registry command that has its grains runs, and what it changed is mirrored or logged (R279, R364, R370). -/
def State.regGo (s : State) (m : RegMsg) : State :=
    let role := s.getF Reg.bridgeRole
    let fwd := m.forwarded
    let mask := if fwd then m.mask % 2 else m.mask
    let r := s.regRun m mask
    let s := r.1.showNext
    let changed := r.2.2.2.2
    if role = roleLead ∧ s.bridge.paired then
      let x := s.mirrorAll changed
      if x.2.isEmpty || fwd then x.1.regEnd m r.2.1 r.2.2.1 r.2.2.2.1
      else { x.1 with bridge := { x.1.bridge with
        waits := x.1.bridge.waits ++ [⟨m, x.2, r.2.1, r.2.2.1, r.2.2.2.1⟩] } }
    else
      let s := s.each (if role = roleSolo then changed else []) fun s i =>
        s.diverge 2 m.origin.port m.opcode r.2.1 i m.mask (s.rawBytes .registry (64 * i) 32)
      s.regEnd m r.2.1 r.2.2.1 r.2.2.2.1

/-- Ask for the registry-port and fabric cycles of a registry command (R404, R408). -/
def State.regAsk (s : State) (m : RegMsg) : State × Bool := s.askAll 12 [(0, s.regCycles m), (4, m.images.length / 32)]

/-- Where a registry command is not run here: refused while ISOLATED, or passed on to the lead (R365, R370). A follow that
has lost its lead and is not decided yet fails it as BRIDGE_LOST (log 183). -/
def State.regElsewhere (s : State) (m : RegMsg) : Option State :=
  if s.getF Reg.bridgeRole = roleIsolated ∧ m.opcode ≠ 0x8B then some ((s.divergeMsg 1 6 m).regEnd m 6 18 0)
  else if s.getF Reg.bridgeRole = roleFollow ∧ testBit m.mask 0 ∧ !m.forwarded then
    some (if s.bridge.paired then s.forwardMsg m else s.regEnd m 6 21 0)
  else none

/-- Decode a registry command at the registry port: it waits behind those that wait (R279, R341, R408). -/
def State.regDecode (s : State) (m : RegMsg) : State :=
  match s.regElsewhere m with
  | some t => t
  | none =>
    let a := if s.sched.waiting.isEmpty then s.regAsk m else (s, false)
    if a.2 then a.1.regGo m else { a.1 with sched := { a.1.sched with waiting := a.1.sched.waiting ++ [m] } }

/-- The images that a registry command carries (R340). -/
def regImages (op : Nat) (a : List Nat) : Nat :=
  if op = 0x88 then 1 else if op = 0x89 then a.getD 1 0 else 0

/-- The argument check of a REG_CMD (R275, R340). -/
def regCmdArgsOk (m : RegMsg) : Bool :=
  decide (0x88 ≤ m.opcode) && decide (m.opcode ≤ 0x8C) && regArgsOk m.opcode m.args &&
    (m.opcode != 0x89 || decide (m.args.getD 1 0 ≤ 16)) &&
    (if m.opcode = 0x88 then m.args.getD 2 0 == 0 else if m.opcode = 0x89 then m.args.getD 3 0 == 0 else true)

/-- A registry command came in a REG_CMD, whose role BB_CONTROL gives (R340). -/
def RegMsg.onLink (m : RegMsg) : Bool := match m.origin with | .fronthaul _ _ => true | _ => false

/-- Steps 2 to 6 of R77 for a registry command of the fronthaul or the twin; `ok` is its argument check. -/
def State.regChecked (s : State) (m : RegMsg) (ok : Bool) : State :=
  if m.opcode < 0x88 ∨ 0x8C < m.opcode then s.regEnd m 4 0 0
  else if !(if m.opcode = 0x8C then s.inService else s.inLathedUp) then s.regEnd m 2 s.dev.code 0
  else if m.onLink && !s.flag Reg.linkCtrlBbControl then s.regEnd m 3 0 0
  else if !ok then s.regEnd m 4 0 0
  else if s.deferred 12 then s.regEnd m 5 0 0
  else s.regDecode m

/-- A REG_CMD with SPINE.STATE at its decode, which its answer carries (R342). -/
def RegMsg.decodedIn (m : RegMsg) (state : Nat) : RegMsg :=
  match m.origin with
  | .fronthaul tag _ => { m with origin := .fronthaul tag state }
  | _ => m

/-- The CMD_TAG of a REG_CMD. -/
def RegMsg.tag (m : RegMsg) : Nat := match m.origin with | .fronthaul tag _ => tag | _ => 0

/-- A queued REG_CMD is decoded: answered from the kept responses, refused by steps 3 to 6 of R77, or decoded as a host's
command is (R341, R342). -/
def State.regCmdDecode (s : State) (m : RegMsg) : State :=
  let m := m.decodedIn s.dev.code
  match s.fh.kept.find? fun r => r.tag == m.tag && r.opcode == m.opcode with
  | some r => { s with fh := { s.fh with ready := s.fh.ready ++ [r] } }
  | none => s.regChecked m (regCmdArgsOk m)

/-- The registry commands that have waited for grains run, and then the REG_CMDs queued behind them are decoded, in
order (R341). -/
def State.regPump (s : State) : Nat → State
  | 0 => s
  | n + 1 =>
    match s.sched.waiting with
    | m :: t =>
      match s.regElsewhere m with
      | some s => ({ s with sched := { s.sched with waiting := t } } : State).regPump n
      | none =>
        let a := s.regAsk m
        if !a.2 then a.1 else (({ a.1 with sched := { a.1.sched with waiting := t } } : State).regGo m).regPump n
    | [] =>
      match s.fh.queue with
      | m :: t => (({ s with fh := { s.fh with queue := t } }).regCmdDecode m).regPump n
      | [] => s

/-! ## The host's registry commands (R275) -/

/-- The arguments of a host registry command. -/
def State.regArgs (s : State) : List Nat := (List.range 4).map s.argW

/-- Run a host registry command: its images come from capture memory. -/
def State.regHost (op n off : Nat) (p : Port) (s : State) : State :=
  let r := s.readCapture off (64 * n)
  if !r.2.2 then r.1.completeFail reasonMemPoison
  else ({ r.1 with job := some .registry }).regDecode ⟨.host p, op, s.regArgs, r.2.1⟩

/-- A registry command's row in R275. -/
def regSpec (op : Nat) (states : DevState → Bool) (n off : State → Nat) : CmdSpec where
  opcode := op
  states := states
  role := roleO
  argOk s := regArgsOk op s.regArgs && (n s == 0 || offsetOk (off s) (64 * n s))
  classes := [12]
  usesPath := false
  run p s := s.regHost op (n s) (off s) p

/-- REG_WRITE (0x88). -/
def regWriteSpec : CmdSpec := regSpec 0x88 lathedUp (fun _ => 1) (fun s => s.argW 2)
/-- REG_BULK (0x89). -/
def regBulkSpec : CmdSpec := regSpec 0x89 lathedUp (fun s => s.argW 1) (fun s => s.argW 3)
/-- REG_FREE (0x8A). -/
def regFreeSpec : CmdSpec := regSpec 0x8A lathedUp (fun _ => 0) (fun _ => 0)
/-- REG_FIND (0x8B). -/
def regFindSpec : CmdSpec := regSpec 0x8B lathedUp (fun _ => 0) (fun _ => 0)
/-- REG_WINDOW (0x8C). -/
def regWindowSpec : CmdSpec := regSpec 0x8C (fun d => d == .service || d == .doze) (fun _ => 0) (fun _ => 0)

/-! ## Mirrored words (R247, R270) -/

/-- Word 0 as a mirrored image leaves it beside this chip's own fields (R247, R254): a FREE, absent or damaged local
entry takes NO_SIG = 1, SIG_AGE = 0 and QUALITY = 0. OPEN, SCHEDULED and MISSED are each chip's own (R362). -/
def State.mergeWord0 (s : State) (i : Nat) (img : List Byte) : Nat :=
  let new := ofLe img
  let old := s.word0 i
  if s.word0Bad i ∨ entryState old = regFree then
    let e := withBits (withBits (withBits new 180 16 0) 196 8 0) 204 1 1
    if entryState e = regOpen then withBits e 40 4 regScheduled else e
  else
    let e := withBits (withBits (withBits new 180 16 (entrySigAge old)) 196 8 (entryQuality old)) 204 1 (bits old 204 1)
    let e := withBits e 206 1 (bits old 206 1)
    let live (x : Nat) : Bool := entryState x == regScheduled || entryState x == regOpen
    if live e then withBits e 40 4 (if live old then entryState old else regScheduled) else e

/-- Apply a mirrored word 0 (R363, R366): one whose STATE is FREE frees the entry. -/
def State.applyMirror (s : State) (i : Nat) (img : List Byte) : State :=
  if entryState (ofLe img) = regFree then (s.freeEntry i).undoEntry i
  else
    let parked : Bool := entryState (ofLe img) == regParked && entryState (s.word0 i) != regParked
    let s := s.when parked fun s => s.closeOneOffs i false
    ((s.putWord0 i (s.mergeWord0 i img)).resume i).undoEntry i

/-- REPAIR_RESP: the twin's word 0 repairs a suspended entry (R270); "none" leaves it suspended (R271). -/
def State.repairResp (i : Nat) (word : Option (List Byte)) (s : State) : State :=
  match word with
  | none => s
  | some img =>
    if !s.reached .registry || !s.reached .bridge || !s.inPair || !s.sched.suspended.contains i || entryState (ofLe img) == regFree then s
    else
      let e := withBits (s.mergeWord0 i (fit 32 img)) 207 1 1
      let s' := (((s.putWord0 i e).resume i).undoEntry i).addSat (Reg.registryCount 8) 1
      ((s.sched.lapsed.find? fun (x : Nat × Int) => x.1 == i).elim s' fun x => s'.missLapsed i x.2).showNext

/-! ## Signature refresh and detection (R264 to R268, R343, R344) -/

/-- The subcarriers of a path in a pilot copy that stands in data memory: signed 8.8 (log 182). -/
def State.pilotSamples (s : State) (x : PilotCopy) (p : Nat) : List Sample :=
  (List.range (12 * x.prbs)).map fun i =>
    let a := 8 + 48 * x.prbs * p + 4 * i
    let b := s.rawBytes .faData (32 * (dataWord x.core + (x.word + a / 32) % 4096) + a % 32) 4
    (toSigned 16 (ofLe b), toSigned 16 (ofLe b / 65536))

/-- The sum of x_p conj(s) over the pilot symbols of a fret in which a path is not marked; `seq` gives the endpoint's
pilot sequence by symbol (R265). -/
def State.pilotSum (s : State) (copies : List PilotCopy) (seq : List (Nat × List Sample)) (p : Nat) : Sample :=
  (copies.filter fun x => !testBit x.marked p).foldl (fun y x =>
    ((s.pilotSamples x p).zip (mapGet [] x.sym seq)).foldl (fun y v =>
      (y.1 + v.1.1 * v.2.1 + v.1.2 * v.2.2, y.2 + v.1.2 * v.2.1 - v.1.1 * v.2.2)) y) (0, 0)

/-- round(arg(z) / 22.5°) mod 16: the sixteenth of a turn whose direction lies nearest to z (R265). -/
def phaseCode (z : Sample) : Nat :=
  let along (k : Nat) : Int := z.1 * cosTurn (k * 2 ^ 60 : Nat) + z.2 * sinTurn (k * 2 ^ 60 : Nat)
  (List.range 16).foldl (fun b k => if along b < along k then k else b) 0

/-- What the refresh firmware derives from the pilots of an entry in one fret (R265). The paths that contribute are those
of `paths` that were not marked in every pilot symbol; which of them the firmware takes, and the endpoint's sequence, the
spec does not give. -/
def State.refreshOf (s : State) (index : Nat) (ident : BitVec 40) (paths : BitVec 64) (seq : List (Nat × List Sample))
    (timing cfo : BitVec 16) (quality : BitVec 8) (fret : Nat) : Refresh :=
  let copies := s.spectral.copied.filter fun x => x.index == index && x.ident == ident.toNat && x.fret == fret
  let used := (maskList 64 paths.toNat).filter fun p => copies.any fun x => !testBit x.marked p
  { index, ident, timing, cfo, quality, fret
    paths := BitVec.ofNat 64 (listMask used)
    phases := BitVec.ofNat 256 (used.foldl (fun n p => n + phaseCode (s.pilotSum copies seq p) * 2 ^ (4 * p)) 0) }

/-- The common phase of a refresh: that of the lowest-indexed path that contributed (R265). -/
def Refresh.common (r : Refresh) : Nat :=
  match (maskList 64 r.paths.toNat).head? with
  | some p => bits r.phases.toNat (4 * p) 4
  | none => 0

/-- Word 1 of a refresh: the phases of the paths that contributed, less the common phase; a path marked in every pilot
symbol takes the phase that the grid beam gives it (R265). -/
def State.refreshWord1 (s : State) (r : Refresh) : Nat :=
  let beam := entryBeam (s.word0 r.index)
  (List.range 64).foldl (fun n p =>
    let v := if testBit r.paths.toNat p then (bits r.phases.toNat (4 * p) 4 + 16 - r.common) % 16
      else (roundDiv (s.beamTurn 0 beam p) (2 ^ 60) % 16).toNat
    n + v * 2 ^ (4 * p)) 0

/-- A refresh is not applied, or comes too late: COUNT_5. -/
def State.dropRefresh (s : State) : State := s.addSat (Reg.registryCount 5) 1

/-- The record of an applied refresh, as SIG_REPORT carries it (R344). -/
def State.sigRecord (s : State) (r : Refresh) : List Byte :=
  let e := s.word0 r.index
  beBytes 4 r.index ++ beBytes 5 (entryId e) ++ beBytes 1 (entryQuality e) ++ beBytes 2 (entrySigAge e) ++
    beBytes 2 (entryTiming e) ++ beBytes 2 (entryCfo e) ++ beBytes 4 (r.fret / 40 % 2 ^ 32) ++ beBytes 1 (r.fret % 40) ++
    beBytes 3 0 ++ s.rawBytes .registry (64 * r.index + 32) 32

/-- Queue a report record, 64 deep (R343). -/
def pushReport (q : List (List Byte)) (r : List Byte) : Option (List (List Byte)) :=
  if q.length < 64 then some (q ++ [r]) else none

/-- A refresh lands: it is applied, or counted as not applied (R266). -/
def State.landRefresh (r : Refresh) (s : State) : State :=
  let active := (maskList 64 r.paths.toNat).filter fun p => s.path p == pathActive
  let x := s.readWord0 .core r.index
  let s := x.1
  let e := s.word0 r.index
  if !x.2 || decide (active.length < 8) || entryState e == regFree || entryId e != r.ident.toNat ||
    decide (r.fret + 2 < s.absFret) then s.dropRefresh
  else
    let role := s.getF Reg.bridgeRole
    let s := s.putWord1 r.index (s.refreshWord1 r)
    let e' := withBits (withBits (withBits e 180 16 (s.bar / 16)) 196 8 r.quality.toNat) 204 1 0
    let e' := if role = roleFollow then e' else withBits (withBits e' 60 16 r.timing.toNat) 76 16 r.cfo.toNat
    let moved : Bool := role != roleFollow && (entryTiming e' != entryTiming e || entryCfo e' != entryCfo e)
    let s := ((s.putWord0 r.index e').undoEntry r.index).addSat (Reg.registryCount 4) 1
    let s := if s.sched.refreshed then s
      else ({ s with sched := { s.sched with refreshed := true } }).raise 51
    let s := if moved && role == roleLead && s.bridge.paired then (s.mirror r.index).1 else s
    let s := if moved && role == roleIsolated then s.diverge 3 4 0 0 r.index 1 (leBytes 32 e') else s
    if !s.flag Reg.linkCtrlSigReportEn then s
    else match pushReport s.fh.sigs (s.sigRecord r) with
      | some q => { s with fh := { s.fh with sigs := q } }
      | none => s.addSat (Reg.linkCount 12) 1

/-- The refreshes that wait land in their order, as far as SIGREF has grains (R408). -/
def State.refreshPump (s : State) : State :=
  let l := s.sched.refreshes
  let s := { s with sched := { s.sched with refreshes := [] } }
  l.foldl (fun s r =>
    let wait (s : State) : State := { s with sched := { s.sched with refreshes := s.sched.refreshes ++ [r] } }
    if !s.sched.refreshes.isEmpty then wait s
    else
      let a := s.ask 2 0 2
      if a.2 then a.1.landRefresh r else wait a.1) s

/-- SIGNATURE_REFRESH (R266): a refresh that SIGREF's grains do not cover waits. -/
def State.signatureRefresh (s : State) (r : Refresh) : State :=
  if !s.inLathedUp || !s.reached .registry then s
  else ({ s with sched := { s.sched with refreshes := s.sched.refreshes ++ [r] } } : State).refreshPump

/-- The detection record in the ring (R268), least significant byte first (R4). -/
def Detection.ringRecord (d : Detection) : List Byte :=
  fit 32 (leBytes 4 d.short.toNat ++ leBytes 4 d.bar.toNat ++ [d.beam, d.slot, d.sym, d.preamble] ++
    leBytes 2 d.timing.toNat ++ leBytes 2 d.cfo.toNat ++ [d.metric] ++ leBytes 1 d.carrier)

/-- The detection record of a DETECT_REPORT (R325, R343). -/
def Detection.report (d : Detection) : List Byte :=
  fit 20 (beBytes 4 d.short.toNat ++ beBytes 4 d.bar.toNat ++ [d.beam, d.slot, d.sym, d.preamble] ++
    beBytes 2 d.timing.toNat ++ beBytes 2 d.cfo.toNat ++ [d.metric] ++ beBytes 1 d.carrier)

/-- A detection is reported (R267, R268, R343). -/
def State.landDetection (d : Detection) (s : State) : State :=
  let s := (s.raise 50).addSat (Reg.registryCount 6) 1
  let len := s.getF Reg.detLenWords
  let w := s.getF Reg.detWptrWords
  let s := if len = 0 then s
    else if (w + 1) % len = s.getF Reg.detRptrWords then s.addSat (Reg.registryCount 7) 1
    else (s.writeWhole .capture ((s.getF Reg.detBaseWords + w) % 131072) d.ringRecord).setF Reg.detWptrWords
      ((w + 1) % len)
  if !s.flag Reg.linkCtrlDetectReportEn then s
  else match pushReport s.fh.detects d.report with
    | some q => { s with fh := { s.fh with detects := q } }
    | none => s.addSat (Reg.linkCount 12) 1

/-- The detections that wait are reported in their order, as far as GRIDSCAN has grains (R408). -/
def State.detectPump (s : State) : State :=
  let l := s.sched.detections
  let s := { s with sched := { s.sched with detections := [] } }
  l.foldl (fun s d =>
    let wait (s : State) : State := { s with sched := { s.sched with detections := s.sched.detections ++ [d] } }
    if !s.sched.detections.isEmpty then wait s
    else
      let a := s.ask 3 4 1
      if a.2 then a.1.landDetection d else wait a.1) s

/-- GRID_DETECTION (R267): wherever the scan runs, also in LATHED (R236); a detection that GRIDSCAN's grains do not cover
waits. -/
def State.gridDetection (d : Detection) (s : State) : State :=
  if !s.inLathedUp || !s.flag Reg.registryCtrlDetectEn ||
      decide (d.metric.toNat < s.getF Reg.registryCtrlDetThreshold) then s
  else ({ s with sched := { s.sched with detections := s.sched.detections ++ [d] } } : State).detectPump

/-- REG_WRITE. -/
def execRegWrite (p : Port) (s : State) : Outcome := act (s.framed p) (regWriteSpec.issue p)
/-- REG_BULK. -/
def execRegBulk (p : Port) (s : State) : Outcome := act (s.framed p) (regBulkSpec.issue p)
/-- REG_FREE. -/
def execRegFree (p : Port) (s : State) : Outcome := act (s.framed p) (regFreeSpec.issue p)
/-- REG_FIND. -/
def execRegFind (p : Port) (s : State) : Outcome := act (s.framed p) (regFindSpec.issue p)
/-- REG_WINDOW. -/
def execRegWindow (p : Port) (s : State) : Outcome := act (s.framed p) (regWindowSpec.issue p)
/-- FRET_PREPARATION. -/
def execFretPreparation (s : State) : Outcome := act s State.fretPreparation
/-- RUNAHEAD_REBUILD. -/
def execRunaheadRebuild (s : State) : Outcome := act s State.runaheadRebuild
/-- SIGNATURE_REFRESH. -/
def execSignatureRefresh (index : Fin 262144) (ident : BitVec 40) (paths : BitVec 64)
    (sequence : List (Fin 14 × List (Int × Int))) (timing cfo : BitVec 16) (quality : BitVec 8) (fret : Nat) (s : State) :
    Outcome :=
  act s fun s => s.signatureRefresh (s.refreshOf index.val ident paths (sequence.map fun x => (x.1.val, x.2)) timing cfo
    quality fret)
/-- GRID_DETECTION. -/
def execGridDetection (short bar : Word) (beam slot sym preamble : BitVec 8) (timing cfo : BitVec 16) (metric : BitVec 8)
    (carrier : Fin 4) (s : State) : Outcome :=
  act s (State.gridDetection ⟨short, bar, beam, slot, sym, preamble, timing, cfo, metric, carrier⟩)
/-- REPAIR_RESP. -/
def execRepairResp (index : Fin 262144) (word : Option (BitVec 256)) (s : State) : Outcome :=
  act s (State.repairResp index.val (word.map fun w => leBytes 32 w.toNat))

end Sys2Proof.Machine
end

