-- ==== Sys2Proof/Machine/Link.lean ====
section
/-! DEFINITION. Frames that leave on the fronthaul (R322 to R326, R336, R337). -/

namespace Sys2Proof.Machine

/-- The link is up and a baseband is found (R331, R337). -/
def State.bbReady (s : State) : Bool := s.flag Reg.linkStatusUp && s.flag Reg.linkStatusBbFound

/-- The found baseband's MAC address. -/
def State.bbMac (s : State) : Nat := s.getF Reg.bbMacLo + s.getF Reg.bbMacHi * 2 ^ 32

/-- The SIDE bit of PC_ID and RTC_ID (R327). -/
def State.sideBit (s : State) : Nat := if s.side = 2 then 1 else 0

/-- The 802.1Q tag that every frame sent carries while VLAN_EN is 1 (R322). -/
def State.vlanTag (s : State) : Option (Nat × Nat) :=
  if s.flag Reg.linkCtrlVlanEn then some (s.getF Reg.linkVlanVid, s.getF Reg.linkVlanPcp) else none

/-- The Ethernet header of a frame that the device sends: LINK.MAC is its source (R322, R323). -/
def macHeader (dst : Nat) (tag : Option (Nat × Nat)) (etherType : Nat) : List Byte :=
  beBytes 6 dst ++ beBytes 6 Config.linkMac.toNat ++
    (match tag with
      | some t => beBytes 2 0x8100 ++ beBytes 2 (t.2 * 8192 + t.1)
      | none => []) ++ beBytes 2 etherType

/-- Pad a frame to the least length that a MAC sends, its FCS not counted (R321). -/
def padFrame (f : List Byte) : List Byte := f ++ List.replicate (60 - f.length) 0

/-- The common header: revision 1, C = 0, the type and the payload size (R324). -/
def commonHeader (typ size : Nat) : List Byte := beBytes 1 0x10 ++ beBytes 1 typ ++ beBytes 2 size

/-- A message of eCPRI type 0 or 2 to `dst`, and its frame without the FCS: PC_ID or RTC_ID, and SEQ_ID with E = 1 and
subsequence 0 (R322 to R326). -/
def State.idMsg (s : State) (dst prio typ id seq : Nat) (body : List Byte) : LinkMsg :=
  ⟨dst, s.vlanTag, prio, typ, id, seq, body, padFrame (macHeader dst s.vlanTag 0xAEFE ++
    commonHeader typ (4 + body.length) ++ beBytes 2 id ++ beBytes 1 seq ++ beBytes 1 0x80 ++ body)⟩

/-- A message of eCPRI type 5 to `dst`, and its frame (R351). -/
def State.delayMsg (s : State) (dst : Nat) (body : List Byte) : LinkMsg :=
  ⟨dst, s.vlanTag, 1, 5, 0, 0, body, padFrame (macHeader dst s.vlanTag 0xAEFE ++ commonHeader 5 body.length ++ body)⟩

/-- A PTP frame, whole as it leaves (R398): type 7 in this model. -/
def State.ptpMsg (s : State) (dst : Nat) (f : List Byte) : LinkMsg := ⟨dst, s.vlanTag, 1, 7, 0, 0, f, f⟩

/-- Put a message on the link. -/
def State.sendMsg (s : State) (m : LinkMsg) : State := { s with out := { s.out with link := s.out.link ++ [m] } }

/-- Send a message of eCPRI type 0 or 2: its ID's next sequence ID goes into it (R326). -/
def State.sendLink (s : State) (dst prio typ id : Nat) (body : List Byte) : State :=
  let k := 65536 * typ + id
  let q := mapGet 0 k s.fh.seqTx
  ({ s with fh := { s.fh with seqTx := mapSet 0 k ((q + 1) % 256) s.fh.seqTx } }).sendMsg (s.idMsg dst prio typ id q body)

/-- Send a control message to the baseband, or count it as not sent (R337); without LINK neither is done (R21). -/
def State.sendCtl (s : State) (prio kind : Nat) (body : List Byte) : State :=
  if s.absent .link then s
  else if s.bbReady then s.sendLink s.bbMac prio 2 (32768 * s.sideBit + kind) body
  else s.addSat (Reg.linkCount 12) 1

/-- The mask of the paths in a state. -/
def State.pathMask (s : State) (st : Nat) : Nat := listMask ((List.range 64).filter fun p => s.path p == st)

/-- The frame bound of LINK.MAX_FRAME: values outside 1,518 to 9,216 clamp. -/
def State.maxFrame (s : State) : Nat := max 1518 (min 9216 (s.getF Reg.linkMaxFrameBytes))

/-- The bytes of a frame that are not its body after SEQ_ID: addresses, EtherType, tag, common header, ID word, FCS. -/
def State.frameOverhead (s : State) : Nat := if s.flag Reg.linkCtrlVlanEn then 30 else 26

/-! ## Received frames (R321, R322, R324, R326) -/

/-- A received frame is of the VLAN that the device takes: tagged with LINK.VLAN.VID while VLAN_EN is 1, else untagged
(R322). -/
def State.vlanTaken (s : State) (vid : Option Nat) : Bool :=
  match vid with
  | some v => s.flag Reg.linkCtrlVlanEn && v == s.getF Reg.linkVlanVid
  | none => !s.flag Reg.linkCtrlVlanEn

/-- The VID of a received frame. -/
def frameVlan (f : FrameHead) : Option Nat := f.vid.map BitVec.toNat

/-- The common header has revision 1 and C = 0, and its payload, whose size `fits` its type and kind, lies in the frame
(R324). -/
def frameSound (f : FrameHead) (fits : Bool) : Bool :=
  f.revision == 1 && !f.concat && fits && decide (f.size.toNat + (if f.vid.isSome then 26 else 22) ≤ f.length.toNat)

/-- Receive a frame (R321, R322, R324): one longer than MAX_FRAME, or whose message is not `sound`, counts in MALFORMED;
one of another VLAN is discarded, and so is one of another destination, by `other`. -/
def State.received (s : State) (f : FrameHead) (sound : Bool) (other take : State → State) : State :=
  if s.maxFrame < f.length.toNat then s.addSat (Reg.linkCount 8) 1
  else if !s.vlanTaken (frameVlan f) then s
  else if f.dst != Config.linkMac then (if sound then other s else s)
  else if !sound then s.addSat (Reg.linkCount 8) 1
  else take s

/-- A received type 2 message with a body of `n` bytes is sound (R324, R326). -/
def ctlSound (c : CtlHead) (n : Nat) : Bool :=
  frameSound c.frame (c.frame.size.toNat == 4 + n) && c.seqId.toNat % 256 == 128

end Sys2Proof.Machine
end

