-- ==== Sys2Proof/Machine/Twin.lean ====
section
/-! DEFINITION. Twin operation (chapter 12): Bridge training, formation, heartbeats, loss and arbitration, mirroring and
sync, forwarding, repair, and the twin's journal. -/

namespace Sys2Proof.Machine

/-- The Bridge block runs. -/
def State.bridgeOn (s : State) : Bool := s.domain .bridge == .on

/-- Change the Bridge's hidden state. -/
def State.setBridge (s : State) (f : BridgeState → BridgeState) : State := { s with bridge := f s.bridge }

/-- Change BRIDGE.ROLE: EV_85, a STATUS message and a rebuild; a Seam measurement that it meets is discarded (R261, R345,
R359, R369, R438). -/
def State.setRole (s : State) (r : Nat) : State :=
  if s.getF Reg.bridgeRole = r then s
  else
    let s := s.when (r != roleLead && r != roleFollow) fun s => s.setF Reg.seamOk 0
    { ((s.setF Reg.bridgeRole r).raise 85).undo with
      fh := { s.fh with statusDue := true }, cal := { s.cal with roleNs := some s.nowNs } }

/-- The twin's DEVICE_UID, 0 if none is known. -/
def State.peerUid (s : State) : Nat := s.getF Reg.peerUidLo + s.getF Reg.peerUidHi * 2 ^ 32

/-! ## The lead's waiting commands and the follow's forwarded ones (R364, R365) -/

/-- Complete the commands whose MIRRORs are all acknowledged. -/
def State.endWaits (s : State) : State :=
  let done := s.bridge.waits.filter fun w => w.seqs.isEmpty
  (s.setBridge fun b => { b with waits := b.waits.filter fun w => !w.seqs.isEmpty }).each done
    fun s w => s.regEnd w.msg w.code w.r0 w.r1

/-- Whether SEQ `a` is before SEQ `b`, modulo 65,536. -/
def seqBefore (a b : Nat) : Bool := decide (toSigned 16 (a % 65536 + 65536 - b % 65536) < 0)

/-- A forwarded command that the lead reports DONE writes any word 1 on this chip (R279, R365). -/
def State.forwardWords (s : State) (m : RegMsg) (code : Nat) : State :=
  if code ≠ 0 || !testBit m.mask 1 || (m.opcode != 0x88 && m.opcode != 0x89) then s
  else
    s.each (List.range m.count) fun s k =>
      let i := m.args.getD 0 0 + k
      (s.putWord1 i (ofLe ((m.image k).drop 32))).undoEntry i

/-- Complete the forwarded commands that are answered and whose MIRRORs are applied (R365). -/
def State.endForwards (s : State) : State :=
  let ready (f : Forwarded) : Bool :=
    match f.answer with
    | some a => !seqBefore s.bridge.mirrorNext a.2.2.2
    | none => false
  let done := s.bridge.forwarded.filter ready
  (s.setBridge fun b => { b with forwarded := b.forwarded.filter fun f => !ready f }).each done fun s f =>
    match f.answer with
    | some a => (s.forwardWords f.msg a.1).regEnd f.msg a.1 a.2.1 a.2.2.1
    | none => s

/-! ## Full sync and formation (R356, R358, R359, R366, R371) -/

/-- Send SYNC_MARK 1 once every MIRROR of the sync has been sent. -/
def State.syncMarkEnd (s : State) : State :=
  match s.bridge.syncEnd with
  | some n =>
    if s.getF Reg.bridgeRole = roleLead ∧ s.bridge.mirrorOut.all fun m => m.sentTick.isSome then
      (s.setBridge fun b => { b with syncEnd := none }).bridgeSend 0x12 (beBytes 4 1 ++ beBytes 4 n)
    else s
  | none => s

/-- The lead's full sync (R366). -/
def State.startSync (s : State) : State :=
  let l := s.heldEntries
  let s := s.bridgeSend 0x12 (beBytes 8 0)
  let s := (s.mirrorAll l).1
  (s.setBridge fun b => { b with syncEnd := some l.length }).syncMarkEnd

/-- What this chip's IDENT says (R356, R357). -/
def State.ident (s : State) : Peer where
  uid := Config.deviceUid.toNat
  side := s.side
  state := s.dev.code
  role := s.getF Reg.bridgeRole
  elder := s.drone.straps.twinElder
  instDigest := (digestBytes (roleDigest 2 s.lath.recs)).take 16
  opDigest := (digestBytes (roleDigest 3 s.lath.recs)).take 16
  decidedBy := s.getF Reg.bridgeStatusDecidedBy
  divergence := s.getF Reg.divergenceCount
  entries := s.heldEntries.length

/-- The bytes of an IDENT payload, in the order that R357 names its parts. -/
def Peer.bytes (p : Peer) : List Byte :=
  fit 64 (beBytes 8 p.uid ++ beBytes 1 p.side ++ beBytes 1 p.state ++ beBytes 1 p.role ++ beBytes 1 (bit p.elder) ++
    p.instDigest ++ p.opDigest ++ beBytes 1 p.decidedBy ++ beBytes 2 p.divergence ++ beBytes 4 p.entries)

/-- The elder rule names the first chip (R358). -/
def elderOf (a b : Peer) : Bool := if a.elder != b.elder then a.elder else decide (a.uid < b.uid)

/-- A chip that became SOLO after a lost Bridge: by notice, vote or elder rule (R373). -/
def Peer.soloAfterLoss (p : Peer) : Bool := p.role == roleSolo && (p.decidedBy == 2 || p.decidedBy == 3 || p.decidedBy == 4)

/-- The order of R373: vote, notice, elder rule. -/
def soloRank (d : Nat) : Nat := if d = 3 then 0 else if d = 2 then 1 else 2

/-- Whether the first chip becomes LEAD, and DECIDED_BY (R359, R371, R373). -/
def leadOf (a b : Peer) : Bool × Nat :=
  let serves (p : Peer) : Bool := p.state == 3 || p.state == 4
  if a.soloAfterLoss && b.role == roleIsolated then (true, a.decidedBy)
  else if b.soloAfterLoss && a.role == roleIsolated then (false, b.decidedBy)
  else if serves a != serves b then (serves a, 1)
  else if a.soloAfterLoss && b.soloAfterLoss then
    if soloRank a.decidedBy = soloRank b.decidedBy then (elderOf a b, 4)
    else if soloRank a.decidedBy < soloRank b.decidedBy then (true, a.decidedBy) else (false, b.decidedBy)
  else if (a.entries != 0) != (b.entries != 0) then (a.entries != 0, 5)
  else (elderOf a b, 4)

/-- R355's conditions for training; a chip that leaves Light Hold trains too (R107). -/
def State.trains (s : State) : Bool :=
  s.bridgeOn && s.flag Reg.bridgeCtrlEnable && (s.inLathedUp || (s.dev == .lightHold && s.flag Reg.dozeStatusWaking)) && s.side != 0 &&
    !s.bridge.refused

/-- The chip sends training patterns, and waits for what a training brings. -/
def State.trainStart (s : State) : State :=
  s.setBridge fun b => { b with training := true, trainTick := s.drone.ticks, identSent := false, identGot := none }

/-- BRIDGE_TRAINING: the chip starts to train, and starts again 1 ms after each start that has not led to a trained
Bridge (R355). -/
def State.bridgeTraining (s : State) : State :=
  if !s.trains || s.flag Reg.bridgeStatusTrained then s
  else s.reach (if s.bridge.training then max s.drone.ticks (s.bridge.trainTick + nsTicks 1000000) else s.drone.ticks)
    State.trainStart

/-- The first failed test of a formation (R25, R356): 1 sides, 2 operator digest, 3 latency. -/
def State.refuseCode (s : State) (p : Peer) : Nat :=
  let m := s.ident
  if !((m.side == 1 && p.side == 2) || (m.side == 2 && p.side == 1)) then 1
  else if m.opDigest != p.opDigest then 2
  else if 400 < s.getF Reg.bridgeLatencyOneWayNs then 3
  else 0

/-- The pair forms or is refused (R356, R359, R371). -/
def State.formPair (s : State) (p : Peer) (epoch : Nat) : State :=
  let s := s.setBridge fun b => { b with
    reformed := b.peer.isSome || b.diverging || s.getF Reg.divergenceCount != 0, peer := some p }
  let s := (s.setF Reg.peerUidLo p.uid).setF Reg.peerUidHi (p.uid / 2 ^ 32)
  let code := s.refuseCode p
  if code ≠ 0 then
    ((s.setBridge fun b => { b with refused := true }).setF Reg.bridgeStatusRefuse code).setRole roleSolo
  else
    let d := leadOf s.ident p
    let s := if d.1 then s else s.setF Reg.linkEpoch epoch
    let s := (((s.setF Reg.bridgeStatusRefuse 0).setF Reg.bridgeStatusArbitrating 0).setF Reg.bridgeStatusSynced 0).setF
      Reg.bridgeStatusDecidedBy d.2
    let s := s.setBridge fun b => { b with
      paired := true, heartbeatTick := s.drone.ticks, checkSuspended := false, declaredTick := none
      skewOver := 0, skewUnder := 0 }
    let s := s.setRole (if d.1 then roleLead else roleFollow)
    let s := if d.1 then s.startSync else s
    s.journalSend

/-- Training is complete once IDENTs have gone both ways (R355): TRAINED and EV_88. The pair forms or is refused; one that
retrains after Light Hold is formed already, and checks heartbeats again (R107). -/
def State.trainEnd (s : State) : State :=
  match s.bridge.identGot with
  | none => s
  | some x =>
    if !s.bridge.identSent then s
    else
      let s := s.setBridge fun b => { b with
        training := false, identSent := false, identGot := none, beatTick := s.drone.ticks }
      let s := (s.setF Reg.bridgeStatusTrained 1).raise 88
      if s.bridge.paired then s.setBridge fun b => { b with heartbeatTick := s.drone.ticks, checkSuspended := false }
      else s.formPair x.1 x.2

/-- BRIDGE_TRAINED: lanes aligned for 100 µs and the round trip of a heartbeat measured; IDENT is sent (R355, R356). -/
def State.bridgeTrained (roundTripNs : Nat) (s : State) : State :=
  if !s.trains || !s.bridge.training || s.bridge.identSent then s
  else
    let s := s.setBridge fun b =>
      if b.paired then b else { b with seqTx := [], mirrorOut := [], mirrorNext := 0, mirrorHeld := [] }
    let s := (s.setF Reg.bridgeLatencyOneWayNs (min 1023 (roundTripNs / 2))).bridgeSend 1 s.ident.bytes
    (s.setBridge fun b => { b with identSent := true }).trainEnd

/-- IDENT: the twin's side of the exchange (R355). -/
def State.identIn (p : Peer) (epoch : Nat) (s : State) : State :=
  if !s.trains || !s.bridge.training then s
  else (s.setBridge fun b => { b with identGot := some (p, epoch) }).trainEnd

/-- The pair is reconciled: the divergence log is kept no longer, and EV_87 tells that it holds records (R371). -/
def State.reconciled (s : State) : State :=
  let s := s.setBridge fun b => { b with diverging := false }
  if s.getF Reg.divergenceCount = 0 then s else s.raise 87

/-- The follow ends a sync: unmarked entries are freed, and SYNCED is set (R366). -/
def State.endSync (s : State) : State :=
  match s.bridge.syncMap, s.bridge.syncEnd with
  | some m, some n =>
    if n ≤ s.bridge.syncSeen ∧ s.bridge.mirrorHeld.isEmpty then
      let s := s.each (s.heldEntries.filter fun i => !m.contains i) fun s i => (s.freeEntry i).undoEntry i
      (((s.setBridge fun b => { b with syncMap := none, syncEnd := none }).setF Reg.bridgeStatusSynced 1).reconciled).showNext
    else s
  | _, _ => s

/-- SYNC_MARK on the follow (R366). -/
def State.syncMark (last : Bool) (count : Nat) (s : State) : State :=
  if !s.inPair || s.getF Reg.bridgeRole != roleFollow then s
  else if last then (s.setBridge fun b => { b with syncEnd := some count }).endSync
  else (s.setBridge fun b => { b with syncMap := some [], syncSeen := 0, syncEnd := none }).setF Reg.bridgeStatusSynced 0

/-! ## Mirrors (R363) -/

/-- Apply the held MIRRORs that are next in SEQ order, while MIRROR has grains (R362, R363). -/
def State.applyHeld (s : State) : Nat → State
  | 0 => s
  | n + 1 =>
    match s.bridge.mirrorHeld.find? fun m => m.seq == s.bridge.mirrorNext with
    | none => s
    | some m =>
      let a := s.ask 9 0 1
      if !a.2 then a.1
      else
        let s := (a.1.applyMirror m.index m.image).addWrap (Reg.bridgeCount 2) 1
        let s := s.setBridge fun b => { b with
          mirrorNext := (b.mirrorNext + 1) % 65536
          mirrorHeld := b.mirrorHeld.filter fun x => x.seq != m.seq
          syncMap := b.syncMap.map fun l => if l.contains m.index then l else l ++ [m.index]
          syncSeen := b.syncSeen + 1 }
        (s.bridgeSend 0x11 (beBytes 4 m.seq)).applyHeld n

/-- Apply what can be applied, and end what waited for it. -/
def State.pumpHeld (s : State) : State :=
  let s := s.applyHeld s.bridge.mirrorHeld.length
  if s.getF Reg.bridgeRole = roleFollow then s.endForwards.endSync.showNext else s

/-- MIRROR on the follow: held behind a gap, discarded if applied already (R363). -/
def State.mirrorIn (seq index : Nat) (img : List Byte) (s : State) : State :=
  if !s.inPair || s.getF Reg.bridgeRole != roleFollow || seqBefore seq s.bridge.mirrorNext ||
    s.bridge.mirrorHeld.any fun m => m.seq == seq then s
  else (s.setBridge fun b => { b with mirrorHeld := b.mirrorHeld ++ [⟨seq, index, img, none⟩] }).pumpHeld

/-- MIRROR_ACK on the lead (R364). -/
def State.mirrorAck (seq : Nat) (s : State) : State :=
  if !s.inPair then s
  else
    (s.setBridge fun b => { b with
      mirrorOut := b.mirrorOut.filter fun m => m.seq != seq
      waits := b.waits.map fun w => { w with seqs := w.seqs.filter fun x => x != seq } }).endWaits

/-- The MIRROR under way that was sent the longest ago. -/
def State.mirrorLate (s : State) : Option (Nat × MirrorRec) :=
  s.bridge.mirrorOut.foldl (fun (o : Option (Nat × MirrorRec)) m =>
    match m.sentTick, o with
    | none, _ => o
    | some t, none => some (t, m)
    | some t, some x => if t < x.1 then some (t, m) else o) none

/-- MIRROR_RESEND: a MIRROR unacknowledged 4 µs after it was last sent goes again with its SEQ (R363). -/
def State.mirrorResend (s : State) : State :=
  if !s.inPair then s
  else match s.mirrorLate with
    | none => s
    | some x => s.reach (x.1 + nsTicks 4000) fun s => s.sendMirror x.2

/-- FORWARD on the lead: the command is decoded on arrival (R365). -/
def State.forwardIn (m : RegMsg) (s : State) : State :=
  if !s.inPair || s.getF Reg.bridgeRole != roleLead then s
  else s.regChecked m (regArgsOk m.opcode m.args)

/-- FORWARD_RESP on the follow; `next` is the SEQ of the lead's next MIRROR when it answered (R365). -/
def State.forwardResp (seq code r0 r1 next : Nat) (s : State) : State :=
  if !s.inPair then s
  else
    (s.setBridge fun b => { b with forwarded := b.forwarded.map fun f =>
      if f.seq = seq then { f with answer := some (code, r0, r1, next) } else f }).endForwards

/-- The answer to a REPAIR_REQ: word 0, or none (R374). -/
def State.repairAnswer (s : State) (i : Nat) : State :=
  let bad := s.word0Bad i
  let r := if bad then (s, s.rawBytes .registry (64 * i) 32, false) else
    let x := s.readWord .registry (2 * i) .bridge false
    (x.1, x.2.data, entryState (s.word0 i) != regFree)
  let s := r.1
  if r.2.2 then (s.bridgeSend 0x31 (beBytes 4 i ++ beBytes 4 1 ++ r.2.1)).addSat (Reg.bridgeCount 5) 1
  else s.bridgeSend 0x31 (beBytes 4 i ++ beBytes 36 0)

/-- The REPAIR_REQs that wait are answered in their order, as far as MIRROR has grains (R408). -/
def State.repairPump (s : State) : State :=
  let l := s.bridge.repairs
  l.foldl (fun s i =>
    let wait (s : State) : State := s.setBridge fun b => { b with repairs := b.repairs ++ [i] }
    if !s.inPair then s
    else if !s.bridge.repairs.isEmpty then wait s
    else
      let a := s.askAll 9 [(0, 1), (4, 1)]
      if a.2 then a.1.repairAnswer i else wait a.1) (s.setBridge fun b => { b with repairs := [] })

/-- REPAIR_REQ: the twin answers with its word 0, or with none, once MIRROR has grains (R374). -/
def State.repairReq (i : Nat) (s : State) : State :=
  if !s.inPair then s else (s.setBridge fun b => { b with repairs := b.repairs ++ [i] }).repairPump

/-- JOURNAL: a record of the twin goes into its ring, which overwrites its oldest (R65). -/
def State.journalIn (rec_ : List Byte) (s : State) : State :=
  if !s.inPair then s
  else
    let s := s.writeBytes .spine .bridge (twinRingAddr s.journal.twinNext) (fit 128 rec_)
    { s with journal := { s.journal with twinNext := s.journal.twinNext + 1, twinHeld := min 4096 (s.journal.twinHeld + 1) } }

/-! ## Heartbeats (R360, R375) -/

/-- The payload of a HEARTBEAT: ROLE, STATE, time valid, short time, the last MIRROR SEQ applied, SYNCED (R357). -/
def State.heartbeatBody (s : State) : List Byte :=
  fit 16 (beBytes 1 (s.getF Reg.bridgeRole) ++ beBytes 1 s.dev.code ++ beBytes 1 (bit s.timeValid) ++
    beBytes 1 0 ++ beBytes 4 s.short ++ beBytes 4 ((s.bridge.mirrorNext + 65535) % 65536) ++
    beBytes 1 (s.getF Reg.bridgeStatusSynced))

/-- Put the Bridge frame that was sent last ahead of the others of its step (R360). -/
def State.bridgeAhead (s : State) : State :=
  let l := s.out.bridge
  { s with out := { s.out with bridge := l.drop (l.length - 1) ++ l.take (l.length - 1) } }

/-- HEARTBEAT_SEND: 10 µs after the last, ahead of every other frame (R360). -/
def State.heartbeatSend (s : State) : State :=
  if !s.bridgeOn || !s.inPair then s
  else s.reach (max s.drone.ticks (s.bridge.beatTick + nsTicks 10000)) fun s =>
    ((s.bridgeSend 2 s.heartbeatBody).bridgeAhead).setBridge fun b => { b with beatTick := s.drone.ticks }

/-- The skew of a heartbeat: SKEW, and SKEW_HIGH with EV_89 after 100 in a row (R375). -/
def State.skew (s : State) (short : Nat) : State :=
  let d := toSigned 32 ((short + s.getF Reg.bridgeLatencyOneWayNs) % 2 ^ 32 + 2 ^ 32 - s.short)
  let s := s.setF Reg.bridgeSkewSkewNs (ofSigned 16 (clampInt (-32768) 32767 d))
  let high : Bool := decide (500 < d) || decide (d < -500)
  let s := s.setBridge fun b => { b with
    skewOver := if high then b.skewOver + 1 else 0
    skewUnder := if high then 0 else b.skewUnder + 1 }
  if s.bridge.skewOver = 100 ∧ s.getF Reg.bridgeStatusSkewHigh = 0 then (s.setF Reg.bridgeStatusSkewHigh 1).raise 89
  else if 100 ≤ s.bridge.skewUnder then s.setF Reg.bridgeStatusSkewHigh 0
  else s

/-- HEARTBEAT: the twin lives (R360, R375); on the lead it tells when the follow is SYNCED (R357, R371). -/
def State.heartbeatIn (state short : Nat) (synced : Bool) (s : State) : State :=
  if !s.bridgeOn || !s.inPair then s
  else
    let s := s.setBridge fun b => { b with heartbeatTick := s.drone.ticks }
    let s := (s.setF Reg.bridgeStatusPeerState state).skew short
    if synced && s.getF Reg.bridgeRole == roleLead && !s.flag Reg.bridgeStatusSynced then
      (s.setF Reg.bridgeStatusSynced 1).reconciled
    else s

/-! ## Loss, covering and arbitration (R360, R361, R368, R369) -/

/-- The standby downlink windows of the present fret go live on the grid rows of their beams (R368). -/
def State.coverNow (s : State) : State :=
  let s := s.each (s.sched.cur.wins.filter fun w => w.silent && entryHome (s.word0 w.index) != 2) fun s w =>
    match w.dl with
    | none => s
    | some l =>
      let act := s.getF (Reg.layerStatusBankActive 1 l)
      let b := match (s.layer (48 + l)).select with
        | some x => x.bank
        | none => act
      let m := bankMap (48 + l) b
      let e := gridLine 1 (entryBeam (s.word0 w.index)) + 16384 + w.index % 65536 * 65536
      s.each ((List.range (w.g1 + 1 - w.g0)).map fun k => k + w.g0) fun s g =>
        s.writeBytes .stencil .spectral (mapByte m + 4 * g) (leBytes 4 e)
  let live (w : Win) : Win :=
    if w.silent && entryHome (s.word0 w.index) != 2 then { w with silent := false, dlGrid := true, dlRow := none } else w
  let cur := s.sched.cur
  { s with sched := { s.sched with cur := { cur with wins := cur.wins.map live } } }

/-- What a loss ends: forwarded commands fail, commands on the lead complete, MIRRORs are dropped (R363 to R365). -/
def State.bridgeGone (s : State) : State :=
  let fwd := s.bridge.forwarded
  let waits := s.bridge.waits
  let s := s.setBridge fun b => { b with
    paired := false, forwarded := [], waits := [], mirrorOut := [], mirrorHeld := [], syncMap := none, syncEnd := none
    training := false }
  let s := (s.setF Reg.bridgeStatusTrained 0).setF Reg.bridgeStatusSynced 0
  let s := s.each fwd fun s f => s.regEnd f.msg 6 21 0
  s.each waits fun s w => match w.msg.origin with
    | .forward _ => s
    | _ => s.regEnd w.msg w.code w.r0 w.r1

/-- The divergence log starts, or goes on where it holds records (R370, R372). -/
def State.startDivergence (s : State) : State :=
  let n := s.getF Reg.divergenceCount
  s.setBridge fun b => { b with diverging := true, divNext := if n = 0 then 0 else b.divNext }

/-- The body of a WITNESS_REQ (R349). -/
def State.witnessBody (s : State) : List Byte :=
  beBytes 8 Config.deviceUid.toNat ++ beBytes 8 s.peerUid ++ beBytes 4 (s.getF Reg.linkEpoch) ++
    beBytes 1 s.bridge.roleBefore ++ beBytes 1 (bit s.drone.straps.twinElder) ++ beBytes 1 s.fh.witnessSent ++
    beBytes 1 0 ++ beBytes 4 s.bridge.declaredShort ++ beBytes 8 (s.pathMask pathActive)

/-- Send a WITNESS_REQ, if WITNESS_EN is 1 and a baseband is found (R349). -/
def State.sendWitness (s : State) : State :=
  if !s.flag Reg.linkCtrlWitnessEn || !s.flag Reg.linkStatusBbFound then s
  else
    let s := s.sendCtl 2 0x50 s.witnessBody
    { s with fh := { s.fh with witnessSent := s.fh.witnessSent + 1, witnessTick := s.drone.ticks } }

/-- BRIDGE_LOSS_DECLARE (R360): 50 µs without a valid heartbeat. -/
def State.declareLoss (s : State) : State :=
  if !s.bridgeOn || !s.bridge.paired || s.bridge.checkSuspended then s
  else
    s.reach (s.bridge.heartbeatTick + nsTicks 50000) fun s =>
    let s := ((s.addWrap Reg.linkEpoch 1).addSat (Reg.bridgeCount 0) 1).raise 84
    let s := s.setBridge fun b => { b with
      roleBefore := s.getF Reg.bridgeRole, declaredTick := some s.drone.ticks, declaredShort := s.short }
    let s := s.bridgeGone.setF Reg.bridgeStatusArbitrating 1
    let s := ({ s with fh := { s.fh with witnessSent := 0, witnessTick := s.drone.ticks } }).sendWitness
    (s.startDivergence.coverNow).undo

/-- Ticks of two frets (R349, R369). -/
def twoFrets : Nat := nsTicks 500000

/-- Arbitration ends (R369). -/
def State.decide_ (s : State) (role by_ : Nat) : State :=
  let s := s.setBridge fun b => { b with declaredTick := none }
  (((s.setF Reg.bridgeStatusArbitrating 0).setF Reg.bridgeStatusDecidedBy by_).setRole role).undo

/-- This chip is the elder of the pair (R358). -/
def State.isElder (s : State) : Bool :=
  match s.bridge.peer with
  | some p => elderOf s.ident p
  | none => s.drone.straps.twinElder

/-- WITNESS_REQ_REPEAT: every 50 µs until a vote or 2 frets (R349). -/
def State.witnessRepeat (s : State) : State :=
  match s.bridge.declaredTick with
  | none => s
  | some t =>
    let at_ := max s.drone.ticks (s.fh.witnessTick + nsTicks 50000)
    if t + twoFrets < at_ then s else s.reach at_ State.sendWitness

/-- WITNESS_VOTE, once its source is found good (R350). -/
def State.vote (lead other epoch : Nat) (s : State) : State :=
  let me := Config.deviceUid.toNat
  let twin := s.peerUid
  let names : Bool := (lead == me && other == twin) || (lead == twin && other == me)
  match s.bridge.declaredTick with
  | some t =>
    if names ∧ epoch = s.getF Reg.linkEpoch ∧ s.drone.ticks ≤ t + twoFrets then
      s.decide_ (if lead = me then roleSolo else roleIsolated) 3
    else s.addSat (Reg.linkCount 15) 1
  | none => s.addSat (Reg.linkCount 15) 1

/-- WITNESS_TIMEOUT: 2 frets without a vote; the elder rule decides (R369). -/
def State.witnessTimeout (s : State) : State :=
  match s.bridge.declaredTick with
  | none => s
  | some t =>
    s.reach (t + twoFrets) fun s =>
    let s := s.raise 86
    s.decide_ (if s.isElder then roleSolo else roleIsolated) 4

/-- NOTICE: SOLO in the cycle of receipt (R361). -/
def State.noticeIn (s : State) : State :=
  if !s.bridgeOn || !(s.bridge.paired || s.flag Reg.bridgeStatusArbitrating) then s
  else
    let s := (s.addWrap Reg.linkEpoch 1).raise 84
    let s := s.setBridge fun b => { b with roleBefore := s.getF Reg.bridgeRole }
    let s := s.bridgeGone.decide_ roleSolo 2
    s.startDivergence.coverNow

/-- A write of BRIDGE.CTRL.ENABLE (R356): 1 lets a refused pair be tried again, 0 leaves the pair. -/
def State.bridgeEnable (s : State) (on : Bool) : State :=
  if on then
    if !s.bridge.refused then s
    else ((s.setBridge fun b => { b with refused := false }).setF Reg.bridgeStatusTrained 0).setF Reg.bridgeStatusRefuse 0
  else
    let s := s.bridgeGone.setBridge fun b => { b with declaredTick := none }
    ((s.setF Reg.bridgeStatusArbitrating 0).setF Reg.bridgeStatusDecidedBy 0).setRole roleSolo

/-- BRIDGE_FRAME_DISCARD (R354, R357). -/
def State.bridgeDiscard (s : State) : State := if s.bridgeOn then s.addSat (Reg.bridgeCount 6) 1 else s

/-! ## The twin commands (R376, R377) -/

/-- TWIN_INFO (0xA0). -/
def twinInfoSpec : CmdSpec where
  opcode := 0xA0
  states := notLightHold
  role := roleNone
  argOk _ := true
  classes := []
  usesPath := false
  run _ s := s.completeDone [s.regValue 0x1500000, s.regValue 0x1500008, s.getF Reg.linkEpoch, s.getF Reg.divergenceCount]

/-- DIVERGENCE_COPY (0xA4). Records lie in SEQ order from the oldest that the log holds. -/
def divergenceCopySpec : CmdSpec where
  opcode := 0xA4
  states := notLightHold
  role := roleIO
  argOk s := decide (1 ≤ s.argW 1) && decide (s.argW 1 ≤ 256) && offsetOk (s.argW 2) (64 * s.argW 1)
  classes := [10]
  usesPath := false
  run _ s :=
    let n := s.getF Reg.divergenceCount
    let first := s.bridge.divNext - n
    let l := ((List.range n).filter fun i => decide (s.argW 0 ≤ first + i)).take (s.argW 1)
    let a := s.ask 10 4 (2 * l.length)
    if !a.2 then { a.1 with job := some (.waitBudget 0xA4) }
    else (a.1.copyRecords 64 (s.argW 2) (l.map fun i => divergenceAddr + 64 * i)).completeDone
      [l.length]

/-- DIVERGENCE_CLEAR (0xA5). -/
def divergenceClearSpec : CmdSpec where
  opcode := 0xA5
  states := notLightHold
  role := roleO
  argOk _ := true
  classes := []
  usesPath := false
  run _ s :=
    if s.flag Reg.bridgeStatusArbitrating || (s.bridge.paired && s.bridge.reformed && !s.flag Reg.bridgeStatusSynced) then
      s.complete .busy
    else ((s.zeroWords .spine (divergenceAddr / 32) 2048).setF Reg.divergenceCount 0).completeDone []

/-- TWIN_INFO. -/
def execTwinInfo (p : Port) (s : State) : Outcome := act (s.framed p) (twinInfoSpec.issue p)
/-- DIVERGENCE_COPY. -/
def execDivergenceCopy (p : Port) (s : State) : Outcome := act (s.framed p) (divergenceCopySpec.issue p)
/-- DIVERGENCE_CLEAR. -/
def execDivergenceClear (p : Port) (s : State) : Outcome := act (s.framed p) (divergenceClearSpec.issue p)
/-- BRIDGE_TRAINING. -/
def execBridgeTraining (s : State) : Outcome := act s State.bridgeTraining
/-- BRIDGE_TRAINED. -/
def execBridgeTrained (roundTripNs : Nat) (s : State) : Outcome := act s (State.bridgeTrained roundTripNs)
/-- IDENT. -/
def execIdent (uid : BitVec 64) (side : Fin 3) (state : Fin 8) (role : Fin 4) (elder : Bool)
    (instDigest opDigest : BitVec 128) (decidedBy : Fin 8) (divergence entries : Nat) (epoch : Word) (s : State) : Outcome :=
  act s (State.identIn ⟨uid.toNat, side.val, state.val, role.val, elder, beBytes 16 instDigest.toNat,
    beBytes 16 opDigest.toNat, decidedBy.val, divergence, entries⟩ epoch.toNat)
/-- HEARTBEAT_SEND. -/
def execHeartbeatSend (s : State) : Outcome := act s State.heartbeatSend
/-- HEARTBEAT. -/
def execHeartbeat (state : Fin 8) (short : Word) (synced : Bool) (s : State) : Outcome :=
  act s (State.heartbeatIn state.val short.toNat synced)
/-- BRIDGE_LOSS_DECLARE. -/
def execBridgeLossDeclare (s : State) : Outcome := act s State.declareLoss
/-- WITNESS_REQ_REPEAT. -/
def execWitnessReqRepeat (s : State) : Outcome := act s State.witnessRepeat
/-- WITNESS_TIMEOUT. -/
def execWitnessTimeout (s : State) : Outcome := act s State.witnessTimeout
/-- NOTICE. -/
def execNotice (s : State) : Outcome := act s State.noticeIn
/-- MIRROR. -/
def execMirror (seq : BitVec 16) (index : Fin 262144) (word : BitVec 256) (s : State) : Outcome :=
  act s (State.mirrorIn seq.toNat index.val (leBytes 32 word.toNat))
/-- MIRROR_ACK. -/
def execMirrorAck (seq : BitVec 16) (s : State) : Outcome := act s (State.mirrorAck seq.toNat)
/-- MIRROR_RESEND. -/
def execMirrorResend (s : State) : Outcome := act s State.mirrorResend
/-- SYNC_MARK. -/
def execSyncMark (last : Bool) (count : Nat) (s : State) : Outcome := act s (State.syncMark last count)
/-- FORWARD. -/
def execForward (seq : BitVec 16) (opcode : Byte) (args images : List Word) (s : State) : Outcome :=
  act s (State.forwardIn ⟨.forward seq.toNat, opcode.toNat, args.map BitVec.toNat, images.flatMap fun w => leBytes 4 w.toNat⟩)
/-- FORWARD_RESP. -/
def execForwardResp (seq : BitVec 16) (code : Fin 7) (r0 r1 : Word) (next : BitVec 16) (s : State) : Outcome :=
  act s (State.forwardResp seq.toNat code.val r0.toNat r1.toNat next.toNat)
/-- REPAIR_REQ. -/
def execRepairReq (index : Fin 262144) (s : State) : Outcome := act s (State.repairReq index.val)
/-- JOURNAL. -/
def execJournal (image : BitVec 1024) (s : State) : Outcome := act s (State.journalIn (leBytes 128 image.toNat))
/-- BRIDGE_FRAME_DISCARD. -/
def execBridgeFrameDiscard (s : State) : Outcome := act s State.bridgeDiscard

end Sys2Proof.Machine
end

