-- ==== Sys2Proof/Machine/LightWake.lean ====
section
/-! DEFINITION. The wake sources of Light Hold (R102, R106) and the steps of its wake up to the lock of the synthesizers
(R103 to R105). -/

namespace Sys2Proof.Machine

/-! ## Agreement between twins (R58, R89, R107) -/

/-- Send an AGREE: the kind, whether it proposes (0), accepts (1) or refuses (2), the bar or fret, the first 16 bytes of
the pending operator digest, and the hold compare in ns. The spec gives the size of the payload and not its layout. -/
def State.sendAgree (s : State) (answer : Nat) (a : Agreement) : State :=
  s.bridgeSend 0x50 (fit 32 (beBytes 1 a.kind ++ beBytes 1 answer ++ beBytes 2 0 ++ beBytes 4 a.bar ++ fit 16 a.digest ++
    beBytes 8 a.compare))

/-- The proposal of a service start. -/
def startAgreement (bar : Nat) : Agreement := ⟨1, bar, [], 0⟩

/-- The proposal of a Light Hold entry. -/
def lightAgreement (boundary compare : Nat) : Agreement := ⟨2, boundary % 2 ^ 32, [], compare⟩

/-! ## The wake (R102 to R106) -/

/-- Steps 1 to 4 of a wake from Light Hold, and the start of step 5: domains rise, LINK leaves low-power idle, loaded cores
restart, the Bridge trains, BIAS codes are applied again, and the synthesizers of both halves start their hops (R103 to R105). The times of
R103 are maxima; that these steps come at once is a DESIGN CHOICE (log 46), and that the hop rule goes by the sensors'
last readings before the hold, since MONITOR has none yet, another (log 199). -/
def State.lightRise (s : State) : State :=
  let s := { s with cal := { s.cal with memTiming := s.memTimingInUse } }
  let s := (s.setF Reg.linkStatusLpi 0).resumeCores
  let s := (s.each [0, 1] State.wakeHalf).monitorUp.biasUp.biasReapply
  s.when s.trains State.trainStart

/-- The decimators of the halves that are On are reset in the wake (R96 step 5, R125). -/
def State.syncHeld (s : State) : State := s.each [0, 1] fun s h => if s.analogOn h then s.syncHalf h else s

/-- A Light Hold entry that is decided is abandoned (R106): in a pair the twin is told that it does not take place, so that
both chips enter or none does (R107), and a LIGHT_HOLD_ENTER that waits for the twin's answer ends as after a refusal;
both are a DESIGN CHOICE (log 168). -/
def State.lightAbandon (s : State) : State :=
  match s.doze.light with
  | none => s
  | some e =>
    let s := { s.setF Reg.dozeStatusLightPending 0 with
      doze := { s.doze with light := none, compare := none }
      bridge := { s.bridge with
        proposal := none, checkSuspended := false
        heartbeatTick := if s.bridge.checkSuspended then s.drone.ticks else s.bridge.heartbeatTick } }
    let s := if s.inPair then s.sendAgree 2 (lightAgreement e.boundary e.compare) else s
    if s.job = some .lightHold then s.completeFail reasonTwinMismatch else s

/-- A Light Hold wake source arrives: it wakes the device, or abandons an entry that has not happened (R102, R106). -/
def State.lightSource (s : State) : State :=
  if s.phase != .run then s
  else if s.dev == .lightHold then
    if s.flag Reg.dozeStatusWaking then s
    else ({ s.setF Reg.dozeStatusWaking 1 with
      doze := { s.doze with wakeTick := s.drone.ticks, late := false } } : State).lightRise
  else s.lightAbandon

end Sys2Proof.Machine
end

