-- ==== Sys2Proof/Machine/Fronthaul.lean ====
section
/-! DEFINITION. The fronthaul (chapter 11): layer data sections in both directions, control messages, discovery, the
witness vote and one-way delay. -/

namespace Sys2Proof.Machine

/-- The link can carry frames: the spine runs, the LINK domain is reached and the link is up. -/
def State.linkUp (s : State) : Bool := s.phase == .run && s.reached .link && s.flag Reg.linkStatusUp

/-! ## Uplink sections (R134 to R137, R220, R328 to R331) -/

/-- The bytes of a block of mantissa width `m` (R240). -/
def blockBytes (m : Nat) : Nat := 1 + 3 * m

/-- The PRB groups that a section holds at most (R330). -/
def State.sectionGroups (s : State) (m : Nat) : Nat :=
  (s.maxFrame - s.frameOverhead - 16) / (4 * blockBytes m)

/-- The modulus of a weight in units of 2^-31, rounded down. -/
def Weight.modulus (w : Weight) : Nat := Nat.sqrt ((w.i * w.i + w.q * w.q).toNat * 2 ^ 32)

/-- The sets A and V of a layer, group and symbol (R134). -/
structure PathSets where
  a : List Nat
  v : List Nat
  deriving DecidableEq, Repr

/-- The path sets under the weights of a group, of the paths ACTIVE in a symbol and those that it marks. -/
def pathSets (w : Nat → Weight) (active marked : List Nat) : PathSets :=
  let a := active.filter fun p => w p != ⟨0, 0⟩
  ⟨a, a.filter fun p => !marked.contains p⟩

/-- The relative error of a renormalisation, in units of 2^-30: free within 2^-14 (R134). -/
def scaleError (slot g sc : Nat) (sets : PathSets) : Int :=
  (Config.freeOf 134 ([slot, g, sc] ++ sets.a ++ [64] ++ sets.v) % 131073 : Nat) - 65536

/-- The scale of R134 in units of 2^-30: exactly 1 while no path is excluded, otherwise the ratio of the sums of weights
with a free relative error of at most 2^-14. -/
def combineScale (w : Nat → Weight) (slot g sc : Nat) (sets : PathSets) : Int :=
  let total (l : List Nat) : Nat := (l.map fun p => (w p).modulus).sum
  if sets.a = sets.v then 2 ^ 30
  else
    let x : Int := (total sets.a * 2 ^ 30 / max 1 (total sets.v) : Nat)
    x + x * scaleError slot g sc sets / 2 ^ 30

/-- One layer sample: I and Q in signed 8.16 (R134, R220). `bin p` is the path's bin in units of 2^-128. -/
def layerSample (w : Nat → Weight) (slot g sc : Nat) (sets : PathSets) (bin : Nat → Sample) : Sample :=
  let sum := sets.v.foldl (fun y p => addSample y (mulSample ((w p).i, (w p).q) (bin p))) (0, 0)
  let k := combineScale w slot g sc sets
  (satSigned 24 (roundDiv (sum.1 * k) (2 ^ 157)), satSigned 24 (roundDiv (sum.2 * k) (2 ^ 157)))

/-- The bin of the `i`-th occupied subcarrier of a latched symbol, of a path's samples (R212, R215). A window advance that
R215 rules out leaves it open, and so does a symbol that a step of device time has cut short of its window (R386). -/
def SymLatch.bin (y : SymLatch) (samples : List (List Sample)) (i p : Nat) : Sample :=
  if y.n * 9 < y.winAdv * 256 || y.span / 2 ^ y.log2D + y.winAdv < prefixLength y.scs y.n y.sym + y.n then
    (toSigned 160 (Config.freeOf 215 [p, i, 0]), toSigned 160 (Config.freeOf 215 [p, i, 1]))
  else uplinkBin y.scs y.n y.prbs y.sym y.shift y.winAdv i (samples.getD p [])

/-- What the sections of a layer's symbol take: the symbol and the layer under the settings of its start, the paths that
were ACTIVE in it and those that it marks, and the samples of each path. -/
structure SectionAt where
  sym : SymLatch
  layer : LayerLatch
  active : List Nat
  marked : List Nat
  samples : List (List Sample)
  deriving DecidableEq, Repr

/-- The path sets of a group of a section (R134). -/
def State.sectionSets (s : State) (x : SectionAt) (g : Nat) : PathSets :=
  pathSets (s.latchWeight x.layer g) x.active x.marked

/-- The block of a PRB of a layer: zeros where its group is not VALID (R330). -/
def State.uplinkBlock (s : State) (x : SectionAt) (prb : Nat) (sets : PathSets) : List Byte :=
  let m := bfpWidth x.layer.width
  if !s.latchValid x.layer (prb / 4) then fit (blockBytes m) []
  else
    bfpEncode m ((List.range 12).flatMap fun k =>
      let sc := 12 * prb + k
      let y := layerSample (s.latchWeight x.layer (prb / 4)) x.layer.slot (prb / 4) sc sets (x.sym.bin x.samples sc)
      [y.1, y.2])

/-- The TAG of a group (R224): of the active map, or of a fade's source where only that is VALID. -/
def LayerLatch.tag (x : LayerLatch) (g : Nat) : Nat :=
  let e := x.entries.getD g 0
  let src := match x.fade with
    | some f => (f.src.getD []).getD g 0
    | none => 0
  (if entryValid e || !entryValid src then e else src) / 65536

/-- A section run is that of a layer's PRB range. -/
def SettleRun.covers (r : SettleRun) (layer prb count : Nat) : Bool := r.layer == layer && r.prb == prb && r.count == count

/-- The settle-mask bits of earlier sections of the slot for a layer and PRB range (R329). -/
def State.settleBits (s : State) (layer prb count bar slot : Nat) : Nat :=
  match s.fh.settle.find? fun x => x.covers layer prb count && x.bar == bar && x.slot == slot with
  | some x => x.mask
  | none => 0

/-- Send, or discard, the section of groups `g0` to `g1` of a layer's symbol (R327 to R331). Its settle-mask bit is set
where a path was excluded, and where no path was left in any group (R136, R137). -/
def State.sendSection (s : State) (x : SectionAt) (g0 g1 : Nat) : State :=
  let layer := x.layer.slot
  let groups := (List.range (g1 + 1 - g0)).map (· + g0)
  let valid := groups.filter (s.latchValid x.layer)
  let prbs := (List.range (min (4 * g1 + 4) x.sym.prbs - 4 * g0)).map (· + 4 * g0)
  let sets := groups.map fun g => (g, s.sectionSets x g)
  let setsOf (g : Nat) : PathSets := ((sets.find? fun y => y.1 == g).map (·.2)).getD ⟨[], []⟩
  let least := valid.foldl (fun (o : Option PathSets) g =>
    let y := setsOf g
    match o with
    | none => some y
    | some z => if y.v.length < z.v.length then some y else some z) none
  let bar := barOfNs x.sym.ns
  let earlier := s.settleBits layer (4 * g0) prbs.length bar x.sym.slot
  let excluded := sets.any (fun y => y.2.a != y.2.v) || sets.all fun y => y.2.v.isEmpty
  let mask := earlier % 2 ^ x.sym.sym + bit excluded * 2 ^ x.sym.sym
  let keep (r : SettleRun) : Bool :=
    !r.covers layer (4 * g0) prbs.length && !(r.layer == layer && (r.bar != bar || r.slot != x.sym.slot))
  let s := { s with fh := { s.fh with
    settle := s.fh.settle.filter keep ++
      [SettleRun.mk layer (4 * g0) prbs.length bar x.sym.slot (if s.bbReady then mask else earlier) x.sym.ns] } }
  if !s.bbReady then s.addSat (Reg.linkCount 1) 1
  else
    let tag := match valid.head? with
      | some g => x.layer.tag g
      | none => 0
    let head := beBytes 4 bar ++ beBytes 1 x.sym.slot ++ beBytes 1 (16 * x.sym.sym + 8 + x.layer.width) ++
      beBytes 2 mask ++ beBytes 2 (4 * g0) ++ beBytes 2 prbs.length ++
      beBytes 1 ((least.map fun y => y.v.length).getD 0) ++ beBytes 1 ((least.map fun y => y.a.length).getD 0) ++
      beBytes 2 tag
    let blocks := prbs.flatMap fun j => s.uplinkBlock x j (setsOf (j / 4))
    (s.sendLink s.bbMac 3 0 (32768 * s.sideBit + layer) (head ++ blocks)).addWrap (Reg.linkCount 0) 1

/-- The sections of a symbol's layer, in ascending PRB order: those with a VALID group (R330). -/
def State.sendSections (s : State) (x : SectionAt) : State :=
  let per := s.sectionGroups (bfpWidth x.layer.width)
  let count := (x.sym.prbs + 3) / 4
  s.each (List.range ((count + per - 1) / max per 1)) fun s k =>
    let g0 := k * per
    let g1 := min (g0 + per) count - 1
    if (List.range (g1 + 1 - g0)).any fun i => s.latchValid x.layer (g0 + i) then s.sendSection x g0 g1 else s

/-- The length of a symbol in path samples (R128, R213). -/
def State.symbolSpan (s : State) (c sym : Nat) : Nat :=
  let n := s.carrierN 0 c
  let scs := s.carrierScs 0 c
  let next := if sym + 1 < (slotShape scs).1 then symbolSample scs n (sym + 1) else slotSamples scs n
  (next - symbolSample scs n sym) * 2 ^ s.getF (Reg.rxcCtrlLog2D c)

/-- The pilots of a window are copied from symbol `sym` of a slot (R264). -/
def State.copiesPilots (s : State) (w : Win) (sym : Nat) : Bool :=
  let k := entryClass (s.word0 w.index)
  s.flag Reg.registryCtrlRefreshEn && s.flag (Reg.classARefresh k) && testBit (s.getF (Reg.classAPilotSymbols k)) sym

/-- The settings that govern the uplink symbol of a carrier that starts now (R18). -/
def State.latchSymbol (s : State) (c : Nat) (y : SymbolAt) : SymLatch where
  ns := y.ns
  slot := y.slot
  sym := y.sym
  start := s.pathSample
  span := s.symbolSpan c y.sym
  n := s.carrierN 0 c
  scs := s.carrierScs 0 c
  prbs := s.getF (Reg.carConfigPrbCount 0 c)
  shift := s.getF (Reg.carXformShift 0 c)
  winAdv := s.getF (Reg.carXformWinAdv 0 c)
  log2D := s.getF (Reg.rxcCtrlLog2D c)
  layers := (s.carrierLayers 0 c).map s.latchLayer
  active := s.rx.active
  wins := s.sched.cur.wins.filter fun w =>
    (w.ul.any fun l => s.getF (Reg.layerConfigCarrier 0 l) == c) && s.copiesPilots w y.sym
  extracted := s.flag (Reg.rxcCtrlEnable c) && s.flag (Reg.carConfigEnable 0 c)
  gain := (List.range 64).map s.rxGain
  setB := (List.range 64).filter fun p => s.getF (Reg.rxFilterSelActive p) == 1
  freq := [0, 1].map fun h => toSigned 32 (s.getF (dfeIf 0 h)) + toSigned 32 (s.getF (dfeOffset 0 c))
  fenced := (List.range 64).filter fun p => s.path p == pathFenced || s.domain (dfeOf (halfOf p)) != .on
  scan := s.spectral.scanSet.filter fun x => x.carrier == c

/-- The latched symbols of an uplink carrier, latest first. -/
def State.latched (s : State) (c : Nat) : List SymLatch := mapGet [] c s.spectral.latched

/-- A layer's section of a latched symbol, if it has one: the carrier is extracted and a group is VALID (R128, R330). -/
def State.sectionOf (s : State) (layer : Nat) (y : SymLatch) : Option LayerLatch :=
  if !y.extracted then none
  else (y.layers.find? fun x => x.slot == layer).filter fun x =>
    (List.range ((y.prbs + 3) / 4)).any (s.latchValid x)

/-- The oldest symbol of a layer whose sections are to be sent: the carrier, the symbol and the layer. -/
def State.sectionNext (s : State) (layer : Nat) : Option (Nat × SymLatch × LayerLatch) :=
  let sent (y : SymLatch) : Bool := s.fh.settle.any fun r => r.layer == layer && r.last == y.ns
  (List.range 4).findSome? fun c =>
    (((s.latched c).takeWhile fun y => !sent y).filterMap fun y => (s.sectionOf layer y).map fun x => (c, y, x)).getLast?

/-- UPLINK_SECTION_SEND (R330): the sections of the oldest symbol of an uplink layer that is not sent, once every sample
that enters it has passed, in every state in which the combiner is clocked (R20, R93). `runs` is what each path's
decimator gave over that symbol. -/
def State.uplinkSend (layer : Nat) (runs : List RxRun) (s : State) : State :=
  if s.phase != .run || !s.combinerOn || s.domain .link != .on then s
  else match s.sectionNext layer with
    | none => s
    | some (c, y, x) =>
      s.reach (4 * y.reachEnd) fun s =>
        s.sendSections ⟨y, x, s.activeIn y, s.markedPaths c y, s.carrierStreams c y runs⟩

/-! ## Downlink sections (R326, R327, R332 to R335) -/

/-- The fields of a section header that a downlink section uses (R328). -/
structure SectionHead where
  bar : Nat
  slot : Nat
  sym : Nat
  width : Nat
  first : Nat
  count : Nat
  deriving DecidableEq, Repr

/-- Read the 16 header bytes, the first one most significant. -/
def SectionHead.ofBits (h : BitVec 128) : SectionHead :=
  let n := h.toNat
  ⟨bits n 96 32, bits n 88 6, bits n 84 4, bits n 80 3, bits n 48 9, bits n 32 9⟩

/-- The air time of a symbol of a downlink carrier in ns (R213, R214, R333). -/
def State.airTime (s : State) (c : Nat) (h : SectionHead) : Nat :=
  let n := s.carrierN 1 c
  let scs := s.carrierScs 1 c
  s.barBoundary h.bar + (h.slot * slotSamples scs n + symbolSample scs n h.sym) * 1000000000 / s.carrierRate 1 c

/-- A received type 0 message is malformed by R324, R326 or R327. -/
def State.sectionMalformed (s : State) (pcId seqId : Nat) (h : SectionHead) (bytes : Nat) : Bool :=
  bytes != h.count * blockBytes (bfpWidth h.width) || seqId % 256 != 128 || !testBit pcId 14 || pcId / 32768 != s.sideBit || decide (48 ≤ pcId % 64) ||
    !s.flag (Reg.layerConfigEnable 1 (pcId % 64))

/-- The header of a downlink section fits its layer and carrier (R328, R332); a carrier that is not enabled has no symbols
(R218). -/
def State.sectionFits (s : State) (layer c : Nat) (h : SectionHead) : Bool :=
  let scs := s.carrierScs 1 c
  s.flag (Reg.carConfigEnable 1 c) && h.width == s.getF (Reg.layerConfigBfpWidth 1 layer) && decide (1 ≤ h.count) && decide (h.count ≤ 272) &&
    decide (h.first + h.count ≤ s.getF (Reg.carConfigPrbCount 1 c)) && decide (h.sym < (slotShape scs).1) &&
    decide (h.slot * slotSamples scs (s.carrierN 1 c) < s.carrierRate 1 c / 100)

/-- Count a gap in the sequence IDs of a PC_ID (R326). -/
def State.seqGap (s : State) (pcId seq : Nat) : State :=
  let t := { s with fh := { s.fh with seqRx := mapSet 0 pcId (seq + 1) s.fh.seqRx } }
  match mapGet 0 pcId s.fh.seqRx with
  | 0 => t
  | n + 1 => if (n + 1) % 256 = seq then t else t.addSat (Reg.linkCount 7) 1

/-- LAYER_DATA_SECTION: a received type 0 message (R321, R322, R324, R326, R327, R332 to R335). -/
def State.sectionIn (frame : FrameHead) (pcId seqId : Nat) (head : BitVec 128) (blocks : List Byte) (s : State) : State :=
  let src := frame.src.toNat
  if !s.linkUp then s
  else s.received frame (frameSound frame (frame.size.toNat == 20 + blocks.length) &&
      !s.sectionMalformed pcId seqId (.ofBits head) blocks.length) id fun s =>
    let layer := pcId % 64
    let c := s.getF (Reg.layerConfigCarrier 1 layer)
    let h := SectionHead.ofBits head
    let s := s.seqGap pcId (seqId / 256)
    let t := s.airTime c h
    if !s.flag Reg.linkStatusBbFound || src != s.bbMac then s.addSat (Reg.linkCount 9) 1
    else if !s.sectionFits layer c h then s.addSat (Reg.linkCount 8) 1
    else if !s.inService then s.addSat (Reg.linkCount 6) 1
    else if s.nowNs + 1000 * max 40 (min 1000 (s.getF Reg.dlWindowEarlyUs)) < t then s.addSat (Reg.linkCount 3) 1
    else if t < s.nowNs + 35000 then s.addSat (Reg.linkCount 4) 1
    else if s.fh.accepted.any (fun x => x.layer == layer && x.ns == t && decide (x.first < h.first + h.count) &&
      decide (h.first < x.first + x.count)) then s.addSat (Reg.linkCount 6) 1
    else
      let s := s.addWrap (Reg.linkCount 2) 1
      ({ s with fh := { s.fh with accepted := s.fh.accepted ++ [DlSymbol.mk layer t h.width h.first h.count blocks] } }).needAt t

/-- A downlink symbol starts: a layer whose map holds a VALID group and that no accepted section touches counts in
DL_MISSING (R335); data of symbols that have started is spent. -/
def State.dlSymbolStart (s : State) (c ns : Nat) : State :=
  let s := if !s.flag (Reg.carConfigEnable 1 c) then s
    else s.each (s.carrierLayers 1 c) fun s slot =>
      let valid := (List.range (s.groups 1 c)).filter (s.groupValid slot)
      let hit (x : DlSymbol) : Bool := x.layer == slot % 48 && x.ns == ns &&
        valid.any fun g => decide (x.first < 4 * g + 4) && decide (4 * g < x.first + x.count)
      if !valid.isEmpty && !s.fh.accepted.any hit then s.addSat (Reg.linkCount 5) 1 else s
  let mine (x : DlSymbol) : Bool := s.getF (Reg.layerConfigCarrier 1 x.layer) == c
  { s with fh := { s.fh with accepted := s.fh.accepted.filter fun x => !mine x || decide (ns < x.ns) } }

/-- One I or Q component of the samples that a downlink symbol's sections give a PRB (R239, R335): none where no section
was accepted. -/
def State.dlSamples (s : State) (layer ns prb : Nat) : Option (List Int) :=
  (s.fh.accepted.find? fun x => x.layer == layer && x.ns == ns && decide (x.first ≤ prb) &&
    decide (prb < x.first + x.count)).map fun x =>
      let m := bfpWidth x.width
      bfpDecode m (slice ((prb - x.first) * blockBytes m) (blockBytes m) x.blocks)

/-- The value of a path's bin in the downlink (R221): the sum over the carrier's enabled layers, in units of 2^-31. -/
def State.dlBin (s : State) (c ns p sc : Nat) : Sample :=
  (s.carrierLayers 1 c).foldl (fun (y : Sample) slot =>
    match s.dlSamples (slot % 48) ns (sc / 12) with
    | none => y
    | some v =>
      let w := s.layerWeight slot (sc / 48) p
      let i := v.getD (2 * (sc % 12)) 0
      let q := v.getD (2 * (sc % 12) + 1) 0
      (y.1 + w.i * i - w.q * q, y.2 + w.i * q + w.q * i)) (0, 0)

/-! ## Window maps (R338, R339) -/

/-- One record of a window map (R338). -/
def State.mapRecord (s : State) (p : PrepFret) (w : Win) : List Byte :=
  let e := s.word0 w.index
  let o := (mapGet (entryTiming e, entryCfo e) w.index p.offsets)
  let flags := bit (w.ul.isSome && w.ulGrid) + 2 * bit (w.dl.isSome && w.dlGrid) + 4 * bit (w.start == p.fret) +
    8 * bit (w.last == p.fret) + 16 * bit w.oneOff + 32 * bit w.silent
  beBytes 5 (entryId e) ++ beBytes 3 w.index ++ beBytes 1 (w.ul.getD 63) ++ beBytes 1 (w.dl.getD 63) ++
    beBytes 2 (w.prbStart + 512 * w.prbCount) ++ beBytes 2 o.1 ++ beBytes 2 o.2 ++ beBytes 1 flags ++
    beBytes 1 (entryQuality e) ++ beBytes 1 (entryClass e + 16 * entryHome e) ++ beBytes 1 (entryCarrier e)

/-- Send a window map in as many messages as it needs. -/
def State.sendMap (s : State) (p : PrepFret) (rev : Nat) : State :=
  let recs := p.wins.map (s.mapRecord p)
  let per := (s.maxFrame - s.frameOverhead - 16) / 20
  let parts := max 1 ((recs.length + per - 1) / per)
  let bar := ofSigned 32 (p.fret / 40)
  let fret := (p.fret % 40).toNat
  s.each (List.range parts) fun s k =>
    let mine := (recs.drop (k * per)).take per
    s.sendCtl 4 0x10 (beBytes 4 bar ++ beBytes 1 fret ++ beBytes 1 rev ++ beBytes 2 recs.length ++
      beBytes 2 (k * per) ++ beBytes 2 mine.length ++ beBytes 4 0 ++ mine.flatten)

/-- Change the prepared fret with a number. -/
def State.setPrep (s : State) (f : Int) (g : PrepFret → PrepFret) : State :=
  { s with sched := { s.sched with prep := s.sched.prep.map fun p => if p.fret = f then g p else p } }

/-- WINDOW_MAP: the map of the next fret, once its list is closed (R338). -/
def State.windowMap (s : State) : State :=
  if !s.inService then s
  else
    let s := s.applyUndo
    match s.sched.prep.head? with
    | none => s
    | some p =>
      if !p.closed || p.revision.isSome then s
      else
        let s := s.sendMap p 0
        let offs := p.wins.map fun w => let e := s.word0 w.index; (w.index, entryTiming e, entryCfo e)
        s.setPrep p.fret fun p => { p with revision := some 0, changed := false, offsets := offs }

/-- WINDOW_MAP_REVISION: the map of a fret that changed after its first sending (R339). -/
def State.windowMapRevision (s : State) : State :=
  if !s.inService then s
  else
    let s := s.applyUndo
    s.each s.sched.prep fun s p =>
      match p.revision with
      | none => s
      | some r =>
        if !p.changed then s
        else
          let r := (r + 1) % 256
          (s.sendMap p r).setPrep p.fret fun p => { p with revision := some r, changed := false }

/-! ## Registry commands (R340 to R342) -/

/-- A REG_CMD is refused without authority, answered BUSY by a full queue, or queued for its decode (R340, R341). -/
def State.regCmd (s : State) (m : RegMsg) : State :=
  let s := s.addWrap (Reg.linkCount 10) 1
  if !s.flag Reg.linkCtrlBbControl then s.regEnd (m.decodedIn s.dev.code) 3 0 0
  else if 64 ≤ s.fh.queue.length then s.regEnd (m.decodedIn s.dev.code) 1 0 0
  else ({ s with fh := { s.fh with queue := s.fh.queue ++ [m] } }).regPump 65

/-- REG_RESP: the first response that waits is sent, and kept (R342). -/
def State.regResp (s : State) : State :=
  match s.fh.ready with
  | [] => s
  | r :: t =>
    let sent := s.bbReady
    let s := s.sendCtl 5 0x21 r.body
    let kept := (s.fh.kept.filter fun x => !(x.tag == r.tag && x.opcode == r.opcode)) ++ [r]
    { s with fh := { s.fh with ready := t, kept := if sent then kept.drop (kept.length - 64) else s.fh.kept } }

/-! ## Reports and status (R343 to R345) -/

/-- A report message of up to 16 records (R344). -/
def reportBody (l : List (List Byte)) : List Byte := beBytes 1 l.length ++ beBytes 3 0 ++ l.flatten

/-- DETECT_REPORT (R343). -/
def State.detectReport (s : State) : State :=
  if s.fh.detects.isEmpty then s
  else
    let t := { s with fh := { s.fh with detects := s.fh.detects.drop 16 } }
    t.sendCtl 6 0x30 (reportBody (s.fh.detects.take 16))

/-- SIG_REPORT (R344). -/
def State.sigReport (s : State) : State :=
  if s.fh.sigs.isEmpty then s
  else
    let t := { s with fh := { s.fh with sigs := s.fh.sigs.drop 16 } }
    t.sendCtl 6 0x31 (reportBody (s.fh.sigs.take 16))

/-- The body of a STATUS message (R345). -/
def State.statusBody (s : State) : List Byte :=
  let flags := s.getF Reg.seamOk + 2 * bit s.timeValid + 4 * s.getF Reg.dozeStatusWestIdle +
    8 * s.getF Reg.dozeStatusEastIdle
  beBytes 4 s.bar ++ beBytes 1 s.dev.code ++ beBytes 1 (s.getF Reg.bridgeRole) ++ beBytes 1 flags ++
    beBytes 1 (ofSigned 8 (toSigned 12 (s.getF Reg.thermalStatusTjMax) / 16)) ++ beBytes 8 (s.pathMask pathActive) ++
    beBytes 8 (s.pathMask pathFenced) ++ beBytes 2 (s.getF Reg.registryStatusOpenNow) ++
    beBytes 1 (s.getF Reg.registryStatusPrepAhead) ++ beBytes 1 0 ++ beBytes 2 (s.getF Reg.suspendCount) ++
    beBytes 2 0 ++ s.fh.barRise.flatMap (beBytes 4) ++ beBytes 8 s.fh.owdLast

/-- STATUS: after a bar boundary in LATHED, SERVICE and DOZE, and after a change of state or role (R345). -/
def State.sendStatus (s : State) : State :=
  let bar := barOfNs s.nowNs + 1
  if s.phase != .run || !s.reached .link || !(s.fh.statusDue || (s.inLathedUp && s.fh.statusBar != bar)) then s
  else
    ({ s with fh := { s.fh with statusDue := false, statusBar := if s.inLathedUp then bar else s.fh.statusBar } }).sendCtl
      6 0x40 s.statusBody

/-! ## Discovery (R346 to R348) -/

/-- The found baseband is lost (R348). -/
def State.loseBaseband (s : State) : State :=
  if !s.flag Reg.linkStatusBbFound then s
  else
    let s := { s with fh := { s.fh with announced := false } }
    ((s.setF Reg.linkStatusBbFound 0).setF Reg.linkStatusUnanswered 0).raise 83

/-- The body of an ANNOUNCE (R346). -/
def State.announceBody (s : State) : List Byte :=
  beBytes 8 Config.deviceUid.toNat ++ beBytes 4 targetId ++ beBytes 1 s.dev.code ++ beBytes 1 (s.getF Reg.bridgeRole) ++
    beBytes 1 s.side ++ beBytes 1 0 ++ beBytes 8 s.peerUid ++ s.ident.opDigest ++ beBytes 2 s.maxFrame ++ beBytes 2 0

/-- Count the ANNOUNCE before this one if no accepted ACK has answered it; the third in a row loses the baseband. -/
def State.countUnanswered (s : State) : State :=
  if !s.flag Reg.linkStatusBbFound || !s.fh.announced then s
  else if 2 ≤ s.getF Reg.linkStatusUnanswered then s.loseBaseband
  else s.addSat Reg.linkStatusUnanswered 1

/-- ANNOUNCE: after a bar boundary (R346, R348). -/
def State.announce (s : State) : State :=
  let bar := barOfNs s.nowNs
  if !s.linkUp || !s.inLathedUp || s.fh.announceBar == bar + 1 || (s.flag Reg.linkStatusBbFound && bar % 2 ^ 32 % 100 != 0)
  then s
  else
    let s := s.countUnanswered
    let da := s.getF Reg.announceDaLo + s.getF Reg.announceDaHi * 2 ^ 32
    let s := s.sendLink da 7 2 (32768 * s.sideBit + 0x01) s.announceBody
    { s with fh := { s.fh with announced := true, announceBar := bar + 1 } }

/-- An ANNOUNCE_ACK is decoded (R347). -/
def State.ackDecode (s : State) (src uid ident : Nat) : State :=
  let pin := s.getF Reg.bbIdPinLo + s.getF Reg.bbIdPinHi * 2 ^ 32
  let found := s.flag Reg.linkStatusBbFound
  let same : Bool := src == s.bbMac && ident == s.getF Reg.bbIdLo + s.getF Reg.bbIdHi * 2 ^ 32
  if uid != Config.deviceUid.toNat || ident == 0 || (pin != 0 && pin != ident) || (found && !same) then
    s.addSat (Reg.linkCount 9) 1
  else
    let s := ({ s with fh := { s.fh with announced := false } }).setF Reg.linkStatusUnanswered 0
    if found then s
    else
      let s := (s.setF Reg.bbMacLo (src % 2 ^ 32)).setF Reg.bbMacHi (src / 2 ^ 32)
      let s := (s.setF Reg.bbIdLo (ident % 2 ^ 32)).setF Reg.bbIdHi (ident / 2 ^ 32)
      (s.setF Reg.linkStatusBbFound 1).raise 82

/-- A type 2 message is decoded: one from another source than the found baseband counts in FOREIGN, unless it is an
ANNOUNCE_ACK (R336). -/
def State.decodeCtl (s : State) (m : HeldMsg) : State :=
  let foreign (src : Nat) : Bool := !s.flag Reg.linkStatusBbFound || src != s.bbMac
  match m with
  | .cmd src m => if foreign src then s.addSat (Reg.linkCount 9) 1 else s.regCmd m
  | .ack src uid ident => s.ackDecode src uid ident
  | .vote src lead other epoch => if foreign src then s.addSat (Reg.linkCount 9) 1 else s.vote lead other epoch

/-- A type 2 message arrives: it is a wake source of Light Hold, and one that comes there is decoded once the wake
completes (R102, R106, R336). -/
def State.ctlIn (m : HeldMsg) (s : State) : State :=
  if !s.linkUp then s
  else if s.dev == .lightHold then ({ s with fh := { s.fh with held := s.fh.held ++ [m] } }).lightSource
  else (if s.flag Reg.dozeStatusLightPending then s.lightSource else s).decodeCtl m

/-- A type 2 message whose body has `n` bytes arrives in a frame (R321, R322, R324, R326); `other` is what one of another
destination leaves. -/
def State.ctlFrame (h : CtlHead) (n : Nat) (other : State → State) (m : HeldMsg) (s : State) : State :=
  if !s.linkUp then s else s.received h.frame (ctlSound h n) other (State.ctlIn m)

/-- REG_CMD: a received registry command, of the size that its opcode and COUNT give it (R324, R340). -/
def State.regCmdIn (h : CtlHead) (m : RegMsg) (s : State) : State :=
  let n := 64 * regImages m.opcode m.args
  if !s.linkUp then s
  else s.received h.frame (ctlSound h (20 + n) && m.images.length == n) id (State.ctlIn (.cmd h.frame.src.toNat m))

/-- ANNOUNCE_ACK: one that is not addressed to the device counts in FOREIGN (R347). -/
def State.ackIn (h : CtlHead) (uid ident : Nat) (s : State) : State :=
  s.ctlFrame h 16 (fun s => s.addSat (Reg.linkCount 9) 1) (.ack h.frame.src.toNat uid ident)

/-- LINK_UP: lanes and FEC have been aligned without fault for 1 ms (R320). -/
def State.linkGoesUp (s : State) : State :=
  if s.phase != .run || !s.reached .link || !s.flag Reg.linkCtrlEnable || s.flag Reg.linkStatusUp then s
  else
    let s := (s.setF Reg.linkStatusLaneAligned 15).setF Reg.linkStatusFecAligned 1
    (s.setF Reg.linkStatusUp 1).raise 80

/-- The link goes down, with the alignment that is left; a found baseband is lost (R320, R348). -/
def State.linkGoesDown (lanes : Nat) (fec : Bool) (s : State) : State :=
  if !s.linkUp then s
  else
    let s := (s.setF Reg.linkStatusLaneAligned lanes).setFlag Reg.linkStatusFecAligned fec
    (((s.setF Reg.linkStatusUp 0).setF Reg.linkStatusLpi 0).raise 81).loseBaseband

/-- FRAME_DISCARD (R321). -/
def State.frameDiscard (s : State) : State := if s.linkUp then s.addSat (Reg.linkCount 8) 1 else s

/-- Decode the messages that came in Light Hold, once the wake completes (R336). -/
def State.releaseHeld (s : State) : State :=
  let l := s.fh.held
  ({ s with fh := { s.fh with held := [] } }).each l State.decodeCtl

/-! ## One-way delay (R351, R352) -/

/-- A timestamp of 48-bit seconds and 32-bit nanoseconds (R351). -/
def stampBytes (ns : Nat) : List Byte := beBytes 6 (ns / 1000000000) ++ beBytes 4 (ns % 1000000000)

/-- Start a one-way delay measurement (R352). -/
def State.owdStart (s : State) : State :=
  if s.flag Reg.owdCtrlBusy then s
  else if !s.bbReady || !s.timeValid then s.setF Reg.owdCtrlTimeout 1
  else
    let s := (s.addWrap Reg.owdCtrlMeasId 1).setF Reg.owdCtrlBusy 1
    let s := { s with fh := { s.fh with owd := some (s.nowNs, s.drone.ticks) } }
    s.sendMsg (s.delayMsg s.bbMac (beBytes 1 (s.getF Reg.owdCtrlMeasId) ++ beBytes 1 0 ++ stampBytes s.nowNs ++ beBytes 8 0))

/-- A type 5 message arrives in a frame: its payload holds at least the 20 bytes of its layout (R324, R351). -/
def State.delayFrame (f : FrameHead) (take : State → State) (s : State) : State :=
  if !s.linkUp then s else s.received f (frameSound f (decide (20 ≤ f.size.toNat))) id take

/-- ONE_WAY_DELAY_REQUEST: answered with t2 (R352). -/
def State.owdRequest (src ident : Nat) (s : State) : State :=
  if !s.timeValid then s
  else s.sendMsg (s.delayMsg src (beBytes 1 ident ++ beBytes 1 2 ++ stampBytes s.nowNs ++ beBytes 8 0))

/-- ONE_WAY_DELAY_RESPONSE: (t2 − tCV2) − t1 in units of 2^-16 ns (R352). -/
def State.owdResponse (ident sec ns : Nat) (cv : Int) (s : State) : State :=
  match s.fh.owd with
  | none => s
  | some (t1, tick) =>
    if ident != s.getF Reg.owdCtrlMeasId || decide (tick + nsTicks 1000000 < s.drone.ticks) then s
    else
      let v : Int := ((sec * 1000000000 + ns : Nat) - (t1 : Int)) * 65536 - cv
      let r := ofSigned 64 v
      let s := { s with fh := { s.fh with owd := none, owdLast := r } }
      ((s.setF Reg.owdResultLo (r % 2 ^ 32)).setF Reg.owdCtrlDone 1).setF Reg.owdCtrlBusy 0

/-- REMOTE_REQUEST, from the baseband (R352). -/
def State.remoteRequest (src : Nat) (s : State) : State :=
  if !s.flag Reg.linkStatusBbFound || src != s.bbMac then s else s.owdStart

/-- OWD_TIMEOUT: 1 ms without a response (R352). -/
def State.owdTimeout (s : State) : State :=
  match s.fh.owd with
  | none => s
  | some (_, tick) =>
    s.reach (tick + nsTicks 1000000) fun s =>
    (({ s with fh := { s.fh with owd := none } }).setF Reg.owdCtrlTimeout 1).setF Reg.owdCtrlBusy 0

/-- UPLINK_SECTION_SEND. -/
def execUplinkSectionSend (layer : Fin 48) (runs : List RxRun) (s : State) : Outcome :=
  act s (State.uplinkSend layer.val runs)
/-- LAYER_DATA_SECTION. -/
def execLayerDataSection (frame : FrameHead) (pcId seqId : BitVec 16) (head : BitVec 128) (blocks : List Byte) (s : State) :
    Outcome := act s (State.sectionIn frame pcId.toNat seqId.toNat head blocks)
/-- WINDOW_MAP. -/
def execWindowMap (s : State) : Outcome := act s State.windowMap
/-- WINDOW_MAP_REVISION. -/
def execWindowMapRevision (s : State) : Outcome := act s State.windowMapRevision
/-- REG_CMD. -/
def execRegCmd (frame : CtlHead) (tag : BitVec 16) (opcode : Byte) (args : List Word) (images : List Byte) (s : State) :
    Outcome :=
  act s (State.regCmdIn frame
    ⟨.fronthaul tag.toNat 0, opcode.toNat, (List.range 4).map (fun i => (args.getD i 0).toNat), images⟩)
/-- REG_RESP. -/
def execRegResp (s : State) : Outcome := act s State.regResp
/-- DETECT_REPORT. -/
def execDetectReport (s : State) : Outcome := act s State.detectReport
/-- SIG_REPORT. -/
def execSigReport (s : State) : Outcome := act s State.sigReport
/-- STATUS. -/
def execStatus (s : State) : Outcome := act s State.sendStatus
/-- ANNOUNCE. -/
def execAnnounce (s : State) : Outcome := act s State.announce
/-- ANNOUNCE_ACK. -/
def execAnnounceAck (frame : CtlHead) (uid ident : BitVec 64) (s : State) : Outcome :=
  act s (State.ackIn frame uid.toNat ident.toNat)
/-- LINK_UP. -/
def execLinkUp (s : State) : Outcome := act s State.linkGoesUp
/-- LINK_DOWN. -/
def execLinkDown (lanes : BitVec 4) (fec : Bool) (s : State) : Outcome := act s (State.linkGoesDown lanes.toNat fec)
/-- FRAME_DISCARD. -/
def execFrameDiscard (s : State) : Outcome := act s State.frameDiscard
/-- WITNESS_VOTE. -/
def execWitnessVote (frame : CtlHead) (lead other : BitVec 64) (epoch : Word) (s : State) : Outcome :=
  act s (State.ctlFrame frame 20 id (.vote frame.frame.src.toNat lead.toNat other.toNat epoch.toNat))
/-- ONE_WAY_DELAY_REQUEST. -/
def execOneWayDelayRequest (frame : FrameHead) (ident : Byte) (s : State) : Outcome :=
  act s (State.delayFrame frame (State.owdRequest frame.src.toNat ident.toNat))
/-- ONE_WAY_DELAY_RESPONSE. -/
def execOneWayDelayResponse (frame : DelayHead) (sec : BitVec 48) (ns : Word) (cv : BitVec 64) (s : State) : Outcome :=
  act s (State.delayFrame frame.frame (State.owdResponse frame.ident.toNat sec.toNat ns.toNat cv.toInt))
/-- REMOTE_REQUEST. -/
def execRemoteRequest (frame : FrameHead) (s : State) : Outcome :=
  act s (State.delayFrame frame (State.remoteRequest frame.src.toNat))
/-- FOLLOW_UP: ignored (R352). -/
def execFollowUp (s : State) : Outcome := act s id
/-- OWD_TIMEOUT. -/
def execOwdTimeout (s : State) : Outcome := act s State.owdTimeout

end Sys2Proof.Machine
end

