-- ==== Sys2Proof/Machine/MemEvents.lean ====
section
/-! DEFINITION. What happens in the coded memories beside accesses (chapter 17): Skim, write-backs, strikes and the
reading of the error log. -/

namespace Sys2Proof.Machine

/-! ## Skim (R487 to R489) -/

/-- The shared resource of a memory's cycles: the registry port, stencil memory, or the fabric. -/
def memResource : MemId → Nat
  | .registry => 0
  | .stencil => 3
  | _ => 4

/-- Skim runs on a memory. -/
def State.skimOn (s : State) (m : MemId) : Bool :=
  s.phase == .run && testBit (s.getF Reg.memintCtrlSkimEn) m.code && s.domain m.domain == .on

/-- Skim has read a word (R487, R488). -/
def State.skimWord (s : State) (m : MemId) (w : Nat) : State :=
  match s.wordMark m w with
  | .clean => s
  | .correctable sym _ =>
    ((((s.setMark m w .clean).cancelWriteBack m w).addSat (Reg.memCe m.code) 1).logErr m w 0 .skim sym).raise 96
  | .poisoned => s.addWrap (Reg.memPartialPoisonSeen m.code) 1
  | .uncorrectable =>
    let s := (((s.setMark m w .poisoned).addSat (Reg.memUeLatent m.code) 1).logErr m w 3 .skim 0x7F).raise 98
    if m == .registry && w % 2 == 0 then s.suspend (w / 2) else s

/-- The tick at which the present lap of a memory read word 0. -/
def State.lapStart (s : State) (m : MemId) : Nat := mapGet 0 m.code s.memint.lapStart

/-- Skim passes the last word of a memory (R489). -/
def State.skimLap (s : State) (m : MemId) : State :=
  let ms := (s.drone.ticks - s.lapStart m) / 245760
  ((s.setF (Reg.memSkimLapMs m.code) (min ms 65535)).addWrap (Reg.memSkimLaps m.code) 1).raise 102

/-- Skim reads the next word of a memory, charged to SKIM, in a cycle that no other class requests (R409, R488). -/
def State.skimRead (m : MemId) (s : State) : State :=
  if !s.skimOn m || s.othersAsk (memResource m) then s
  else
    let a := s.ask 7 (memResource m) 1
    if !a.2 then a.1
    else
      let s := a.1
      let w := s.getF (Reg.skimPos m.code)
      let s := if w = 0 then
          { s with memint := { s.memint with lapStart := mapSet 0 m.code s.drone.ticks s.memint.lapStart } }
        else s
      let s := s.skimWord m w
      if m.words ≤ w + 1 then (s.skimLap m).setF (Reg.skimPos m.code) 0 else s.setF (Reg.skimPos m.code) (w + 1)

/-- A write of MEMINT.CTRL.SKIM_EN: a 1 written restarts Skim from word 0 (R489). -/
def State.skimEnable (s : State) (mask : Nat) : State :=
  (s.setF Reg.memintCtrlSkimEn mask).each (maskList 6 mask) fun s m => s.setF (Reg.skimPos m) 0

/-! ## Write-backs (R482) -/

/-- The corrected codeword of a word is written back. -/
def State.writeBack (s : State) (m : MemId) (w : Nat) : State :=
  match s.wordMark m w with
  | .correctable _ _ => (s.setMark m w .clean).cancelWriteBack m w
  | _ => s.cancelWriteBack m w

/-- The write-back that has waited longest in a memory lands. -/
def State.nextWriteBack (m : MemId) (s : State) : State :=
  match s.memint.writeBacks.find? fun x => x.1 == m.code with
  | some x => s.writeBack m x.2
  | none => s

/-! ## Strikes (R476 to R478) -/

/-- Error patterns of symbols, put together: rising symbols, no pattern 0. -/
def joinErrs (l : List (Nat × Nat)) : List (Nat × Nat) :=
  l.foldl (fun m x => mapSet 0 x.1 (mapGet 0 x.1 m ^^^ x.2) m) []

/-- 32 bytes with errors in their data symbols; symbols from 64 on hold check bits. -/
def errData (l : List (Nat × Nat)) (d : List Byte) : List Byte :=
  ((List.range 32).zip d).map fun x =>
    x.2 ^^^ BitVec.ofNat 8 (mapGet 0 (2 * x.1) l + 16 * mapGet 0 (2 * x.1 + 1) l)

/-- Errors in three or more symbols, or in a damaged word: what the word decodes as then is free (R478). -/
def State.strikeFree (s : State) (m : MemId) (w : Nat) (d : List Byte) : State :=
  let v := s.draw
  let s := v.2
  let n := v.1
  let put (s : State) (d : List Byte) (k : Mark) : State :=
    (s.setMem m ((s.mem m).setBytes (32 * w) d)).setMark m w k
  match n % 4 with
  | 0 => put s d .clean
  | 1 =>
    let sym := n / 4 % 68
    let err := n / 272 % 15 + 1
    put s (errData [(sym, err)] d) (.correctable sym err)
  | 2 => put s d .uncorrectable
  | _ => put s d .poisoned

/-- A strike adds error patterns to symbols of a stored codeword. A write-back that waits for the word lands first. -/
def State.strike (m : MemId) (w : Nat) (errs : List (Nat × Nat)) (s : State) : State :=
  if s.domain m.domain = .off then s
  else
    let s := if s.memint.writeBacks.contains (m.code, w) then s.writeBack m w else s
    let d := s.rawBytes m (32 * w) 32
    let put (s : State) (d : List Byte) (k : Mark) : State :=
      (s.setMem m ((s.mem m).setBytes (32 * w) d)).setMark m w k
    let code (old : List (Nat × Nat)) : State :=
      match joinErrs (old ++ errs) with
      | [] => put s d .clean
      | [(sym, err)] => put s d (.correctable sym err)
      | [a, b] => put s (errData [a, b] d) .uncorrectable
      | l => s.strikeFree m w (errData l d)
    match s.wordMark m w with
    | .clean => code []
    | .correctable sym err => code [(sym, err)]
    | _ => if (joinErrs errs).isEmpty then s else s.strikeFree m w (errData (joinErrs errs) d)

/-! ## The error log (R492) -/

/-- A read of LOG_ADDR latches the head record. -/
def State.logLatch (s : State) : State :=
  match s.memint.log with
  | [] => s
  | e :: _ =>
    ((((s.setF Reg.logInfoMem e.mem).setF Reg.logInfoKind e.kind).setF Reg.logInfoReq e.req).setF Reg.logInfoSymbol
      e.symbol).setF Reg.logTimeShort e.time

/-- POP removes the head record. -/
def State.logPop (s : State) : State := { s with memint := { s.memint with log := s.memint.log.drop 1 } }

/-! ## The meanings -/

/-- The memory of an operand. -/
def memOf (m : Fin 6) : MemId := (memOfCode m.val).getD .registry

/-- SKIM_READ. -/
def execSkimRead (m : Fin 6) (s : State) : Outcome := act s (State.skimRead (memOf m))
/-- CE_WRITEBACK. -/
def execCeWriteback (m : Fin 6) (s : State) : Outcome := act s (State.nextWriteBack (memOf m))
/-- PARTICLE_STRIKE: a word that its memory does not have is a fault. -/
def execParticleStrike (m : Fin 6) (word : BitVec 20) (errs : List (Fin 68 × BitVec 4)) (s : State) : Outcome :=
  if (memOf m).words ≤ word.toNat then .fault .noSuchWord
  else act s (State.strike (memOf m) word.toNat (errs.map fun x => (x.1.val, x.2.toNat)))

end Sys2Proof.Machine
end

