-- ==== Sys2Proof/Machine/Ptp.lean ====
section
/-! DEFINITION. PTP frames, the transmit timestamp queue, the increment and the 1PPS pins (chapter 13). -/

namespace Sys2Proof.Machine

/-! ## The increment (R379, R387) -/

/-- The nominal increment and its largest departure (R379). -/
def incNominal : Nat := 0x411AAAAAB
def incSpan : Nat := 1747627

/-- A write of INC_HI applies it with the last value written to INC_LO, clamped (R379, R387). -/
def State.applyInc (s : State) (hi : Nat) : State :=
  let v := max (incNominal - incSpan) (min (incNominal + incSpan) (hi % 256 * 2 ^ 32 + s.time.incLoBuf))
  (s.setF Reg.incHi (v / 2 ^ 32)).setF Reg.incLo (v % 2 ^ 32)

/-! ## Received frames (R394 to R397) -/

/-- The bytes of a capture-memory ring slot of 256 bytes. -/
def slotByte (base i : Nat) : Nat := (base + 256 * i) % captureBytes

/-- The header and frame of a receive slot (R396). -/
def rxSlot (ns : Nat) (valid tagged : Bool) (frame : List Byte) : List Byte :=
  leBytes 6 (ns / 1000000000) ++ leBytes 2 0 ++ leBytes 4 (ns % 1000000000) ++ leBytes 2 frame.length ++
    leBytes 1 (bit (decide (240 < frame.length)) + 2 * bit tagged + 4 * bit (!valid)) ++ leBytes 1 0 ++ fit 240 frame

/-- A frame carries an IEEE 802.1Q tag. -/
def frameTagged (f : List Byte) : Bool := slice 12 2 f == [0x81, 0x00]

/-- The device takes a PTP frame: its address and its VLAN tag (R322, R394). -/
def State.ptpAccepted (s : State) (f : List Byte) : Bool :=
  let dst := ofBe (slice 0 6 f)
  let tagged := frameTagged f
  let vlanOk : Bool := if s.flag Reg.linkCtrlVlanEn then tagged && ofBe (slice 14 2 f) % 4096 == s.getF Reg.linkVlanVid
    else !tagged
  (dst == 0x011B19000000 || dst == 0x0180C200000E || dst == Config.linkMac.toNat) && vlanOk &&
    slice (if tagged then 16 else 12) 2 f == [0x88, 0xF7]

/-- Drop a received frame. -/
def State.ptpDrop (s : State) : State := s.addSat (Reg.ptpCount 1) 1

/-- The receive ring can be written now: the fabric runs and HOSTACC has grains (R397). -/
def State.ptpReady (s : State) : Bool := s.dev != .lightHold && s.covers 10 4 8

/-- Write a held frame to the next slot of the receive ring (R396). -/
def State.ptpWrite (s : State) (ns : Nat) (valid : Bool) (f : List Byte) : State :=
  let w := s.getF Reg.ptpRxWptr
  let s := s.writeBytes .capture .fronthaul (slotByte (s.getF Reg.ptpRxBase) w) (rxSlot ns valid (frameTagged f) f)
  s.setF Reg.ptpRxWptr ((w + 1) % s.getF Reg.ptpRxLen)

/-- The receive ring has no free slot, or no slot at all. -/
def State.ptpFull (s : State) : Bool :=
  let len := s.getF Reg.ptpRxLen
  len == 0 || (s.getF Reg.ptpRxWptr + 1) % len == s.getF Reg.ptpRxRptr

/-- Write the held frames in arrival order while writing is possible (R397). -/
def State.ptpPump (s : State) : Nat → State
  | 0 => s
  | n + 1 =>
    match s.time.ptpHeld with
    | [] => s
    | f :: t =>
      if s.dev = .lightHold then s
      else if s.ptpFull then (({ s with time := { s.time with ptpHeld := t } } : State).ptpDrop).ptpPump n
      else
        let a := s.ask 10 4 8
        if !a.2 then a.1
        else (({ a.1 with time := { a.1.time with ptpHeld := t } } : State).ptpWrite f.1 f.2.1 f.2.2).ptpPump n

/-- A timestamp with a signed board correction (R395). -/
def State.stamp (s : State) (adj : Fld) : Nat := ((s.nowNs : Int) + toSigned 16 (s.getF adj)).toNat

/-- PTP_FRAME: a frame from its destination address to the end of its payload (R321, R394 to R397). Frames that are held
and can be written leave their places first. -/
def State.ptpFrame (f : List Byte) (s : State) : State :=
  if !s.linkUp then s
  else if s.maxFrame < f.length + 4 then s.addSat (Reg.linkCount 8) 1
  else if !s.ptpAccepted f || !s.flag Reg.ptpCtrlRxEn then s
  else
    let s := (s.addWrap (Reg.ptpCount 0) 1).ptpPump 17
    if 16 ≤ s.time.ptpHeld.length then s.ptpDrop
    else
      let x := (s.stamp Reg.tsAdjRxAdj, s.timeValid, f)
      ({ s with time := { s.time with ptpHeld := s.time.ptpHeld ++ [x] } }).ptpPump 17

/-! ## Sent frames and the timestamp queue (R398, R399) -/

/-- Append a transmit timestamp (R399). -/
def State.txtsPush (s : State) (ident : Nat) : State :=
  if 8 ≤ s.time.txts.length then (s.raise 24).addSat (Reg.ptpCount 4) 1
  else { s with time := { s.time with txts := s.time.txts ++ [(ident, s.stamp Reg.tsAdjTxAdj)] } }

/-- The frame of a slot as it is sent: LINK.MAC as its source, the VLAN tag, and padding (R322, R398). -/
def State.ptpTxFrame (s : State) (f : List Byte) : List Byte :=
  let head := f.take 6 ++ beBytes 6 Config.linkMac.toNat
  let tag := if s.flag Reg.linkCtrlVlanEn then
      beBytes 2 0x8100 ++ beBytes 2 (s.getF Reg.linkVlanPcp * 8192 + s.getF Reg.linkVlanVid) else []
  let all := head ++ tag ++ f.drop 12
  all ++ List.replicate (60 - all.length) 0

/-- The reserved bytes of a slot are zero and its LENGTH is in range (R398). -/
def txSlotOk (d : List Byte) : Bool :=
  let len := leAt 0 2 d
  decide (14 ≤ len) && decide (len ≤ 240) && decide (leAt 2 1 d ≤ 1) && leAt 3 1 d == 0 && leAt 6 10 d == 0

/-- PTP_TX_SLOT (R398). -/
def State.ptpTxSlot (s : State) : State :=
  let len := s.getF Reg.ptpTxLen
  let r := s.getF Reg.ptpTxRptr
  if !s.linkUp || s.dev == .lightHold || !s.flag Reg.ptpCtrlTxEn || len == 0 || r == s.getF Reg.ptpTxWptr then s
  else
    let a := s.ask 10 4 8
    if !a.2 then a.1
    else
    let x := a.1.readBytes .capture .fronthaul (slotByte (s.getF Reg.ptpTxBase) r) 256
    let d := x.2.1
    let s := x.1.setF Reg.ptpTxRptr ((r + 1) % len)
    if !x.2.2 || !txSlotOk d then s.addSat (Reg.ptpCount 3) 1
    else
      let f := s.ptpTxFrame (slice 16 (leAt 0 2 d) d)
      let s := (s.sendMsg (s.ptpMsg (ofBe (f.take 6)) f)).addWrap (Reg.ptpCount 2) 1
      if testBit (leAt 2 1 d) 0 then s.txtsPush (leAt 4 2 d) else s

/-- A read of TXTS_ID latches the head entry (R399). -/
def State.txtsLatch (s : State) : State :=
  match s.time.txts with
  | [] => s
  | e :: _ =>
    ((s.setF Reg.txtsNs (e.2 % 1000000000)).setF Reg.txtsSecLo (e.2 / 1000000000)).setF Reg.txtsSecHi
      (e.2 / 1000000000 / 2 ^ 32)

/-- A write of 1 to TXTS_CTRL.POP removes the head (R399). -/
def State.txtsPop (s : State) : State := { s with time := { s.time with txts := s.time.txts.drop 1 } }

/-! ## 1PPS (R400, R401) -/

/-- PPS_OUT_OFFSET, clamped. -/
def State.ppsOffset (s : State) : Int := clampInt (-999999999) 999999999 (toSigned 32 (s.getF Reg.ppsOutOffset))

/-- The whole second plus the offset at which PPS_OUT rises next: one that falls in the present tick, unless PPS_OUT has
risen in it, else the next. -/
def State.ppsInstant (s : State) : Nat :=
  let off := s.ppsOffset
  let k : Int := ((s.nowNs : Int) - off) / 1000000000
  let here := k * 1000000000 + off
  if (s.time.now : Int) < here * 2 ^ 32 + s.inc ∧ s.time.ppsRose ≠ s.drone.ticks + 1 then here.toNat
  else ((k + 1) * 1000000000 + off).toNat

/-- PPS_OUT rises at the next whole second plus the offset (R400). -/
def State.ppsRise (s : State) : State :=
  if s.phase != .run || !s.flag Reg.ppsOutEn || !s.timeValid then s
  else
    s.reachNs s.ppsInstant fun s =>
    { s with time := { s.time with
      ppsOut := s.drone.ticks + nsTicks (1000 * max 1 (s.getF Reg.ppsOutWidth))
      ppsRose := s.drone.ticks + 1 } }

/-- PPS_OUT is high. -/
def State.ppsOutHigh (s : State) : Bool :=
  s.flag Reg.ppsOutEn && s.timeValid && decide (s.drone.ticks < s.time.ppsOut)

/-- The divider of the recovered clock of lane 0 on RECCLK_OUT; 0 while the pin is held low (R402). -/
def State.recclkDiv (s : State) : Nat :=
  if !testBit (s.getF Reg.linkStatusLaneAligned) 0 then 0
  else match s.getF Reg.recclkDiv with
    | 0 => 0
    | 1 => 165
    | 2 => 160
    | _ => 330

/-- PPS_MISSING: 1.1 s without an accepted edge (R401). -/
def State.ppsMissing (s : State) : State :=
  if s.phase != .run || !s.flag Reg.ppsInEn || s.flag Reg.timeStatusPpsMissing then s
  else s.reach (s.time.ppsWatch + nsTicks 1100000000) fun s => (s.setF Reg.timeStatusPpsMissing 1).raise 26

/-- PTP_FRAME. -/
def execPtpFrame (frame : List Byte) (s : State) : Outcome := act s (State.ptpFrame frame)
/-- PTP_TX_SLOT. -/
def execPtpTxSlot (s : State) : Outcome := act s State.ptpTxSlot
/-- PPS_MISSING. -/
def execPpsMissing (s : State) : Outcome := act s State.ppsMissing
/-- PPS_OUT. -/
def execPpsOut (s : State) : Outcome := act s State.ppsRise

end Sys2Proof.Machine
end

