-- ==== Sys2Proof/Machine/TimeUnit.lean ====
section
/-! DEFINITION. Steps of device time, time compares and the 1PPS input (chapter 13), and the whole of a commit
(chapter 14). -/

namespace Sys2Proof.Machine

/-! ## A commit (R415) -/

/-- Commit: the copying, and what the changed fields do in the blocks that own them. -/
def State.commit (s : State) : State :=
  let t := s.commitFields
  (((t.rxCommit s).txCommit s).spectralCommit s).monitorCommit s

/-! ## Time compares (R388 to R393) -/

/-- PERIOD, clamped (R388). -/
def State.cmpPeriod (s : State) (k : Nat) : Nat := max 1000 (min 2147483647 (s.getF (Reg.cmpPeriod k)))

/-- The span of the boundaries of a FRET or BAR compare in ns. -/
def cmpSpan (mode : Nat) : Nat := if mode = 2 then 250000 else 10000000

/-- OFFSET of a FRET or BAR compare, clamped (R388). -/
def State.cmpOffset (s : State) (k mode : Nat) : Nat := min (s.getF (Reg.cmpValue k)) (cmpSpan mode - 1)

/-- The number of the first boundary whose instant, OFFSET included, lies after the present. -/
def State.cmpNext (s : State) (k mode : Nat) : Nat :=
  let o := s.cmpOffset k mode
  if s.nowNs < o then 0 else (s.nowNs - o) / cmpSpan mode + 1

/-- The number of the boundary at which a FRET or BAR compare fires next. -/
def State.cmpDue (s : State) (k : Nat) : Nat := mapGet 0 k s.time.cmpFired

/-- Set that number. -/
def State.setDue (s : State) (k n : Nat) : State :=
  { s with time := { s.time with cmpFired := mapSet 0 k n s.time.cmpFired } }

/-- Set the instant in ns at which a ONE_SHOT or PERIODIC compare fires next. -/
def State.setCmpAt (s : State) (k n : Nat) : State :=
  { s with time := { s.time with cmpAt := mapSet 0 k n s.time.cmpAt } }

/-- The instant at which short time comes to VALUE. -/
def State.cmpAhead (s : State) (k : Nat) : Nat := s.nowNs + (s.getF (Reg.cmpValue k) + 2 ^ 32 - s.short) % 2 ^ 32

/-- VALUE is judged: one that lies at or up to 2.147 s before short time fires in the next tick (R389). -/
def State.cmpJudged (s : State) (k : Nat) : Nat :=
  if 0 ≤ shortDiff s.short (s.getF (Reg.cmpValue k)) then s.tickNs (s.drone.ticks + 1) else s.cmpAhead k

/-- A write that arms a compare, or moves the VALUE or OFFSET of an armed one (R389). -/
def State.cmpArmed (s : State) (k : Nat) : State :=
  let mode := s.getF (Reg.cmpCtrlMode k)
  if 2 ≤ mode then s.setDue k (s.cmpNext k mode) else s.setCmpAt k (s.cmpJudged k)

/-- The instant in ns at which an armed compare is to fire next. -/
def State.cmpFires (s : State) (k : Nat) : Nat :=
  let mode := s.getF (Reg.cmpCtrlMode k)
  if 2 ≤ mode then s.cmpDue k * cmpSpan mode + s.cmpOffset k mode else mapGet 0 k s.time.cmpAt

/-- The instant in ns at which an armed compare fires next; one that it has passed is the present. -/
def State.cmpInstant (s : State) (k : Nat) : Nat := max s.nowNs (s.cmpFires k)

/-- An instant, taken to the fret boundary where that falls in the same tick: what happens in the tick of a boundary
comes after the boundary's own actions (R391). -/
def State.afterFret (s : State) (ns : Nat) : Nat :=
  if s.ticksTo s.nextFretNs ≤ s.ticksTo ns then max ns s.nextFretNs else ns

/-- The consumers that name a compare are triggered (R390); in Light Hold they are gated, retained or Off (R20). -/
def State.cmpConsumers (s : State) (k : Nat) : State :=
  if s.dev == .lightHold then s
  else
  let s := ((s.capTriggers (8 + k)).synEdges (8 + k)).selectEdges (8 + k)
  let s := s.hkEdge (8 + k)
  if s.commitDue (8 + k) then s.commit else s

/-- A compare fires; a PERIODIC one goes on by `n` PERIODs (R388, R390). -/
def State.cmpFire (s : State) (k n : Nat) : State :=
  let mode := s.getF (Reg.cmpCtrlMode k)
  let s := s.raise (16 + k)
  let s := match mode with
    | 0 => s.setF (Reg.cmpCtrlArm k) 0
    | 1 => (s.setF (Reg.cmpValue k) (s.getF (Reg.cmpValue k) + s.cmpPeriod k * n)).cmpArmed k
    | _ => s.setDue k (s.cmpNext k mode)
  s.cmpConsumers k

/-- TIME_COMPARE: device time is carried to the compare's instant and it fires, unless a fret boundary lies before
it. -/
def State.timeCompare (k : Nat) (s : State) : State :=
  if s.phase != .run || !s.flag (Reg.cmpCtrlArm k) || !s.timeValid then s
  else s.reachNs (s.afterFret (s.cmpInstant k)) fun s => s.cmpFire k 1

/-- A write to a compare's registers leaves a firing of the same tick as it was: the compare fires first (R392). -/
def State.cmpBefore (s : State) (k : Nat) : State :=
  if s.phase == .run && s.flag (Reg.cmpCtrlArm k) && s.timeValid && decide (s.cmpFires k ≤ s.nowNs) &&
      !s.beyondFret s.nowNs then s.cmpFire k 1
  else s

/-! ## Steps (R383 to R386, R393) -/

/-- An armed compare that fires in T_s of a step: it was to fire by then, or a step forward passes its VALUE (R393). -/
def State.cmpPassed (s : State) (k new : Nat) : Bool :=
  s.flag (Reg.cmpCtrlArm k) && decide (s.cmpFires k ≤ if s.getF (Reg.cmpCtrlMode k) < 2 then max s.nowNs new else s.nowNs)

/-- The whole PERIODs by which a PERIODIC compare goes on that a step to `new` passes: until VALUE is later than the new
short time (R393). -/
def State.cmpSteps (s : State) (k new : Nat) : Nat :=
  let late := s.nowNs - (shortDiff s.short (s.getF (Reg.cmpValue k))).toNat
  let v := if s.cmpFires k ≤ s.tickNs (s.drone.ticks + 1) then min (s.cmpFires k) late else s.cmpFires k
  (new - v) / s.cmpPeriod k + 1

/-- The armed compares after a step: those that have fired in it are done; where device time was INVALID each is judged
afresh, otherwise the others wait for their VALUE or their next boundary (R386, R393). -/
def State.cmpFollow (s : State) (fresh : Bool) (k : Nat) : State :=
  if !s.flag (Reg.cmpCtrlArm k) then s
  else if fresh || decide (2 ≤ s.getF (Reg.cmpCtrlMode k)) then s.cmpArmed k
  else s.setCmpAt k (s.cmpAhead k)

/-- Symbol starts follow device time: the next of each carrier is the first after the new time, and the uplink symbols in
progress end there (R386). -/
def State.symbolsFollow (s : State) : State :=
  let s := { s with spectral := { s.spectral with symbols := (List.range 8).map fun k => (k, s.nowNs + 1) } }
  s.each (List.range 4) fun s c =>
    match s.latched c with
    | [] => s
    | y :: t =>
      if y.start + y.span ≤ s.pathSample then s
      else
        let stop := sampleAt (s.drone.ticks + s.ticksTo (s.nextSymbol 0 c).ns)
        { s with spectral := { s.spectral with
          latched := mapSet [] c ({ y with span := stop - y.start } :: t) s.spectral.latched } }

/-- The step of device time in T_s, to units of 2^-32 ns: the boundaries, symbols and compares follow the new time. -/
def State.stepTime (s : State) (units : Nat) : State :=
  let fresh := !s.timeValid
  let new := units / 2 ^ 32
  let passed := if fresh then []
    else ((List.range 8).filter fun k => s.cmpPassed k new).map fun k => (k, s.cmpSteps k new)
  let s := ({ s with
    time := { s.time with now := units, fret := units / 2 ^ 32 / 250000 }
    sched := { s.sched with prep := [], staleFrom := some 0 } }).symbolsFollow
  let s := s.raise 25
  let s := if fresh then s.setF Reg.timeStatusState 1
    else if s.getF Reg.timeStatusState = 2 then s.setF Reg.timeStatusStepUsed 1 else s
  let s := s.each passed fun s x => s.cmpFire x.1 x.2
  s.each ((List.range 8).filter fun k => !passed.any fun x => x.1 == k) fun s k => s.cmpFollow fresh k

/-- Why a step is refused (R383): the REASON, if it is. -/
def State.stepRefused (s : State) (set : Bool) : Option Nat :=
  match s.getF Reg.timeStatusState with
  | 0 => if set then none else some 23
  | 2 => if s.flag Reg.timeStatusStepUsed then some 22 else none
  | _ => none

/-- BARE, UNLATHED, LATHED or FAULT. -/
def stepStates : DevState → Bool := fun d => d == .bare || d == .unlathed || d == .lathed || d == .fault

/-- Device time of a TIME_SET's arguments in ns. -/
def State.setNs (s : State) : Nat := (s.argW 0 + s.argW 1 % 65536 * 2 ^ 32) * 1000000000 + s.argW 2

/-- TIME_SET (0x18). -/
def timeSetSpec : CmdSpec where
  opcode := 0x18
  states := stepStates
  role := roleKeylessIO
  argOk s := decide (s.argW 2 < 1000000000) && (s.argW 3 == 0 || (s.argW 3 == 1 && s.flag Reg.ppsInEn))
  classes := []
  usesPath := false
  run _ s :=
    if s.startPending then s.complete .busy
    else match s.stepRefused true with
    | some r => s.completeFail r
    | none =>
      if s.argW 3 = 1 then { s with job := some (.timeSetPps s.setNs s.drone.ticks) }
      else ((s.passTicks 1).stepTime (s.setNs * 2 ^ 32)).completeDone [0]

/-- The signed OFFSET of a TIME_STEP in ns. -/
def State.stepOffset (s : State) : Int := toSigned 32 (s.argW 0)

/-- TIME_STEP (0x19). -/
def timeStepSpec : CmdSpec where
  opcode := 0x19
  states := stepStates
  role := roleKeylessIO
  argOk s :=
    let t : Int := (s.nowNs : Int) + s.stepOffset
    decide (0 ≤ t) && decide (t < 2 ^ 48 * 1000000000)
  classes := []
  usesPath := false
  run _ s :=
    if s.startPending then s.complete .busy
    else match s.stepRefused false with
      | some r => s.completeFail r
      | none =>
        let t := s.passTicks 1
        (t.stepTime ((t.time.now : Int) + s.stepOffset * 2 ^ 32).toNat).completeDone [0]

/-- TIME_LOCK (0x1A). -/
def timeLockSpec : CmdSpec where
  opcode := 0x1A
  states := notLightHold
  role := roleIO
  argOk _ := true
  classes := []
  usesPath := false
  run _ s :=
    match s.getF Reg.timeStatusState with
    | 0 => s.completeFail 23
    | 1 => ((s.setF Reg.timeStatusState 2).setF Reg.timeStatusStepUsed 0).completeDone [0]
    | _ => s.completeDone [0]

/-- TIME_UNLOCK (0x1B). -/
def timeUnlockSpec : CmdSpec where
  opcode := 0x1B
  states := notLightHold
  role := roleIO
  argOk _ := true
  classes := []
  usesPath := false
  run _ s := (if s.getF Reg.timeStatusState = 2 then s.setF Reg.timeStatusState 1 else s).completeDone []

/-! ## The 1PPS input (R385, R401) -/

/-- Ticks of 900 ms. -/
def ppsGap : Nat := nsTicks 900000000

/-- A rising edge on PPS_IN. -/
def State.ppsEdge (s : State) : State :=
  if s.phase != .run || !s.flag Reg.ppsInEn then s
  else if s.time.ppsSeen && s.drone.ticks < s.time.ppsTick + ppsGap then s.addSat (Reg.ptpCount 5) 1
  else
    let s := match s.job with
      | some (.timeSetPps ns _) =>
        if s.startPending then s.complete .busy else (s.stepTime (ns * 2 ^ 32)).completeDone [0]
      | _ => s
    let s := { s with time := { s.time with
      ppsTick := s.drone.ticks, ppsSeen := true, ppsWatch := s.drone.ticks, ppsSecLatch := s.nowNs / 1000000000 } }
    ((s.setF Reg.ppsInNs (s.nowNs % 1000000000)).addWrap Reg.ppsInCount 1).setF Reg.timeStatusPpsMissing 0

/-- A read of PPS_IN_NS latches PPS_IN_SEC. -/
def State.ppsLatch (s : State) : State :=
  (s.setF Reg.ppsInSecLo (s.time.ppsSecLatch % 2 ^ 32)).setF Reg.ppsInSecHi (s.time.ppsSecLatch / 2 ^ 32)

/-- A read of NOW_NS latches NOW_SEC and NOW_FRAC. -/
def State.nowLatch (s : State) : State :=
  let sec := s.nowNs / 1000000000
  ((s.setF Reg.nowSecLo (sec % 2 ^ 32)).setF Reg.nowSecHi (sec / 2 ^ 32)).setF Reg.nowFrac (s.time.now % 2 ^ 32)

/-- A write that sets PPS.IN_EN starts the watch for a missing edge. -/
def State.ppsEnabled (s : State) : State :=
  { s with time := { s.time with ppsWatch := s.drone.ticks } }

/-- TIME_SET_NO_PPS: 1.1 s without an accepted edge. -/
def State.timeSetNoPps (s : State) : State :=
  match s.job with
  | some (.timeSetPps _ t) => s.reach (t + nsTicks 1100000000) fun s => s.completeFail 24
  | _ => s

/-! ## The meanings -/

/-- TIME_SET. -/
def execTimeSet (p : Port) (s : State) : Outcome := act (s.framed p) (timeSetSpec.issue p)
/-- TIME_STEP. -/
def execTimeStep (p : Port) (s : State) : Outcome := act (s.framed p) (timeStepSpec.issue p)
/-- TIME_LOCK. -/
def execTimeLock (p : Port) (s : State) : Outcome := act (s.framed p) (timeLockSpec.issue p)
/-- TIME_UNLOCK. -/
def execTimeUnlock (p : Port) (s : State) : Outcome := act (s.framed p) (timeUnlockSpec.issue p)
/-- TIME_COMPARE. -/
def execTimeCompare (k : Fin 8) (s : State) : Outcome := act s (State.timeCompare k.val)
/-- PPS_IN_EDGE. -/
def execPpsInEdge (s : State) : Outcome := act s State.ppsEdge
/-- TIME_SET_NO_PPS. -/
def execTimeSetNoPps (s : State) : Outcome := act s State.timeSetNoPps

end Sys2Proof.Machine
end

