-- ==== Sys2Proof/Machine/States.lean ====
section
/-! DEFINITION. Service start and stop, Doze, Light Hold and Deep Hold (chapter 03): their commands, the needs and the
decision of the Doze controller, the entries and the wakes; and the sag policy (chapter 16). -/

namespace Sys2Proof.Machine

/-! ## Analog halves in LATHED (R73, R175) -/

/-- Raise an analog half on entry into LATHED: its synthesizers lock for the first time, and its receive decimators are
reset (R125, R175). -/
def State.raiseHalf (s : State) (h : Nat) : State :=
  if s.analogOn h then s
  else
    let s := s.switchAnalog h true
    if !s.analogOn h then s
    else (s.each [2 * h, 2 * h + 1] fun s x => s.synStart x (s.synFirstChannel x) false true).syncHalf h

/-- An entry into LATHED, from service, a load or Light Hold: PLUMB_REF and a measurement of the ageing monitors are owed
again (R430, R446). -/
def State.owedAgain (s : State) : State := s.setCalState fun c => { c with plumbDone := false, agedBar := none }

/-- What an entry into LATHED brings: the analog halves rise, latched tile changes are handled, IDLE paths of tiles that
are UP are prepared, and PLUMB_REF and a measurement of the ageing monitors are owed again (R73, R188, R194, R430, R446).
-/
def State.onLathed (s : State) : State :=
  let s := ((s.raiseHalf 0).raiseHalf 1).tilesUnlatch
  let s := s.each (List.range 64) fun s p => if s.tileState (p / 8) = tileUp then s.prepare p else s
  s.owedAgain

/-- Change the Doze controller's state. -/
def State.setDoze (s : State) (f : DozeState → DozeState) : State := { s with doze := f s.doze }

/-! ## Sag stages (R470, R471, R473) -/

/-- The sag policy acts: ENABLE is 1, and the state is not LIGHT_HOLD or MAKER (R473). -/
def State.sagActs (s : State) : Bool :=
  s.phase == .run && s.flag Reg.sagCtrlEnable && s.dev != .lightHold && s.dev != .maker

/-- The stage changes: EV_116, ENTRIES as it leaves 0, and the attenuation follows (R143, R470). -/
def State.sagStage (s : State) (n : Nat) : State :=
  if s.getF Reg.sagStatusStage = n then s
  else
    let s := s.when (s.getF Reg.sagStatusStage == 0) fun s => s.addSat Reg.sagStatusEntries 1
    ((s.setF Reg.sagStatusStage n).raise 116).triggerTx

/-- The stage rises to at least `n`. -/
def State.sagRise (s : State) (n : Nat) : State := s.sagStage (max n (s.getF Reg.sagStatusStage))

/-- SAG_N is shown, and while it is low the stage is at least 3. -/
def State.sagJudge (s : State) : State :=
  let s := if s.reached .monitor then s.setFlag Reg.sagStatusSagN s.drone.sagLow else s
  if s.sagActs && s.drone.sagLow then s.sagRise 3 else s

/-- The threshold of a stage in codes of the feed channel; 0 is never met. -/
def State.sagLevel (s : State) (k : Nat) : Nat :=
  s.getF (match k with | 1 => Reg.sagLevels0Sag1 | 2 => Reg.sagLevels0Sag2 | _ => Reg.sagLevels1Sag3)

/-- PERSIST conversions at or below the threshold of a stage end a list of feed conversions, oldest first. -/
def State.sagMet (s : State) (codes : List Nat) (k : Nat) : Bool :=
  let n := max 1 (s.getF Reg.sagCtrlPersist)
  s.sagLevel k != 0 && decide (n ≤ codes.length) && (codes.drop (codes.length - n)).all fun c => decide (c ≤ s.sagLevel k)

/-- SAG_STAGE_ENTRY: feed conversions that meet the entry condition of a stage. -/
def State.sagEntry (codes : List Nat) (s : State) : State :=
  if !s.sagActs then s
  else match [3, 2, 1].find? fun k => s.sagMet codes k with
    | some k => s.sagRise k
    | none => s

/-! ## Service (R87 to R90) -/

/-- Device time is valid and every path is READY or FENCED; sag stage 3 and above refuse a start, and so does a follow that
is not SYNCED (R87, R366, R470). -/
def State.startReady (s : State) : Bool :=
  s.timeValid && !(s.getF Reg.bridgeRole == roleFollow && !s.flag Reg.bridgeStatusSynced) && decide (s.getF Reg.sagStatusStage < 3) &&
    (List.range 64).all fun p => s.path p == pathReady || s.path p == pathFenced

/-- A bar that START_BAR or TARGET_BAR may name: later than the present one, and at most 256 ahead (R55). -/
def State.barAhead (s : State) (bar : Nat) : Bool := decide (0 < barDiff bar s.bar) && decide (barDiff bar s.bar ≤ 256)

/-- The bar of a START_BAR of 0: the next, or the one after it within the last fret (R88). -/
def State.nextStartBar (s : State) : Nat :=
  let b := s.bar + 1
  (if s.withinFret (s.barBoundary b) then b + 1 else b) % 2 ^ 32

/-- A start of this chip is to be passed to the twin (R89). A START_BAR that the twin has passed needs it no more, and a
follow that joins a lead in SERVICE or DOZE takes the lead's agreement as given (R366). -/
def State.startAsks (s : State) (bar : Nat) : Bool :=
  let peer := s.getF Reg.bridgeStatusPeerState
  s.inPair && s.bridge.passedStart != some bar &&
    !(s.getF Reg.bridgeRole == roleFollow && (peer == DevState.service.code || peer == DevState.doze.code))

/-- SERVICE_START (0x01). -/
def serviceStartSpec : CmdSpec where
  opcode := 0x01
  states d := d == .lathed
  role := roleO
  argOk s := s.argW 0 == 0 || s.barAhead (s.argW 0)
  classes := []
  usesPath := false
  run _ s :=
    if !s.startReady then s.completeFail reasonNotReady
    else
      let bar := if s.argW 0 = 0 then s.nextStartBar else s.argW 0
      let s := s.undo
      if s.startAsks bar then
        ({ s with job := some (.serviceStart bar false) }).sendAgree 0 (startAgreement bar)
      else { s with job := some (.serviceStart bar true) }

/-- SERVICE_STOP (0x02): it waits for the next fret boundary. -/
def serviceStopSpec : CmdSpec where
  opcode := 0x02
  states d := d == .service || d == .doze
  role := roleIO
  argOk _ := true
  classes := []
  usesPath := false
  run _ s := { s with job := some .serviceStop }

/-- The device enters SERVICE in a bar boundary's Tc. -/
def State.enterService (s : State) : State :=
  ({ s with bridge := { s.bridge with passedStart := none, autoStart := none } }).toDev .service

/-- Service ends in a fret boundary's Tc (R90): the paths leave service, staging is discarded, and the halves that Doze
idled rise with the entry into LATHED (R175). -/
def State.endService (s : State) : State :=
  let s := s.pathsStop
  let s := { s.dozeRest with sched := { s.sched with prep := [], staleFrom := some 0 } }
  let s := ((s.setF Reg.dozeStatusWestIdle 0).setF Reg.dozeStatusEastIdle 0).setF Reg.dozeStatusWaking 0
  let s := s.setF Reg.dozeStatusLightPending 0
  let s := (s.closeSpans 0 .syncReset (s.pathSample + 64)).closeSpans 1 .syncReset (s.pathSample + 64)
  (s.toDev .lathed).onLathed

/-- A start whose bar begins is taken, or fails (R87 to R89, R471). -/
def State.startsAtBar (s : State) : State :=
  let here (bar : Nat) : Bool := s.absFret % 40 == 0 && bar == s.bar
  let ready := s.dev == .lathed && s.startReady
  let drop (s : State) : State := { s with bridge := { s.bridge with passedStart := none } }
  match s.job, s.bridge.passedStart, s.bridge.autoStart with
  | some (.serviceStart bar agreed), passed, _ =>
    if here bar then
      let s := if passed.any here then drop s else s
      if !ready then s.completeFail reasonNotReady
      else if !agreed then s.completeFail reasonTwinMismatch
      else s.enterService.completeDone [0]
    else if passed.any here then
      if ready then s.enterService else drop s
    else s
  | _, some bar, _ =>
    if !here bar then s
    else if ready then s.enterService
    else drop s
  | _, none, some (bar, agreed) =>
    if !here bar then s
    else if ready && agreed then s.enterService
    else
      ({ s with bridge := { s.bridge with autoStart := none } }).setF Reg.sagStatusRestartFailed 1
  | _, none, none => s

/-- A waiting SERVICE_STOP, or a sag stage of 3 or more, ends service at a fret boundary (R90, R470). -/
def State.stopsAtFret (s : State) : State :=
  let byCommand := s.job == some .serviceStop
  let bySag := s.flag Reg.sagCtrlEnable && decide (3 ≤ s.getF Reg.sagStatusStage)
  if !s.inService || !(byCommand || bySag) then
    if byCommand then s.completeDone [] else s
  else
    let s := s.endService
    let s := if bySag then { s with mon := { s.mon with sagStopped := true } } else s
    if byCommand then s.completeDone [] else s

/-! ## Needs (R91, R98) -/

/-- The smallest of a list of numbers. -/
def minNat (l : List Nat) : Option Nat :=
  l.foldl (fun a n => match a with | none => some n | some m => some (min m n)) none

/-- The first fret at or after `f` that lies in a run of `len` frets from fret `first` of every bar whose number is a
multiple of `period`. Bar numbers wrap (R245). -/
def nextRun (f period first len : Nat) : Option Nat :=
  if period = 0 ∨ len = 0 then none
  else
    let b := f / 40
    let cur := b % 2 ^ 32
    let sb := b - cur % period
    let bars := (if period ≤ sb then [sb - period] else []) ++ [sb, sb + period, b - cur + 2 ^ 32]
    minNat (bars.filterMap fun x =>
      let r := 40 * x + first
      if f ≤ r then some r else if f < r + len then some f else none)

/-- The first protected scan fret at or after a fret (R91). -/
def State.nextScan (s : State) (f : Nat) : Option Nat :=
  nextRun f (s.getF Reg.scanCtrlScanPeriod) (s.getF Reg.scanCtrlScanFirst) (min 40 (s.getF Reg.scanCtrlScanFrets))

/-- The first fret of the Seam schedule at or after a fret (R437). -/
def State.nextSeam (s : State) (f : Nat) : Option Nat :=
  if s.leadOrFollow && s.flag Reg.calCtrlAutoSeam then
    nextRun f (s.getF Reg.seamCtrlPeriod) (s.getF Reg.seamCtrlFret) 1
  else none

/-- The frets to come that a window list or an entry fills. -/
def State.windowFrets (s : State) : List Nat :=
  ((s.sched.prep.filter fun p => !p.wins.isEmpty).map fun p => p.fret.toNat) ++ [s.windowNeed.toNat]

/-- The start of the Seam run of the present fret, or the present instant while it runs: 96 µs to 196 µs after the
boundary (R437). -/
def State.seamNow (s : State) : List Nat :=
  let f := s.absFret * 250000
  if s.nextSeam s.absFret == some s.absFret && decide (s.nowNs < f + 196000) then [max s.nowNs (f + 96000)] else []

/-- The needs to come whose time is fixed, in ns (R98). -/
def State.fixedNeeds (s : State) : List Nat :=
  let next := s.absFret + 1
  let frets := (s.windowFrets.filter fun f => decide (next ≤ f)) ++ (s.nextScan next).toList ++ (s.nextSeam next).toList
  s.seamNow ++ frets.map (· * 250000) ++ (s.fh.accepted.map fun x => x.ns).filter fun n => decide (s.nowNs ≤ n)

/-- A running command uses a path (R92). -/
def Job.usesPath : Job → Bool
  | .waitWake _ => true
  | .pathPrepare _ _ => true
  | .synHop _ _ => true
  | .synCal _ _ => true
  | .aerialTune _ _ _ => true
  | .rxSync _ => true
  | .calRun _ _ => true
  | .pathTest _ _ _ _ => true
  | _ => false

/-- A command, calibration, capture or self-test that uses a path is running. -/
def State.pathBusy (s : State) : Bool :=
  (match s.job with | some j => j.usesPath | none => false) ||
    (List.range 64).any (fun p => s.path p == pathCal) ||
    (List.range 8).any (fun k => s.flag (Reg.capStatusRunning k) || s.flag (Reg.capStatusWaiting k)) ||
    !s.tx.granted.isEmpty || s.tx.obs.any fun x => !x.queue.isEmpty || decide (s.drone.ticks < x.until_)

/-- The instant at which a periodic calibration of a path is due, in ns: `n` bars after its last (none: now). -/
def State.dueNs (s : State) (l : List (Nat × Nat)) (p n : Nat) : Nat :=
  match l.find? fun x => x.1 == p with
  | some x => if barOfNs s.nowNs < x.2 then s.nowNs else max s.nowNs ((x.2 + n) * 10000000)
  | none => s.nowNs

/-- The starts to come of the calibrations of a path that the device schedules by itself: TX_COUPLER and the aerial
checks (R91, R205, R430). -/
def State.calNeeds (s : State) : List Nat :=
  let active := (List.range 64).filter fun p => s.path p == pathActive
  let coupler := if !s.flag Reg.calCtrlAutoCoupler || s.deferred 5 then []
    else active.filter fun p => s.tileState (p / 8) == tileUp
  let aerial := if s.getF Reg.mismatchPeriod = 0 || s.deferred 5 then [] else active.filter fun p => !s.obsBad p
  coupler.map (fun p => s.dueNs s.cal.couplerBars p s.couplerPeriod) ++
    aerial.map fun p => s.dueNs s.aerialBars p (s.getF Reg.mismatchPeriod)

/-- The starts to come of captures, adaptation passes and periodic calibrations, in ns. -/
def State.startNeeds (s : State) : List Nat :=
  ((List.range 8).filterMap fun k =>
    let t := s.getF (Reg.capConfigTrigger k)
    if !s.flag (Reg.capConfigArmed k) then none
    else if t = 1 then some s.nextFretNs
    else if t = 2 then some ((s.nowNs / 10000000 + 1) * 10000000)
    else if 8 ≤ t ∧ t ≤ 15 then (if s.flag (Reg.cmpCtrlArm (t - 8)) then some (s.cmpInstant (t - 8)) else none)
    else none) ++
  (match s.tx.dpd with | some r => [max s.nowNs (r.nextFret * 250000)] | none => []) ++ s.calNeeds

/-- A HOLD_OFF span holds (R111). -/
def State.heldOff (s : State) : Bool :=
  match s.doze.holdOff with
  | some e => decide (s.nowNs < e)
  | none => false

/-- T_need in ns, if there is a need (R91, R92). -/
def State.firstNeed (s : State) : Option Nat :=
  minNat (s.fixedNeeds ++ s.startNeeds ++ if s.pathBusy || s.heldOff then [s.nowNs] else [])

/-! ## The decision (R92, R100, R101, R107) -/

/-- The effective gap in ns (R92). -/
def State.gapNs (s : State) : Nat := max (1000 * s.getF Reg.dozeGapMinGap) (s.leadNs + 10000)

/-- The conditions of R92 hold for an entry at an instant. -/
def State.mayIdle (s : State) (entry : Nat) : Bool :=
  match s.firstNeed with
  | none => true
  | some n => decide (entry + s.gapNs ≤ n)

/-- Light Hold qualifies for an entry at an instant (R100). -/
def State.mayLight (s : State) (entry : Nat) : Bool :=
  s.flag Reg.dozeCtrlLightEnable && s.mayIdle entry &&
    match s.firstNeed with
    | none => true
    | some n => decide (entry + max 8 (s.getF Reg.lightGapGapFrets) * 250000 ≤ n)

/-- The hold compare of an automatic entry: four frets before the fret of T_need (R101). Without a need none is armed:
0. -/
def State.holdCompare (s : State) : Nat :=
  match s.firstNeed with
  | some n => (n / 250000 - 4) * 250000
  | none => 0

/-- Decide a Light Hold entry: at the next fret boundary, or in a pair at the third after this fret's start, once the
follow agrees. -/
def State.decideLight (s : State) (compare : Nat) (commanded : Bool) : State :=
  let alone := !s.inPair
  let f := s.absFret + (if alone then 1 else 3)
  let s := s.setDoze fun d => { d with light := some ⟨f, compare, commanded, alone⟩, entry := none }
  let s := s.setF Reg.dozeStatusLightPending 1
  if alone then s
  else ({ s with bridge := { s.bridge with proposal := some (lightAgreement f compare) } }).sendAgree 0
    (lightAgreement f compare)

/-- The decision of each fret, after the window list of the next one has closed. -/
def State.dozeDecision (s : State) : State :=
  let idle := s.dev == .service || (s.dev == .doze && !s.flag Reg.dozeStatusWaking)
  if !idle || s.doze.light.isSome then s
  else
    let next := s.nextFretNs
    let entry := if s.inPair then (s.absFret + 3) * 250000 else next
    if s.mayLight entry && !(s.inPair && s.getF Reg.bridgeRole != roleLead) then s.decideLight s.holdCompare false
    else if s.dev == .service && s.flag Reg.dozeCtrlEnable && s.mayIdle next then
      s.setDoze fun d => { d with entry := some (s.absFret + 1) }
    else s

/-- WINDOW_LIST_CLOSE: 70 µs after a fret boundary the list of the next fret closes, and the Doze controller decides
(R92, R260). -/
def State.windowListClose (s : State) : State :=
  if !s.schedRuns then s
  else
    let at_ := s.absFret * 250000 + 70000
    s.reachNs (max s.nowNs at_) fun s => s.closeList.dozeDecision

/-! ## Doze (R93 to R99) -/

/-- The half is idled: its KEEP bit is 0 and no present entry of its synthesizers has DRIFT set (R93, R181). -/
def State.idles (s : State) (h : Nat) : Bool :=
  !s.flag (if h = 0 then Reg.dozeCtrlWestKeep else Reg.dozeCtrlEastKeep) &&
    !s.flag (Reg.synStatusDrift (2 * h)) && !s.flag (Reg.synStatusDrift (2 * h + 1))

/-- Show the earliest need of a dozing device, and begin the wake at once if its time has passed (R94, R95). -/
def State.aimWake (s : State) : State :=
  match s.firstNeed with
  | none => s
  | some n => s.needAt n

/-- Entry into Doze in a fret boundary's Tc, after the actions of R17 (R93). The decimators of both halves are gated;
the analog half of an idled one is lowered. -/
def State.enterDoze (s : State) : State :=
  let s := (s.toDev .doze).addWrap Reg.dozeCountEntries 1
  let s := s.each [0, 1] fun s h =>
    if s.idles h && s.analogOn h then (s.lowerAnalog h).setF (idleBit h) 1
    else s.addSpan (32 * h) (32 * h + 31) none .syncReset s.pathSample none
  (s.setDoze fun d => { d with entry := none, need := none, wakeAt := none, late := false }).aimWake

/-- A fret boundary enters the Doze that was decided for it. -/
def State.dozesAtFret (s : State) : State :=
  match s.doze.entry with
  | none => s
  | some f =>
    if s.absFret = f ∧ s.dev = .service then s.enterDoze
    else if f ≤ s.absFret then s.setDoze fun d => { d with entry := none }
    else s

/-- DOZE_WAKE_START: the wake of T_need − L begins (R94). -/
def State.dozeWakeStart (s : State) : State :=
  if s.dev != .doze || s.flag Reg.dozeStatusWaking then s
  else match s.doze.wakeAt with
    | none => s
    | some t => s.reachNs (max s.nowNs t) State.beginWake

/-- A synthesizer of a half that is On is LOCKED, or has failed. The spec does not say what a wake does with a
synthesizer that never locks; that it is not waited for is a DESIGN CHOICE (log 166). -/
def State.synSettled (s : State) (x : Nat) : Bool :=
  s.synState x == synLocked || (s.synState x == synOff && s.flag (Reg.synStatusFailed x))

/-- Every synthesizer of the halves that are On is LOCKED, or has failed. -/
def State.halvesLocked (s : State) : Bool :=
  [0, 1].all fun h => !s.analogOn h || (s.synSettled (2 * h) && s.synSettled (2 * h + 1))

/-- The path sample from which every half is valid: the end of the marks of the wake (R96, R130). -/
def State.firstValid (s : State) : Nat :=
  (s.rx.spans.filterMap fun x =>
    if (x.cause == .retune || x.cause == .syncReset) && x.hi == x.lo + 31 then x.stop else none).foldl max s.pathSample

/-- A late wake is counted and told once (R98). -/
def State.tellLate (s : State) : State :=
  if s.doze.late then
    ((s.addSat Reg.dozeCountWakeLate 1).raise 6).setDoze fun d => { d with late := false }
  else s

/-- The receive decimators of a half were reset in its wake (R125). -/
def State.wokenHalf (s : State) (h : Nat) : State := s.eachPathOf h fun s p => s.setF (Reg.rxStatusSyncReset p) 1

/-- DOZE_WAKE_COMPLETE up to the waiting command: the first valid receive sample of the last half to wake, and SERVICE
(R96, R98). A half that was kept becomes valid 64 samples after its ungating. -/
def State.dozeWoken (s : State) : State :=
  if s.dev != .doze || !s.flag Reg.dozeStatusWaking || !s.halvesLocked then s
  else
    let s := s.each [0, 1] fun s h => s.closeSpans h .syncReset (s.doze.wakeTick / 4 + 64)
    s.reach (4 * s.firstValid) fun s =>
    let s := (s.wokenHalf 0).wokenHalf 1
    let s := ((s.setF Reg.dozeStatusWestIdle 0).setF Reg.dozeStatusEastIdle 0).setF Reg.dozeStatusWaking 0
    let s := (s.setDoze fun d => { d with entry := none, need := none, wakeAt := none, unmute := true }).toDev .service
    ((s.resumeHalf 0).resumeHalf 1).tellLate

/-- HOLD_OFF (0x05). -/
def holdOffSpec : CmdSpec where
  opcode := 0x05
  states d := d == .service || d == .doze
  role := roleIO
  argOk s := s.argW 0 == 0 || s.argW 0 == 0xFFFFFFFF || decide (0 < barDiff (s.argW 0) s.bar)
  classes := []
  usesPath := false
  run _ s :=
    let w := s.argW 0
    let end_ : Option Nat :=
      if w = 0 then none else if w = 0xFFFFFFFF then some (2 ^ 80) else some (s.barBoundary w)
    let s := s.setDoze fun d => { d with holdOff := end_ }
    (if w = 0 then s else s.beginWake).completeDone []

/-! ## Light Hold (R100 to R107) -/

/-- The wake time of LIGHT_HOLD_ENTER in ns. -/
def State.lightWakeNs (s : State) : Nat := (s.argW 0 + s.argW 1 % 65536 * 2 ^ 32) * 1000000000 + s.argW 2

/-- LIGHT_HOLD_ENTER (0x08). The follow refuses it by role (R107). -/
def lightHoldEnterSpec (s : State) : CmdSpec where
  opcode := 0x08
  states := lathedUp
  role d r := roleO d r && !(s.inPair && s.getF Reg.bridgeRole == roleFollow)
  argOk s := decide (s.nowNs + 8 * 250000 ≤ s.lightWakeNs)
  classes := []
  usesPath := false
  run _ s :=
    let alone := !s.inPair
    let s := s.decideLight ((s.lightWakeNs + 249999) / 250000 * 250000) true
    if alone then s.completeDone [0] else { s with job := some .lightHold }

/-- Entry into Light Hold in a fret boundary's Tc: the halves are lowered, the BIAS outputs go safe with MONITOR, Hod
stops, and the Bridge is gated (R20, R101, R107, R509). -/
def State.enterLight (s : State) (e : LightEntry) : State :=
  let s := { s with holdFrom := if s.dev == DevState.lathed then DevState.lathed else .service }
  let s := s.hodHaltAll
  let s := s.toDev .lightHold
  let s := s.sendStatus
  let s := (s.lowerAnalog 0).lowerAnalog 1
  let s := s.each (List.range 16) fun s k => (s.biasToSafe k).setBias k fun x => { x with hiZ := true }
  let s := ((s.setF Reg.dozeStatusWestIdle 0).setF Reg.dozeStatusEastIdle 0).setF Reg.dozeStatusWaking 0
  let s := (s.setF Reg.dozeStatusLightPending 0).setF Reg.linkStatusLpi (s.getF Reg.linkStatusUp)
  let s := { s with bridge := { s.bridge with passedStart := none, autoStart := none } }
  let s := s.when (s.bridge.paired) fun s =>
    (s.setF Reg.bridgeStatusTrained 0).setBridge fun b => { b with checkSuspended := true }
  s.setDoze fun d => { DozeState.rest with compare := if e.compare = 0 then none else some e.compare, holdOff := d.holdOff }

/-- A fret boundary enters the Light Hold that was decided for it, if the follow agrees; a proposal without an answer
lapses there at the latest. -/
def State.lightAtFret (s : State) : State :=
  match s.doze.light with
  | none => s
  | some e =>
    if s.absFret < e.boundary then s
    else if s.absFret = e.boundary ∧ e.agreed ∧ s.inLathedUp then s.enterLight e
    else
      ((s.setDoze fun d => { d with light := none }).setF Reg.dozeStatusLightPending 0).setBridge fun b =>
        { b with checkSuspended := false }

/-- LIGHT_HOLD_EXIT (0x09): a wake source (R102). -/
def lightHoldExitSpec : CmdSpec where
  opcode := 0x09
  states d := d == .lightHold
  role := roleNone
  argOk _ := true
  classes := []
  usesPath := false
  run _ s := s.lightSource.completeDone []

/-- HOLD_COMPARE: the hold compare fires (R101, R102). -/
def State.holdCompareFires (s : State) : State :=
  match s.doze.compare with
  | none => s
  | some c =>
    if s.phase != .run || s.dev != .lightHold then s
    else s.reachNs (max s.nowNs c) fun s => (s.setDoze fun d => { d with compare := none }).lightSource

/-- TWIN_BRIDGE_TRAINING: a wake source in Light Hold (R102). -/
def State.twinTrains (s : State) : State := s.lightSource

/-- An occurrence of an entry covers a fret: it holds an open window there. -/
def State.openIn (s : State) (e f : Nat) : Bool :=
  entryState e != regParked && match s.occStart e f with
    | some a => decide ((f : Int) < a + entryWindow e)
    | none => false

/-- Needs with a fixed time fell before the wake from a hold of service completed (R98, R106). -/
def State.holdLate (s : State) : Bool :=
  let from_ := s.nowNs - (s.drone.ticks - s.doze.wakeTick) * s.inc / 2 ^ 32
  let frets := ((List.range (s.absFret - from_ / 250000)).map fun i => from_ / 250000 + 1 + i)
  s.holdFrom != .lathed &&
    (s.fh.accepted.any (fun x => decide (from_ ≤ x.ns) && decide (x.ns ≤ s.nowNs)) || frets.any fun f =>
      s.nextScan f == some f || s.nextSeam f == some f || s.liveEntries.any fun i => s.openIn (s.word0 i) f)

/-- LIGHT_HOLD_WAKE_COMPLETE: step 6 of R103, once the synthesizers of step 5 are LOCKED; the wake ends in LATHED or
SERVICE (R74), and what waited for it is handled (R107). -/
def State.lightWoken (s : State) : State :=
  if s.phase != .run || s.dev != .lightHold || !s.flag Reg.dozeStatusWaking || !s.halvesLocked then s
  else
    let late := s.holdLate
    let s := { s with time := { s.time with fret := s.absFret } }
    let s := ((s.toDev s.holdFrom).setF Reg.dozeStatusWaking 0).syncHeld
    let s := s.when (s.dev == .lathed) State.owedAgain
    let s := s.setDoze fun d => { d with need := none, wakeAt := none, compare := none, late := late, unmute := true }
    s.tilesUnlatch.tellLate.sagJudge.undo.releaseHeld

/-- HEARTBEAT_CHECK_RESUME: 2 ms after a chip's own wake source, it counts missed heartbeats again (R107). -/
def State.heartbeatResume (s : State) : State :=
  if !s.bridge.paired || !s.bridge.checkSuspended || s.doze.light.isSome ||
      s.dev == .lightHold && !s.flag Reg.dozeStatusWaking then s
  else s.reach (s.doze.wakeTick + nsTicks 2000000) fun s =>
    s.setBridge fun b => { b with checkSuspended := false, heartbeatTick := s.drone.ticks }

/-! ## Deep Hold (R108, R109) -/

/-- DRONE.WAKE_COUNT: whole periods of 32.768 kHz since power-up, 48 bits. -/
def State.wakeCount (s : State) : Nat := s.drone.ticks / 7500 % 2 ^ 48

/-- Entry into Deep Hold begins: departure is announced, and no further journal record is written (R108). -/
def State.deepBegin (s : State) (ticks : Nat) (bySag : Bool) : State :=
  let s := s.sendNotice 2
  { s with
    phase := .deepEntry
    drone := { s.drone with
      wakeTicks := ticks, sagHold := bySag, wakeHeld := none } }

/-- DEEP_HOLD_ENTER (0x0A): it reports DONE before the domains are lowered. -/
def deepHoldEnterSpec : CmdSpec where
  opcode := 0x0A
  states d := d == .bare || d == .unlathed || d == .lathed || d == .fault
  role := roleKeylessIO
  argOk s := s.unacked == 0
  classes := []
  usesPath := false
  run _ s := (s.deepBegin (s.argW 0 + s.argW 1 % 65536 * 2 ^ 32) false).completeDone []

/-- STATE_INFO (0x10). -/
def stateInfoSpec : CmdSpec where
  opcode := 0x10
  states := notLightHold
  role := roleNone
  argOk _ := true
  classes := []
  usesPath := false
  run _ s :=
    let f := match s.journal.lastFault with | some q => q % 2 ^ 32 | none => 0xFFFFFFFF
    s.completeDone [s.dev.code, s.prev.code, s.getF Reg.bridgeRole, f]

/-! ## Falling stages, and Deep Hold by sag (R470 to R472) -/

/-- The device issues SERVICE_START with START_BAR = 0 on its own (R471). -/
def State.autoRestart (s : State) : State :=
  if s.dev != .lathed || !s.startReady then s.setF Reg.sagStatusRestartFailed 1
  else
    let bar := s.nextStartBar
    let asks := s.startAsks bar
    let s := { s.undo with bridge := { s.bridge with autoStart := some (bar, !asks) } }
    s.when asks fun s => s.sendAgree 0 (startAgreement bar)

/-- The stage falls by one step. -/
def State.sagFall (s : State) : State :=
  let n := s.getF Reg.sagStatusStage - 1
  let s := s.sagStage n
  if n ≤ 2 ∧ s.mon.sagStopped then
    let s := { s with mon := { s.mon with sagStopped := false } }
    s.when (s.flag Reg.sagCtrlAutoRestart) State.autoRestart
  else s

/-- SAG_STEP_DOWN: the entry condition of the present stage has failed for RECOVER_MS; `low` is the lowest feed
conversion of that time. -/
def State.sagStepDown (low : Nat) (s : State) : State :=
  let k := s.getF Reg.sagStatusStage
  let ms := nsTicks (1000000 * max 1 (s.getF Reg.sagLevels1RecoverMs))
  let feed := k == 4 || s.sagLevel k == 0 || decide (s.sagLevel k + s.getF Reg.sagLevels1RecoverHyst < low)
  if !s.sagActs || k == 0 || !feed || (decide (3 ≤ k) && s.drone.sagLow) then s
  else if 3 ≤ k then s.reach (s.drone.sagTick + ms) State.sagFall
  else s.sagFall

/-- Stage 4 enters Deep Hold once the state allows it; no compare is set. -/
def State.sagDeep (s : State) : State :=
  if s.sagActs && s.getF Reg.sagStatusStage == 4 &&
      (s.dev == .bare || s.dev == .unlathed || s.dev == .lathed || s.dev == .fault) then s.deepBegin 0 true
  else s

/-- SAG_DEEP_HOLD: SAG_N has been low for DEEP_MS. -/
def State.sagDeepHold (s : State) : State :=
  let ms := s.getF Reg.sagCtrlDeepMs
  if !s.sagActs || ms == 0 || !s.drone.sagLow then s
  else s.reach (s.drone.sagTick + nsTicks (1000000 * ms)) fun s => (s.sagRise 4).sagDeep

/-- A drone wake source of Deep Hold: it takes effect at once, or when the entry completes (R109). Of several that come
during an entry the first is the cause, but RESET_N makes the wake a cold reset whatever came before (log 167). -/
def State.deepSource (s : State) (c : WakeCause) : State :=
  match s.phase with
  | .deepHold => { s with
      phase := .reset .deepWake, drone := { s.drone with wakeCause := c, wakeHeld := none, sagHold := false } }
  | .deepEntry => { s with drone := { s.drone with
      wakeHeld := match s.drone.wakeHeld with | some x => if c = .resetPin then some c else some x | none => some c } }
  | _ => s

/-- SAG_N goes to a level, after its filter (R470); its release wakes a Deep Hold that the sag policy commanded. -/
def State.sagChange (low : Bool) (s : State) : State :=
  if s.drone.sagLow = low then s
  else
    let s := { s with drone := { s.drone with sagLow := low, sagTick := s.drone.ticks } }
    let s := if s.phase = .run then s.sagJudge else s
    if !low && s.drone.sagHold then s.deepSource .sagRelease else s

/-! ## The meanings -/

/-- SERVICE_START. -/
def execServiceStart (p : Port) (s : State) : Outcome := act (s.framed p) (serviceStartSpec.issue p)
/-- SERVICE_STOP. -/
def execServiceStop (p : Port) (s : State) : Outcome := act (s.framed p) (serviceStopSpec.issue p)
/-- HOLD_OFF. -/
def execHoldOff (p : Port) (s : State) : Outcome := act (s.framed p) (holdOffSpec.issue p)
/-- LIGHT_HOLD_ENTER. -/
def execLightHoldEnter (p : Port) (s : State) : Outcome := act (s.framed p) fun s => (lightHoldEnterSpec s).issue p s
/-- LIGHT_HOLD_EXIT. -/
def execLightHoldExit (p : Port) (s : State) : Outcome := act (s.framed p) (lightHoldExitSpec.issue p)
/-- DEEP_HOLD_ENTER. -/
def execDeepHoldEnter (p : Port) (s : State) : Outcome := act (s.framed p) (deepHoldEnterSpec.issue p)
/-- STATE_INFO. -/
def execStateInfo (p : Port) (s : State) : Outcome := act (s.framed p) (stateInfoSpec.issue p)
/-- WINDOW_LIST_CLOSE. -/
def execWindowListClose (s : State) : Outcome := act s State.windowListClose
/-- DOZE_WAKE_START. -/
def execDozeWakeStart (s : State) : Outcome := act s State.dozeWakeStart
/-- HOLD_COMPARE. -/
def execHoldCompare (s : State) : Outcome := act s State.holdCompareFires
/-- TWIN_BRIDGE_TRAINING. -/
def execTwinBridgeTraining (s : State) : Outcome := act s State.twinTrains
/-- SAG_N_CHANGE. -/
def execSagNChange (low : Bool) (s : State) : Outcome := act s (State.sagChange low)
/-- SAG_STAGE_ENTRY. -/
def execSagStageEntry (codes : List (BitVec 12)) (s : State) : Outcome :=
  act s (State.sagEntry (codes.map BitVec.toNat))
/-- SAG_STEP_DOWN. -/
def execSagStepDown (low : BitVec 12) (s : State) : Outcome := act s (State.sagStepDown low.toNat)
/-- SAG_DEEP_HOLD. -/
def execSagDeepHold (s : State) : Outcome := act s State.sagDeepHold
/-- HEARTBEAT_CHECK_RESUME. -/
def execHeartbeatCheckResume (s : State) : Outcome := act s State.heartbeatResume

end Sys2Proof.Machine
end

