-- ==== Sys2Proof/Machine/Effects.lean ====
section
/-! DEFINITION. What a change of a setting does at once in the block that owns it, whether a host or a lath wrote it. -/

namespace Sys2Proof.Machine

/-- A field differs between two states. -/
def State.differs (s old : State) (f : Fld) : Bool := s.getF f != old.getF f

/-- The registers whose domains are absent lose their contents (R21). -/
def State.loseRegs (s : State) : State :=
  let kept (x : Nat × Nat) : Bool := !(regDomains (x.1 / 32)).all s.absent
  { s with regs := s.regs.filter kept, shadow := s.shadow.filter kept }

/-- The DFE domain of a half loses power: its paths' streams, tones, settings in force, spans and calibration stores. -/
def State.loseDfe (s : State) (h : Nat) : State :=
  let other (p : Nat) : Bool := halfOf p != h
  let s := { s with
    tx := { s.tx with
      inForce := s.tx.inForce.filter fun x =>
        !decide (0x400000 + 0x80000 * h ≤ x.1 / 32 ∧ x.1 / 32 < 0x480000 + 0x80000 * h)
      closed := s.tx.closed.filter other
      tones := s.tx.tones.filter fun x => other x.path
      cfr := s.tx.cfr.filter fun x => other x.path
      resuming := s.tx.resuming.filter fun x => x != h }
    rx := { s.rx with spans := s.rx.spans.filter fun x => other x.lo || other x.hi } }
  s.each [2 * h, 2 * h + 1] fun s x => s.setSynth x fun _ => ⟨none, none, none, false, none, [], [], [], false, false⟩

/-- A domain is switched Off because a map marks it absent: all its state is lost (R20, R21). Its memory, when it is
present again, holds what the hardware fill gives (log 176). -/
def State.loseDomain (s : State) (d : Domain) : State :=
  match d with
  | .link => { s.linkGoesDown 0 false with fh := .fresh }
  | .bridge => { s with bridge := .fresh }
  | .registry => { s with registryMem := .filled .registry, sched := State.reset.sched }
  | .faeror => { s.unloadCores with faProg := .filled .faProg, faData := .filled .faData }
  | .spectral => { s with spectral := State.reset.spectral, stencilMem := .filled .stencil }
  | .dfeWest => s.loseDfe 0
  | .dfeEast => s.loseDfe 1
  | .monitor => ({ s with mon := .blank } : State).tilesUnpowered s.tiles
  | _ => s

/-- The domains follow the power-domain maps: one newly absent loses its state, the analog half before its DFE domain;
an analog half that is present again rises where the state holds it On, and MONITOR rises with the safe BIAS codes (R21,
R22, R73, R199). -/
def State.followMaps (s old : State) : State :=
  let s := s.each [0, 1] fun s h => if s.absent (analogOf h) || s.absent (dfeOf h) then s.lowerAnalog h else s
  let gone := [Domain.link, .bridge, .registry, .faeror, .spectral, .dfeWest, .dfeEast, .monitor].filter fun d =>
    s.absent d && !old.absent d
  let s := (s.each gone State.loseDomain).loseRegs
  let s := s.when (old.absent .monitor && !s.absent .monitor) fun s =>
    let s := s.monitorUp.biasUp.showPins
    if s.samplesTiles then s.tilesUnlatch else s
  s.each [0, 1] fun s h =>
    if !(s.absent (analogOf h) || s.absent (dfeOf h)) && s.inLathedUp && !(s.dev == .doze && s.flag (idleBit h)) then
      s.raiseHalf h
    else s

/-- A write while the device dozes moved its needs or its lead: the wake time follows, and is never put off (R94). -/
def State.reaimWake (s : State) : State :=
  if s.dev != .doze then s
  else match s.doze.need with
    | none => s.aimWake
    | some n =>
      let at_ := min (n - s.leadNs) (s.doze.wakeAt.getD n)
      let s := s.setDoze fun d => { d with wakeAt := some at_ }
      (if at_ ≤ s.nowNs then s.beginWake else s).aimWake

/-- The effects of the fields that changed since `old` (R21, R94, R119, R143, R320, R356, R401, R430, R467, R470). -/
def State.changed (s old : State) : State :=
  let d := s.differs old
  let limits := (List.range 64).filter fun p => d (Reg.rxAgcMinIndex p) || d (Reg.rxAgcMaxIndex p)
  let s := s.each limits State.limitGain
  let tiles := (List.range 64).filter fun p => d (Reg.tileOffsetGain p) || d (Reg.tileOffsetPhase p)
  let s := s.each tiles State.tileOffsetWritten
  let s := s.when (d Reg.thermalWarn) State.nearFollows
  let s := s.when (d Reg.thermalWarn || d Reg.thermalAct || d Reg.thermalHyst) State.limits
  let s := s.when (d Reg.sagCtrlEnable) fun s => if s.flag Reg.sagCtrlEnable then s.sagJudge else s.sagStage 0
  let s := s.when (d Reg.linkCtrlEnable && !s.flag Reg.linkCtrlEnable) (State.linkGoesDown 0 false)
  let s := s.when (d Reg.bridgeCtrlEnable && !s.flag Reg.bridgeCtrlEnable) fun s => s.bridgeEnable false
  let s := s.when (d Reg.ppsInEn && s.flag Reg.ppsInEn) State.ppsEnabled
  let s := s.when (d Reg.partitionEntryLimit) State.undo
  let maps := s.regs.any (fun x => x.1 / 32 == Reg.domainAbsentI.addr || x.1 / 32 == Reg.domainAbsentO.addr) ||
    old.regs.any fun x => x.1 / 32 == Reg.domainAbsentI.addr || x.1 / 32 == Reg.domainAbsentO.addr
  let wake := [Reg.scanCtrlScanPeriod, Reg.scanCtrlScanFrets, Reg.scanCtrlScanFirst, Reg.dozeLeadWakeLead,
    Reg.dozeFloorMinLead, Reg.seamCtrlPeriod, Reg.seamCtrlFret, Reg.calCtrlAutoSeam]
  ((s.when maps fun s => s.followMaps old).when (wake.any d) State.reaimWake).triggerTx

/-- Bits of a field are among those written. -/
def Fld.inMask (f : Fld) (mask : Nat) : Bool := mask &&& (2 ^ f.w - 1) * 2 ^ f.lo != 0

/-- The path whose corrections a write to a register may change (R126, R156): RX_CTRL, RX_IMAGE, TX_IMAGE, TX_DC. -/
def rampPath (a : Nat) : Option Nat :=
  if 0x400000 ≤ a ∧ a < 0x500000 ∧ [0, 0x10, 0x118, 0x11C].contains ((a - 0x400000) % 0x4000) then
    some ((a - 0x400000) / 0x4000)
  else none

/-- A host or a lath wrote the bits of a mask in the register at an address: what the write itself does, changed or not
(R200, R356, R489). `old` is the state before it. -/
def State.written (s old : State) (a mask : Nat) : State :=
  let k := (a - 0x581000) / 4
  if a = Reg.memintCtrlSkimEn.addr then
    if Reg.memintCtrlSkimEn.inMask mask then s.skimEnable (s.getF Reg.memintCtrlSkimEn) else s
  else if a = Reg.bridgeCtrlEnable.addr then
    if Reg.bridgeCtrlEnable.inMask mask && s.flag Reg.bridgeCtrlEnable then s.bridgeEnable true else s
  else if (Reg.biasCode k).addr = a && decide (k < 16) then
    let s := s.when ((Reg.biasCode k).inMask mask) fun s => s.biasCodeWritten k
    if s.differs old (Reg.biasRange k) then s.biasRangeChanged k else s
  else match rampPath a with
    | some p => s.rampFrom old p
    | none => s

end Sys2Proof.Machine
end

