-- ==== Sys2Proof/Machine/LathLoad.lean ====
section
/-! DEFINITION. Loading a lath (R48 to R58): the check of a whole image, its application, the live re-lath with the
twin's agreement, and the quad-SPI stream. -/

namespace Sys2Proof.Machine

/-! ## Rejection (R52) -/

/-- The bytes of the record with an index in an image, as its framing gives them. -/
def recordBytes : Nat → List Byte → List Byte
  | 0, img => img.take (if leAt 0 2 img = typKey then 116 else 112 + leAt 4 4 img)
  | n + 1, img => recordBytes n (img.drop (if leAt 0 2 img = typKey then 116 else 112 + leAt 4 4 img))

/-- A load fails: its LATH_REJECTED record, EV_3, and the reason and record index. -/
def State.lathFail (s : State) (img : List Byte) (reason rec : Nat) : State :=
  let body := if rec = noRecord then [] else recordBytes rec (img.drop 64)
  let digest := if rec = noRecord then 0 else (Config.sha384 body).toNat
  let role := if rec = noRecord then 0 else leAt 2 1 body % 4
  let s := s.note ⟨.lathRejected, role, portCode s.cmdPort, rejectDetail reason rec, leAt 20 8 img, digest⟩
  ((s.results [reason, rec]).complete .failed).raise 3

/-- The results of a load that succeeds: no reason, no record, and the operator digest. -/
def lathResults (recs : List LathRec) : List Nat := [0, noRecord] ++ wordsOf (digestBytes (roleDigest 3 recs))

/-! ## Application (R36, R51, R53, R57) -/

/-- The keys after a load: those that it brings, and those before it that the loader still trusts. -/
def State.mergedKeys (s : State) (l : LathLoad) (opKeys : Option (List Byte)) : List RoleKey :=
  let old := s.lath.keys.filter fun k => !(l.keys.any fun n => n.role == k.role && n.slot == k.slot)
  (old ++ l.keys).filter fun k => k.role != 3 || s.trusts opKeys k.role k.slot k.point

/-- Sessions proven with an operator key that is no longer held end (R46). -/
def State.dropOperators (s : State) : State :=
  s.each [Port.pcie, .qspi] fun s p =>
    let x := s.session p
    if x.role == some .operator && !(s.lath.keys.any fun k => k.role == 3 && k.slot == x.keySlot) then s.endSession p
    else s

/-- What the blocks make of the sections' writes: those of a commit, and those of changed settings. -/
def State.lathEffects (s old : State) (l : LathLoad) : State :=
  let s := (((s.rxCommit old).txCommit old).spectralCommit old).monitorCommit old
  let s := s.changed old
  s.each l.recs fun s r => s.each (r.writes.getD []) fun s w => s.written old w.addr w.mask

/-- Apply a load's sections (R53, R57): registers, keys, cores, and one LATH_APPLIED record per section in record
order; then EV_2. A live load's frets were prepared under it since its acceptance, and stand (R19); an accepted load waits
on when another is applied before it (R56). -/
def State.applyLath (s : State) (l : LathLoad) (port : Nat) (live : Bool) : State :=
  let has (t : Nat) : Bool := l.recs.any fun r => r.typ == t
  let old := s
  let recs := mergedRecs s.lath.recs l.recs
  let s := s.lathRegisters l.recs
  let s := { s with lath := { s.lath with recs := recs } }
  let s := if live then { s with lath := { s.lath with pending := none, twinPending := none } } else s
  let s := { s with lath := { s.lath with keys := s.mergedKeys l s.operatorKeys } }
  let s := s.lathEffects old l
  let s := s.when (has typTileMap) State.applyTileMap
  let s := s.when (has 0x0101 || has typCarriers) fun s => (s.buildGrid 0).buildGrid 1
  let s := s.when (has typBudgets) fun s => { s with budget := { s.budget with due := true } }
  let s := s.applyCores old.lath.recs recs l.recs live
  let s := s.when s.bridge.refused fun s =>
    ((s.setBridge fun b => { b with refused := false }).setF Reg.bridgeStatusTrained 0).setF Reg.bridgeStatusRefuse 0
  let s := s.dropOperators
  let s := if live then { s with sched := { s.sched with stale := old.sched.stale, staleFrom := old.sched.staleFrom } }
    else s.undo
  let s := s.each l.recs fun s r =>
    s.note ⟨.lathApplied, r.role, port, r.typ + 65536 * (r.version % 65536), l.serial, (Config.sha384 r.bytes).toNat⟩
  s.raise 2

/-- The state that a mode 0 load leads to: LATHED with every required section, else UNLATHED (R51). -/
def lathedDev (recs : List LathRec) : DevState :=
  if ([1, 2, 3].flatMap requiredTypes).all fun t => recs.any fun r => r.typ == t then .lathed else .unlathed

/-- LATH_APPLY: a checked image of mode 0 or 1 is applied, and in mode 0 the state moves (R53). -/
def State.lathApply (s : State) : State :=
  match s.job with
  | some (.lathChecked l) =>
    let s := { s.applyLath l (portCode s.cmdPort) false with job := none }
    let d := lathedDev s.lath.recs
    let s := if l.mode = 0 then (s.toDev d).when (d == .lathed) State.onLathed else s
    s.completeDone (lathResults s.lath.recs)
  | _ => s

/-! ## Live re-lath (R55 to R58) -/

/-- The first 16 bytes of the operator digest that a load would give. -/
def State.pendingDigest (s : State) (l : LathLoad) : List Byte :=
  (digestBytes (roleDigest 3 (mergedRecs s.lath.recs l.recs))).take 16

/-- The instant at which a mode 2 load applies. -/
def State.loadNs (s : State) (l : LathLoad) : Nat := s.barBoundary l.targetBar

/-- A mode 2 load is accepted, unless its boundary is less than one fret away (R56). The scheduler prepares the frets
from its boundary on anew (R19). -/
def State.lathAccept (s : State) (l : LathLoad) (img : List Byte) : State :=
  if s.withinFret (s.loadNs l) then s.lathFail img reasonTooLate noRecord
  else
    let s := { s with lath := { s.lath with pending := some l } }
    let s := s.undoFrom ((s.loadNs l / 250000 : Nat) : Int)
    s.completeDone (lathResults (mergedRecs s.lath.recs l.recs))

/-- The twin reported the same digest and bar as a load that waits (R58). -/
def State.twinMatches (s : State) (l : LathLoad) : Bool :=
  match s.lath.twinPending with
  | some x => beBytes 16 x.1.toNat == s.pendingDigest l && x.2 == l.targetBar
  | none => false

/-- The twins did not agree by two frets before the boundary (R58): no LATH_REJECTED record is written. -/
def State.lathDisagree (s : State) (l : LathLoad) : State :=
  let s := { s with lath := { s.lath with twinPending := none } }
  let s := s.note ⟨.relathCancelled, 3, portCode s.cmdPort, 0, l.serial, 0⟩
  ((s.results [reasonTwinMismatch, noRecord]).complete .failed).raise 3

/-- An instant lies at least two frets ahead: twins may still agree on it (R58, R89). -/
def State.twoFretsAhead (s : State) (ns : Nat) : Bool := decide (s.nowNs + 500000 ≤ ns)

/-- The waiting mode 2 load is accepted if the twin has reported the same, by two frets before its boundary. -/
def State.lathMeet (s : State) : State :=
  match s.job with
  | some (.lathAgree l) =>
    if !s.twoFretsAhead (s.loadNs l) then s.lathDisagree l
    else if s.twinMatches l then s.lathAccept l (leBytes 20 0 ++ leBytes 8 l.serial)
    else s
  | _ => s

/-- A mode 2 load has passed its checks. -/
def State.lathLive (s : State) (l : LathLoad) (img : List Byte) : State :=
  if s.inPair then
    (({ s with job := some (.lathAgree l) }).sendAgree 0 ⟨0, l.targetBar, s.pendingDigest l, 0⟩).lathMeet
  else s.lathAccept l img

/-- The accepted load of a bar boundary's Tc is applied (R57); its records name PORT 4, internal (log 170). -/
def State.relathAtFret (s : State) : State :=
  match s.lath.pending with
  | some l => if s.absFret * 250000 = s.loadNs l then s.applyLath l 4 true else s
  | none => s

/-! ## LATH_LOAD (R48 to R52) -/

/-- Check the bytes of an image, and go on or fail. -/
def State.lathVerdict (s : State) (offset len mode bar : Nat) (img : List Byte) : State :=
  match s.checkImage offset len mode bar img with
  | .reject a b => s.lathFail img a b
  | .good l => if mode = 2 then s.lathLive l img else { s with job := some (.lathChecked l) }

/-- The bytes that the loader reads of an image: the header, and IMAGE_LENGTH bytes where the header holds (R29, R54). -/
def State.imageBytes (s : State) (offset len : Nat) : Nat :=
  let h := s.rawBytes .capture offset 64
  if headerOk h len then leAt 12 4 h else 64

/-- Read an image from capture memory and check it. The loader's reads are charged to HOSTACC in LATHED, SERVICE and DOZE,
and wait for its grains (R54, R408); a word that reads as damaged fails the load (R483). -/
def State.lathRead (s : State) (offset len mode bar : Nat) : State :=
  let n := s.imageBytes offset len
  let a := if s.inLathedUp then s.ask 10 4 ((offset % 32 + n + 31) / 32) else (s, true)
  if !a.2 then { a.1 with job := some (.lathWait offset len mode bar) }
  else
    let r := a.1.readCapture offset n
    if !r.2.2 then r.1.lathFail r.2.1 reasonMemPoison noRecord
    else r.1.lathVerdict offset len mode bar r.2.1

/-- A load whose reads waited goes on (R408). -/
def State.lathResume (s : State) : State :=
  match s.job with
  | some (.lathWait offset len mode bar) => s.lathRead offset len mode bar
  | _ => s

/-- The host scratch region of capture memory in bytes, if there is one (R50). -/
def State.scratch (s : State) : Option (Nat × Nat) :=
  let b := s.getF Reg.scratchBase
  let n := s.getF Reg.scratchLen
  if n = 0 ∨ 1024 < b + n then none else some (4096 * b, 4096 * n)

/-- The image, taken as the LENGTH bytes that the command names (log 171), lies where R50 allows: in LATHED, SERVICE and DOZE inside the scratch region, off every armed ring. -/
def State.imagePlaceOk (s : State) (offset len : Nat) : Bool :=
  !s.inLathedUp || match s.scratch with
    | none => false
    | some (b, n) => decide (b ≤ offset) && decide (offset + len ≤ b + n) &&
        (List.range 8).all fun k => !s.flag (Reg.capConfigArmed k) ||
          !overlaps offset len (32 * s.getF (Reg.capConfigBase k)) (32 * s.getF (Reg.capLengthLength k))

/-- The states in which a load of a mode is legal (R51); a MODE without a meaning fails the argument check in any of
them. -/
def lathStates (mode : Nat) : DevState → Bool := fun d =>
  match mode with
  | 0 => d == .bare || d == .unlathed
  | 1 => d == .lathed
  | 2 => lathedUp d
  | _ => d == .bare || d == .unlathed || lathedUp d

/-- LATH_LOAD (0x20). TARGET_BAR 0 is taken as the bar after the present one when the command is decoded (log 172). -/
def lathLoadSpec (s : State) : CmdSpec where
  opcode := 0x20
  states := lathStates (s.argW 3)
  role := roleNone
  argOk s :=
    let mode := s.argW 3
    let bar := s.argW 4
    decide (s.argW 0 ≤ 1) && decide (mode ≤ 2) && offsetOk (s.argW 1) (s.argW 2) && s.imagePlaceOk (s.argW 1) (s.argW 2) &&
      (mode != 2 || (bar == 0 && s.dev == .lathed) || s.barAhead bar)
  classes := if s.inLathedUp then [10] else []
  usesPath := false
  run _ s :=
    let mode := s.argW 3
    let bar := if s.argW 4 = 0 ∧ s.dev = .lathed then (s.bar + 1) % 2 ^ 32 else s.argW 4
    if mode = 2 ∧ s.lath.pending.isSome then s.complete .busy
    else if s.journalFull then s.completeFail reasonJournalFull
    else if s.argW 0 = 1 then { s with job := some (.lathStream (s.argW 1) (s.argW 2) mode bar 0 0) }
    else s.lathRead (s.argW 1) (s.argW 2) mode bar

/-! ## The stream (R48, R525) -/

/-- The bytes that the stream of a load holds in all: IMAGE_LENGTH once it has come. -/
def State.streamTotal (s : State) (offset received : Nat) : Option Nat :=
  if received < 64 then none else some (leAt 12 4 (s.rawBytes .capture offset 64))

/-- Take one stream byte into capture memory; a byte that no load takes is dropped and counted. A header that fails its
check ends the load with its last byte. -/
def State.streamByte (s : State) (b : Byte) : State :=
  match s.job with
  | some (.lathStream offset len mode bar received _) =>
    let s := s.writeBytes .capture .spine (offset + received) [b]
    let n := received + 1
    let s := { s with job := some (.lathStream offset len mode bar n s.drone.ticks) }
    match s.streamTotal offset n with
    | none => s
    | some total =>
      let img := s.rawBytes .capture offset 64
      if !headerOk img len then s.lathFail img reasonBadHeader noRecord
      else if total ≤ n then s.lathRead offset len mode bar
      else s
  | _ => { s with drone := { s.drone with streamDropped := min 65535 (s.drone.streamDropped + 1) } }

/-- The stream's load fails for its framing. -/
def State.streamFail (s : State) : State :=
  match s.job with
  | some (.lathStream offset _ _ _ received _) =>
    s.lathFail (s.rawBytes .capture offset (min received 64)) reasonBadFraming noRecord
  | _ => s

/-- LATH_STREAM: a frame of lath bytes. In BARE and UNLATHED the FIFO never fills; elsewhere how fast it drains is not
stated, so whether a frame of more than 4 KiB loses a byte is free. -/
def State.lathStream (bytes : List Byte) (s : State) : State :=
  let s := s.frame
  let open_ : Bool := match s.job with | some (.lathStream _ _ _ _ _ _) => true | _ => false
  if s.phase = .run ∧ open_ ∧ s.inLathedUp ∧ 4096 < bytes.length ∧ Config.freeOf 525 [bytes.length] % 2 = 1 then
    let t := (s.each (bytes.take 4096) State.streamByte).streamFail
    { t with drone := { t.drone with streamDropped := min 65535 (t.drone.streamDropped + (bytes.length - 4096)) } }
  else s.each bytes State.streamByte

/-- LATH_STREAM_GAP_TIMEOUT: 100 ms between two stream bytes of a load. -/
def State.streamGap (s : State) : State :=
  match s.job with
  | some (.lathStream _ _ _ _ received tick) =>
    if received = 0 then s else s.reach (tick + nsTicks 100000000) State.streamFail
  | _ => s

/-- The bytes of capture memory that a running load holds: host writes into them are discarded (R49). -/
def State.loadRange (s : State) : Option (Nat × Nat) :=
  match s.job with
  | some (.lathStream offset len _ _ _ _) => some (offset, len)
  | some (.lathWait offset len _ _) => some (offset, len)
  | some (.lathChecked l) => some (l.offset, l.length)
  | some (.lathAgree l) => some (l.offset, l.length)
  | _ => none

/-! ## AGREE and its time limits (R58, R89, R107) -/

/-- The follow accepts a Light Hold proposal (R107): a proposal that arms no hold compare (0) only if it has no need. A
passed service start does not count, and is lost with the entry (log 169). -/
def State.acceptsLight (s : State) (boundary compare : Nat) : Bool :=
  let entry := boundary * 250000
  if s.inService then
    s.mayLight entry && match s.firstNeed with
      | none => true
      | some n => compare != 0 && decide (compare + 1000000 ≤ n / 250000 * 250000)
  else s.dev == .lathed && !s.pathBusy && match s.firstNeed with
    | none => true
    | some n => compare != 0 && decide (compare ≤ n)

/-- This chip accepts the twin's START_BAR (R87 to R89). -/
def State.acceptsStart (s : State) (bar : Nat) : Bool :=
  match s.job with
  | some (.serviceStart b _) => b == bar && s.twoFretsAhead (s.barBoundary bar)
  | _ => s.dev == .lathed && s.startReady && s.barAhead bar && s.twoFretsAhead (s.barBoundary bar) &&
      (match s.bridge.passedStart with | some b => b == bar | none => true) &&
      (match s.bridge.autoStart with | some b => b.1 == bar | none => true)

/-- The absolute fret that the low 32 bits of a boundary name, near the present one. -/
def State.fretNear (s : State) (low : Nat) : Nat := ((s.absFret : Int) + shortDiff low (s.absFret % 2 ^ 32)).toNat

/-- The twin agreed to a start of this chip, by two frets before its boundary (R89). -/
def State.startAgreed (s : State) (bar : Nat) : State :=
  if !s.twoFretsAhead (s.barBoundary bar) then s
  else match s.job with
  | some (.serviceStart b _) => if b = bar then { s with job := some (.serviceStart b true) } else s
  | _ => match s.bridge.autoStart with
    | some (b, _) => if b = bar then { s with bridge := { s.bridge with autoStart := some (b, true) } } else s
    | none => s

/-- The twin answered a Light Hold proposal, and LIGHT_HOLD_ENTER completes; heartbeat checking is suspended by the
agreement. A refusal after it abandons the entry (R106, R107). -/
def State.lightAnswered (s : State) (yes : Bool) : State :=
  match s.doze.light with
  | none => s
  | some e =>
    if e.agreed then
      if yes then s
      else
        ((s.setDoze fun d => { d with light := none }).setF Reg.dozeStatusLightPending 0).setBridge fun b =>
          { b with checkSuspended := false, heartbeatTick := s.drone.ticks }
    else
      let s := { s with bridge := { s.bridge with proposal := none, checkSuspended := yes } }
      let s :=
        if yes then s.setDoze fun d => { d with light := some { e with agreed := true } }
        else (s.setDoze fun d => { d with light := none }).setF Reg.dozeStatusLightPending 0
      if s.job = some .lightHold then (if yes then s.completeDone [0] else s.completeFail reasonTwinMismatch) else s

/-- AGREE (R58, R89, R107): `answer` is 0 for a proposal, 1 for acceptance and 2 for refusal. -/
def State.agree (kind answer at_ : Nat) (digest : BitVec 128) (compare : Nat) (s : State) : State :=
  if !s.inPair then s
  else if kind = 0 then
    ({ s with lath := { s.lath with twinPending := some (digest, at_) } }).lathMeet
  else if kind = 1 then
    if answer = 0 then
      let ok := s.acceptsStart at_
      let own : Bool := match s.job with | some (.serviceStart _ _) => true | _ => s.bridge.autoStart.isSome
      let s := if !ok then s
        else if own then s.startAgreed at_
        else { s.undo with bridge := { s.bridge with passedStart := some at_ } }
      s.sendAgree (if ok then 1 else 2) (startAgreement at_)
    else if answer = 1 then s.startAgreed at_
    else if s.bridge.passedStart = some at_ then { s with bridge := { s.bridge with passedStart := none } }
    else s
  else if answer = 0 then
    if s.getF Reg.bridgeRole != roleFollow then s
    else
      let b := s.fretNear at_
      let ok := s.acceptsLight b compare && decide (s.absFret < b)
      let s := if ok then
          ((s.setDoze fun d => { d with light := some ⟨b, compare, false, true⟩, entry := none }).setF
            Reg.dozeStatusLightPending 1).setBridge fun b => { b with checkSuspended := true }
        else s
      s.sendAgree (if ok then 1 else 2) (lightAgreement b compare)
  else s.lightAnswered (answer == 1)

/-- TWIN_AGREEMENT_TIMEOUT: no agreement by two frets before a bar boundary, or by one fret before a Light Hold
boundary. The twin is told, so that one whose answer was lost does not start or enter alone (R89, R107). -/
def State.agreeTimeout (s : State) : State :=
  match s.job, s.bridge.autoStart, s.doze.light with
  | some (.lathAgree l), _, _ => s.reachNs (max s.nowNs (s.loadNs l - 500000)) fun s => s.lathDisagree l
  | some (.serviceStart bar false), _, _ =>
    s.reachNs (max s.nowNs (s.barBoundary bar - 500000)) fun s =>
      (s.completeFail reasonTwinMismatch).sendAgree 2 (startAgreement bar)
  | _, some (bar, false), _ =>
    s.reachNs (max s.nowNs (s.barBoundary bar - 500000)) fun s =>
      (({ s with bridge := { s.bridge with autoStart := none } }).setF Reg.sagStatusRestartFailed 1).sendAgree 2
        (startAgreement bar)
  | _, _, some e =>
    if e.agreed then s
    else s.reachNs (max s.nowNs (e.boundary * 250000 - 250000)) fun s =>
      (s.lightAnswered false).sendAgree 2 (lightAgreement e.boundary e.compare)
  | _, _, _ => s

/-! ## The meanings -/

/-- LATH_LOAD. -/
def execLathLoad (p : Port) (s : State) : Outcome := act (s.framed p) fun s => (lathLoadSpec s).issue p s
/-- LATH_APPLY. -/
def execLathApply (s : State) : Outcome := act s State.lathApply
/-- LATH_STREAM. -/
def execLathStream (bytes : List Byte) (s : State) : Outcome := act s (State.lathStream bytes)
/-- LATH_STREAM_GAP_TIMEOUT. -/
def execLathStreamGapTimeout (s : State) : Outcome := act s State.streamGap
/-- AGREE. -/
def execAgree (kind : Fin 3) (answer : Fin 3) (at_ : Word) (digest : BitVec 128) (compare : BitVec 64) (s : State) :
    Outcome :=
  act s (State.agree kind.val answer.val at_.toNat digest compare.toNat)
/-- TWIN_AGREEMENT_TIMEOUT. -/
def execTwinAgreementTimeout (s : State) : Outcome := act s State.agreeTimeout

end Sys2Proof.Machine
end

