-- ==== Sys2Proof/Machine/Roles.lean ====
section
/-! DEFINITION. Host-port roles, enrolment, the journal and capsule commands and maker entry (chapter 02). -/

namespace Sys2Proof.Machine

/-- Ticks of 10 s at 245.76 MHz (R44, R45). -/
def tenSeconds : Nat := 2457600000

/-! ## Sessions (R44 to R46) -/

/-- The port's nonce is younger than 10 s and was drawn for a role. -/
def State.nonceFor (s : State) (p : Port) (r : Role) : Option (List Byte) :=
  match (s.session p).nonce with
  | some n =>
    if n.role = r ∧ s.drone.ticks ≤ n.since + tenSeconds then some (leBytes 32 n.bytes.toNat) else none
  | none => none

/-- The 44 bytes that a role proof signs (R44). -/
def proofMessage (nonce : List Byte) (r : Role) (p : Port) : List Byte :=
  nonce ++ leBytes 8 Config.deviceUid.toNat ++ leBytes 1 (roleCode r) ++ leBytes 1 (portCode p) ++ leBytes 2 0

/-- Void the port's nonce. -/
def State.voidNonce (s : State) (p : Port) : State := s.setSession p { s.session p with nonce := none }

/-- The port is within the 10 s that follow its fourth failure (R45). -/
def State.lockedOut (s : State) (p : Port) : Bool := (s.session p).lockedAt.isSome

/-- ROLE_CHALLENGE after its checks (R44, R45). -/
def State.roleChallenge (p : Port) (s : State) : State :=
  if s.lockedOut p then s.completeFail reasonLockout
  else match roleOfCode (s.argW 0) with
    | none => s.complete .argReject
    | some r =>
      let b := Config.freshNonce s.drawn
      let s := { s with drawn := s.drawn + 1 }
      let s := s.setSession p { s.session p with nonce := some ⟨r, b, s.drone.ticks⟩ }
      s.completeDone (wordsOf (leBytes 32 b.toNat) ++ uidWords)

/-- ROLE_CHALLENGE (0x28). -/
def roleChallengeSpec : CmdSpec where
  opcode := 0x28
  states := notLightHold
  role := roleNone
  argOk s := (roleOfCode (s.argW 0)).isSome
  classes := []
  usesPath := false
  run := State.roleChallenge

/-- A failed ROLE_PROVE (R45): the reason, EV_4, a SESSION_FAIL record, and the lockout at the fourth in a row. -/
def State.proveFail (s : State) (p : Port) (r : Role) (reason : Nat) : State :=
  let x := s.session p
  let n := x.fails + 1
  let s := s.setSession p { x with
    nonce := none, fails := n, lockedAt := if n = 4 then some s.drone.ticks else x.lockedAt }
  let s := (s.raise 4).note ⟨.sessionFail, roleCode r, portCode p, 0, 0, 0⟩
  s.completeFail reason

/-- A successful ROLE_PROVE: another role's session is replaced (R45, R46). -/
def State.proveDone (s : State) (p : Port) (r : Role) (slot : Nat) : State :=
  let s := if (s.session p).role = some r then s else s.endSession p
  let s := s.setSession p { s.session p with role := some r, keySlot := slot, nonce := none, fails := 0 }
  (s.note ⟨.sessionOpen, roleCode r, portCode p, 0, 0, 0⟩).completeDone [0]

/-- The trusted key of a role and slot (R32). -/
def State.trustedKey (s : State) (r : Role) (slot : Nat) : Option RoleKey :=
  s.lath.keys.find? fun k => k.role == roleCode r && k.slot == slot

/-- ROLE_PROVE after its checks. -/
def State.roleProve (p : Port) (s : State) : State :=
  if s.lockedOut p then s.completeFail reasonLockout
  else match roleOfCode (s.argW 0) with
    | none => s.complete .argReject
    | some r =>
      let slot := s.argW 1
      let x := s.readCapture (s.argW 2) 96
      if !x.2.2 then x.1.completeFail reasonMemPoison
      else match s.trustedKey r slot, s.nonceFor p r with
        | none, _ => x.1.proveFail p r reasonKeyUnknown
        | some _, none => x.1.proveFail p r reasonSignature
        | some k, some n =>
          if Config.ecdsaVerify k.point (Config.sha384 (proofMessage n r p)) x.2.1 then x.1.proveDone p r slot
          else x.1.proveFail p r reasonSignature

/-- ROLE_PROVE (0x29). A proof for role maker outside MAKER is rejected by its state (R44). -/
def roleProveSpec (s : State) : CmdSpec where
  opcode := 0x29
  states d := notLightHold d && (s.argW 0 != 1 || d == .maker)
  role := roleNone
  argOk s := (roleOfCode (s.argW 0)).isSome && offsetOk (s.argW 2) 96
  classes := []
  usesPath := false
  run := State.roleProve

/-- ROLE_DROP (0x2A). -/
def roleDropSpec : CmdSpec where
  opcode := 0x2A
  states := notLightHold
  role := roleNone
  argOk _ := true
  classes := []
  usesPath := false
  run p s := (s.endSession p).completeDone []

/-- 10 s after its ROLE_CHALLENGE a port's nonce becomes void (R44). -/
def State.nonceExpiry (p : Port) (s : State) : State :=
  match (s.session p).nonce with
  | none => s
  | some n => s.reach (n.since + tenSeconds + 1) fun s => s.voidNonce p

/-- 10 s after the fourth failure the lockout ends (R45). -/
def State.lockoutEnd (p : Port) (s : State) : State :=
  match (s.session p).lockedAt with
  | none => s
  | some t =>
    s.reach (t + tenSeconds) fun s =>
    s.setSession p { s.session p with lockedAt := none, fails := 0 }

/-! ## Enrolment (R43) -/

/-- The first failed check of an enrolment up to the proof, as its REASON. -/
def State.enrolCheck (s : State) (p : Port) (token key sig : List Byte) : Option Nat :=
  let slot := leAt 16 1 token
  let point := slice 16 97 key
  let keyFramed := leAt 0 2 key == typKey && leAt 2 1 key == 2 && leAt 3 1 key == 0 && leAt 4 4 key == 100 &&
    leAt 16 1 key == 4 && leAt 113 3 key == 0
  if leAt 0 4 token != 0x4C524E45 || leAt 4 4 token != targetId || leAt 17 3 token != 0 then some reasonBadHeader
  else if !(s.lath.keys.any fun k => k.role == 1 &&
      Config.ecdsaVerify k.point (Config.sha384 (token.take 72)) (slice 72 96 token)) then some reasonSignature
  else if leAt 8 8 token != Config.deviceUid.toNat then some reasonTarget
  else match freeSlot s.fuses.slots.toList with
    | none => some reasonNoSlot
    | some f =>
      if slot != f then some reasonInconsistent
      else if !keyFramed || digestBytes (Config.sha384 point) != slice 20 48 token then some reasonKeyUnknown
      else match s.nonceFor p .installer with
        | none => some reasonSignature
        | some n =>
          if Config.ecdsaVerify point (Config.sha384 (proofMessage n .installer p)) sig then none
          else some reasonSignature

/-- Blow a slot's fuses. -/
def State.blowSlot (s : State) (i : Nat) (x : InstSlot) : State :=
  { s with fuses := { s.fuses with slots := vecSet s.fuses.slots i x } }

/-- INSTALLER_ENROL after its checks. Whether the read-back of the blown fuses succeeds is free. -/
def State.enrol (p : Port) (s : State) : State :=
  if s.journalFull then s.completeFail reasonJournalFull
  else
    let a := s.readCapture (s.argW 0) 168
    let b := a.1.readCapture (s.argW 1) 116
    let c := b.1.readCapture (s.argW 2) 96
    if !(a.2.2 && b.2.2 && c.2.2) then c.1.completeFail reasonMemPoison
    else
      let t := c.1
      match s.enrolCheck p a.2.1 b.2.1 c.2.1 with
      | some r => (t.voidNonce p).completeFail r
      | none =>
        let slot := leAt 16 1 a.2.1
        let d := BitVec.ofNat 384 (ofBe (slice 20 48 a.2.1))
        let v := (t.voidNonce p).draw
        if v.1 % 2 = 0 then
          ((v.2.blowSlot slot ⟨d, true, false⟩).note ⟨.enrolled, 0, portCode p, 0, slot, 0⟩).completeDone [0]
        else
          ((v.2.blowSlot slot ⟨d, true, true⟩).note ⟨.enrolled, 0, portCode p, reasonFuseFail, slot, 0⟩).completeFail
            reasonFuseFail

/-- INSTALLER_ENROL (0x2C). -/
def installerEnrolSpec : CmdSpec where
  opcode := 0x2C
  states d := d == .unlathed
  role := roleNone
  argOk s := offsetOk (s.argW 0) 168 && offsetOk (s.argW 1) 116 && offsetOk (s.argW 2) 96
  classes := []
  usesPath := false
  run := State.enrol

/-! ## The journal and the capsule (R60 to R66, R548) -/

/-- The places of the twin's ring that hold its records from a SEQ on, oldest first. -/
def State.twinPlaces (s : State) (seq : Nat) : List Nat :=
  ((List.range s.journal.twinHeld).map fun i => twinRingAddr (s.journal.twinNext - s.journal.twinHeld + i)).filter
    fun a => decide (seq ≤ ofLe (s.rawBytes .spine a 4))

/-- The places of the device's own journal that hold unacknowledged records from a SEQ on. -/
def State.ownPlaces (s : State) (seq : Nat) : List Nat :=
  ((List.range s.unacked).map fun i => s.journal.first + i).filterMap fun q =>
    if seq ≤ q then some (journalAddr q) else none

/-- JOURNAL_COPY after its checks (R548). -/
def State.journalCopy (_ : Port) (s : State) : State :=
  let seq := s.argW 1
  let all := if s.argW 0 = 0 then s.ownPlaces seq else s.twinPlaces seq
  let l := all.take (s.argW 2)
  let last := match l.getLast? with
    | some a => ofLe (s.rawBytes .spine a 4)
    | none => 0xFFFFFFFF
  (s.copyRecords 128 (s.argW 3) l).completeDone [l.length, last]

/-- JOURNAL_COPY (0x30). -/
def journalCopySpec : CmdSpec where
  opcode := 0x30
  states := notLightHold
  role := roleKeylessAny
  argOk s := decide (s.argW 0 ≤ 1) && decide (1 ≤ s.argW 2) && decide (s.argW 2 ≤ 512) &&
    offsetOk (s.argW 3) (128 * s.argW 2)
  classes := []
  usesPath := false
  run := State.journalCopy

/-- Free every written record up to and including a SEQ (R64), and write the waiting LOST_RECORDS record (R63). -/
def State.journalAck (s : State) (seq : Nat) : State :=
  let first := max s.journal.first (min (seq + 1) s.journal.next)
  ({ s with journal := { s.journal with first := first } }).journalFlush

/-- JOURNAL_ACK (0x31). -/
def journalAckSpec : CmdSpec where
  opcode := 0x31
  states := notLightHold
  role := roleKeylessIO
  argOk _ := true
  classes := []
  usesPath := false
  run _ s := let t := s.journalAck (s.argW 0); t.completeDone [t.unacked]

/-- CAPSULE_COPY (0x34). A capsule that is not VALID is not copied. -/
def capsuleCopySpec : CmdSpec where
  opcode := 0x34
  states := notLightHold
  role := roleKeylessAny
  argOk s := offsetOk (s.argW 0) 16384
  classes := []
  usesPath := false
  run _ s :=
    if !s.journal.capsuleValid then s.completeDone [0]
    else
      let r := s.readSpine capsuleAddr 16384
      if r.2.2 then (r.1.writeBytes .capture .spine (s.argW 0) r.2.1).completeDone [1]
      else r.1.completeFail reasonMemPoison

/-- Clear the failure capsule (R66). -/
def State.capsuleClear (s : State) : State :=
  let s := s.zeroWords .spine (capsuleAddr / 32) 512
  { s with journal := { s.journal with capsuleValid := false, laterFaults := 0 } }

/-- CAPSULE_CLEAR (0x35). -/
def capsuleClearSpec : CmdSpec where
  opcode := 0x35
  states := notLightHold
  role := fun _ r => r == some .installer || r == some .operator
  argOk _ := true
  classes := []
  usesPath := false
  run _ s := s.capsuleClear.completeDone []

/-! ## Maker entry (R68 to R70) -/

/-- The first failed check of a MAKER_ENTER, as its REASON. -/
def State.makerCheck (s : State) (p : Port) (token key : List Byte) : Option Nat :=
  let point := slice 16 97 key
  let keyFramed := leAt 0 2 key == typKey && leAt 2 1 key == 1 && leAt 3 1 key == 0 && leAt 4 4 key == 100 &&
    leAt 16 1 key == 4 && leAt 113 3 key == 0
  if !keyFramed || Config.sha384 point != Config.makerKeyDigest then some reasonKeyUnknown
  else if leAt 0 4 token != 0x4E454B4D || leAt 4 4 token != targetId then some reasonBadHeader
  else if !Config.ecdsaVerify point (Config.sha384 (token.take 52)) (slice 52 96 token) then some reasonSignature
  else if leAt 8 8 token != Config.deviceUid.toNat then some reasonTarget
  else match s.nonceFor p .maker with
    | some n => if slice 16 32 token = n then none else some reasonSignature
    | none => some reasonSignature

/-- Blow the next RETURNED fuse and the REVOKED fuse of the active installer slot (R69 step 1). -/
def State.blowReturned (s : State) : State :=
  let f := { s.fuses with returned := s.fuses.returned + 1 }
  match activeSlot f.slots.toList with
  | some i =>
    match f.slots[i]? with
    | some x => { s with fuses := { f with slots := vecSet f.slots i { x with revoked := true } } }
    | none => { s with fuses := f }
  | none => { s with fuses := f }

/-- MAKER_ENTER after its checks: on success the erase begins, and the command stays RUNNING until it ends. It leaves the
nonce of the challenge as it is, and holds it to the 10 s of R44 (log 175). -/
def State.makerEnter (p : Port) (s : State) : State :=
  if s.journalFull then s.completeFail reasonJournalFull
  else
    let a := s.readCapture (s.argW 0) 148
    let b := a.1.readCapture (s.argW 1) 116
    if !(a.2.2 && b.2.2) then b.1.completeFail reasonMemPoison
    else match s.makerCheck p a.2.1 b.2.1 with
      | some r => ((b.1.raise 4).note ⟨.sessionFail, 1, portCode p, 0, 0, 0⟩).completeFail r
      | none =>
        if 4 ≤ s.fuses.returned then b.1.completeFail reasonNoSlot
        else
          let k : RoleKey := ⟨1, 0, slice 16 97 b.2.1⟩
          let s := b.1.blowReturned
          let keys := s.lath.keys.filter (fun k => k.role != 1) ++ [k]
          { s with job := some .makerErase, lath := { s.lath with keys := keys } }

/-- MAKER_ENTER (0x3E). With MAKER_EN latched low it is rejected by role (R68). -/
def makerEnterSpec (s : State) : CmdSpec where
  opcode := 0x3E
  states d := d == .bare || d == .unlathed || d == .lathed || d == .fault
  role _ _ := s.drone.straps.makerEn
  argOk s := offsetOk (s.argW 0) 148 && offsetOk (s.argW 1) 116
  classes := []
  usesPath := false
  run := State.makerEnter

/-- The erase of R69 step 2. The installer and operator sections' register bits fall back to reset with them. -/
def State.makerErase (s : State) : State :=
  let gone := s.lath.recs.filter fun r => r.role != 1
  let s := s.each gone fun s r => s.each (r.writes.getD []) fun s w => s.resetBits w.addr w.mask
  let s := { s with lath := { s.lath with
    recs := s.lath.recs.filter fun r => r.role == 1
    keys := s.lath.keys.filter fun k => k.role == 1
    pending := none
    twinPending := none } }
  let s := s.each [MemId.registry, .stencil, .capture, .faProg, .faData] State.zeroMem
  let s := s.unloadCores
  let s := s.each (List.range 64) fun s p => s.each [0, 1] fun s b =>
    s.each (List.range 40) fun s i =>
      if i = 0 then (s.setF (Reg.dpd0Re p b) 0).setF (Reg.dpd0Im p b) 0
      else (s.setF (Reg.dpdIRe p b (i - 1)) 0).setF (Reg.dpdIIm p b (i - 1)) 0
  let s := s.each (List.range 4) fun s x => s.each (List.range 256) fun s i => s.synClear x i
  let s := s.zeroWords .spine (524288 / 32) 16384
  { s with journal := { s.journal with twinNext := 0, twinHeld := 0 } }

/-- The MAKER_ENTRY record; its DIGEST covers the erase report, whose layout the spec does not give: a free value. -/
def State.makerRecord (s : State) : State :=
  let v := s.draw
  v.2.note ⟨.makerEntry, 0, 4, 0, Config.deviceUid.toNat, v.1⟩

/-- The erase ends: ERASE_DONE, the MAKER_ENTRY record, EV_118, MAKER, and the command completes (R69). -/
def State.makerEraseComplete (s : State) : State :=
  match s.job with
  | some .makerErase =>
    let s := s.makerErase
    let s := { s with fuses := { s.fuses with eraseDone := s.fuses.returned } }
    ((s.makerRecord.raise 118).toDev .maker).completeDone [0]
  | _ => s

/-! ## Lath information and cancellation (R56, R60) -/

/-- LATH_INFO (0x22). -/
def lathInfoSpec : CmdSpec where
  opcode := 0x22
  states := notLightHold
  role := roleNone
  argOk s := (roleOfCode (s.argW 0)).isSome
  classes := []
  usesPath := false
  run _ s :=
    let l := s.fuses.slots.toList
    let valid := listMask ((List.range 4).filter fun i => match l[i]? with | some x => x.valid | none => false)
    let revoked := listMask ((List.range 4).filter fun i => match l[i]? with | some x => x.revoked | none => false)
    let act := match activeSlot l with | some i => 256 * i | none => 2048
    s.completeDone (wordsOf (digestBytes (roleDigest (s.argW 0) s.lath.recs)) ++ uidWords ++
      [valid + 16 * revoked + act, s.fuses.returned + 16 * bit s.lath.pending.isSome])

/-- LATH_CANCEL (0x21). -/
def lathCancelSpec : CmdSpec where
  opcode := 0x21
  states := lathedUp
  role := roleO
  argOk _ := true
  classes := []
  usesPath := false
  run p s :=
    match s.lath.pending with
    | none => s.completeDone [0, 0]
    | some l =>
      if s.withinFret (s.barBoundary l.targetBar) then (s.results [reasonTooLate, 0]).complete .failed
      else if s.journalFull then s.completeFail reasonJournalFull
      else
        let s := { s with lath := { s.lath with pending := none, twinPending := none } }
        (s.note ⟨.relathCancelled, 3, portCode p, 0, l.serial, 0⟩).completeDone [0, 1]

/-! ## The commands -/

/-- ROLE_CHALLENGE. -/
def execRoleChallenge (p : Port) (s : State) : Outcome := act (s.framed p) (roleChallengeSpec.issue p)
/-- ROLE_PROVE. -/
def execRoleProve (p : Port) (s : State) : Outcome := act (s.framed p) fun s => (roleProveSpec s).issue p s
/-- ROLE_DROP. -/
def execRoleDrop (p : Port) (s : State) : Outcome := act (s.framed p) (roleDropSpec.issue p)
/-- NONCE_EXPIRY. -/
def execNonceExpiry (p : Port) (s : State) : Outcome := act s (State.nonceExpiry p)
/-- LOCKOUT_END. -/
def execLockoutEnd (p : Port) (s : State) : Outcome := act s (State.lockoutEnd p)
/-- INSTALLER_ENROL. -/
def execInstallerEnrol (p : Port) (s : State) : Outcome := act (s.framed p) (installerEnrolSpec.issue p)
/-- JOURNAL_COPY. -/
def execJournalCopy (p : Port) (s : State) : Outcome := act (s.framed p) (journalCopySpec.issue p)
/-- JOURNAL_ACK. -/
def execJournalAck (p : Port) (s : State) : Outcome := act (s.framed p) (journalAckSpec.issue p)
/-- CAPSULE_COPY. -/
def execCapsuleCopy (p : Port) (s : State) : Outcome := act (s.framed p) (capsuleCopySpec.issue p)
/-- CAPSULE_CLEAR. -/
def execCapsuleClear (p : Port) (s : State) : Outcome := act (s.framed p) (capsuleClearSpec.issue p)
/-- MAKER_ENTER. -/
def execMakerEnter (p : Port) (s : State) : Outcome := act (s.framed p) fun s => (makerEnterSpec s).issue p s
/-- MAKER_ERASE_COMPLETE. -/
def execMakerEraseComplete (s : State) : Outcome := act s State.makerEraseComplete
/-- LATH_INFO. -/
def execLathInfo (p : Port) (s : State) : Outcome := act (s.framed p) (lathInfoSpec.issue p)
/-- LATH_CANCEL. -/
def execLathCancel (p : Port) (s : State) : Outcome := act (s.framed p) (lathCancelSpec.issue p)

end Sys2Proof.Machine
end

