-- ==== Sys2Proof/Machine/Resets.lean ====
section
/-! DEFINITION. Power-up and the resets (R81 to R86, R513, R526, R535 to R537, R547, R550), the power-up sequence to spine
release, Deep Hold entry and wake, and the quad-SPI frames that act on the drone. -/

namespace Sys2Proof.Machine

/-! ## What a reset loses -/

/-- The device in a reset: every domain but DRONE at its reset values; the fuses, the queue of commands, the levels of
the presence pins and the drone stay (R83, R193). Accesses that wait are lost with the spine. -/
def State.lost (s : State) (k : ResetKind) : State :=
  ({ State.reset with
    pending := s.pending
    phase := .reset k
    fuses := s.fuses
    drawn := s.drawn
    out := s.out
    drone := { s.drone with resetEnabled := false } } : State).tilesUnpowered s.tiles

/-- A power-up: the drone is reset too, and latches the straps (R83, R85). SAG_N keeps its level. -/
def State.powerUp (straps : Straps) (s : State) : State :=
  let t := s.lost .powerUp
  { t with drone := { Drone.fresh straps with sagLow := s.drone.sagLow } }

/-- The rising edge of RESET_N that ends a cold reset: in MAKER a power-up (R81), in a brown-out hold the hold goes on, and
from Deep Hold it is that wake's cause (R85, R109, R535). -/
def State.coldReset (straps : Straps) (s : State) : State :=
  if s.phase = .run ∧ s.dev = .maker then s.powerUp straps
  else if s.phase = .deepEntry then
    ({ s with drone := { s.drone with straps := straps } } : State).deepSource .resetPin
  else
    let deep := s.phase == .deepHold
    let t := s.lost (if s.phase = .reset .brownOut then .brownOut else .cold)
    { t with drone := { t.drone with
      straps := straps
      wakeCause := if deep then .resetPin else t.drone.wakeCause
      wakeHeld := none
      sagHold := false } }

/-- COLD_RESET: a low pulse on RESET_N of a length in ns. From 100 ns to 1 µs it resets wholly or not at all: a free
choice (R547). -/
def State.resetPulse (straps : Straps) (lowNs : Nat) (s : State) : State :=
  if lowNs < 100 then s
  else if 1000 ≤ lowNs then s.coldReset straps
  else
    let v := s.draw
    if v.1 % 2 = 1 then v.2.coldReset straps else v.2

/-- BROWN_OUT: outside Deep Hold a reset begins and is held; in MAKER it is a power-up (R71, R537). -/
def State.brownOut (s : State) : State :=
  if s.phase = .deepHold then s
  else
    let maker := s.phase == .run && s.dev == .maker
    let t := s.lost .brownOut
    { t with drone :=
      if maker then { Drone.fresh s.drone.straps with sagLow := s.drone.sagLow }
      else { t.drone with wakeHeld := none, sagHold := false } }

/-- BROWN_OUT_HOLD_END: the straps are latched, and the sequence starts (R85, R537). -/
def State.brownOutEnds (straps : Straps) (s : State) : State :=
  match s.phase with
  | .reset .brownOut => { s with phase := .reset .cold, drone := { s.drone with straps := straps } }
  | _ => s

/-! ## Warm reset (R63, R550) -/

/-- The bytes of spine memory that a warm reset keeps: the journal, the capsule, the divergence log and the plan. -/
def warmKeeps (a : Nat) : Bool :=
  decide (a < 524288) || (decide (capsuleAddr ≤ a) && decide (a < planAddr + 32))

/-- What a warm reset keeps of spine memory. -/
def CodedMem.warm (x : CodedMem) : CodedMem :=
  ⟨x.bytes.filter fun c => warmKeeps c.1, x.marks.filter fun m => warmKeeps (32 * m.1), x.rest⟩

/-- The warm reset itself: a NOTICE, the end of an accepted load (R549) and the sessions' ends, which the kept journal
records, and then all but the drone and the kept part of spine memory is reset. -/
def State.warmReset (s : State) : State :=
  let s := (((s.sendNotice 3).withdrawLoads .bare).endSession .pcie).endSession .qspi
  let t := s.lost .warm
  let t := { t with
    spineMem := s.spineMem.warm
    journal := { s.journal with twinNext := 0, twinHeld := 0 }
    bridge := { BridgeState.fresh with diverging := s.bridge.diverging, divNext := s.bridge.divNext } }
  (t.setF Reg.divergenceCount (s.getF Reg.divergenceCount)).setF Reg.divergenceDropped (s.getF Reg.divergenceDropped)

/-- WARM_RESET (0x0E). It reports no completion. -/
def warmResetSpec : CmdSpec where
  opcode := 0x0E
  states d := d != .lightHold && d != .maker
  role := roleKeylessIO
  argOk _ := true
  classes := []
  usesPath := false
  run _ s := s.warmReset

/-! ## The power-up sequence (R83 to R86) -/

/-- The class of a count of REFCLK cycles over eight oscillator periods (R13, R14). -/
def refClassOf (n : Nat) : Nat :=
  if 29400 ≤ n ∧ n ≤ 30600 then 3
  else if 14700 ≤ n ∧ n ≤ 15300 then 2
  else if 7350 ≤ n ∧ n ≤ 7650 then 1
  else 0

/-- Step 2: REFCLK is classed, once from power-up to power-up (R14). -/
def Drone.classed (d : Drone) (count : Nat) : Drone :=
  if d.refDone then d else { d with refClass := refClassOf count, refCount := min count 65535, refDone := true }

/-- Step 6: the hardware fill, which after a warm reset leaves the kept part of spine memory (R481). -/
def State.fillMemories (s : State) (warm : Bool) : State :=
  { s with
    registryMem := .filled .registry
    stencilMem := .filled .stencil
    captureMem := .filled .capture
    spineMem := if warm then s.spineMem else .filled .spine
    faProg := .filled .faProg
    faData := .filled .faData }

/-- The margin plan that a warm reset kept comes back into its registers, and MEM_TIMING is applied (R448). -/
def State.takePlan (s : State) : State :=
  let r := s.readSpine planAddr 8
  let a := leAt 0 4 r.2.1
  let b := leAt 4 4 r.2.1
  let s := if !r.2.2 || (a == 0 && b == 0) then r.1
    else
      (((r.1.setF Reg.planAGuardMv (a % 256)).setF Reg.planAMemTiming (bits a 8 2)).setF Reg.planAPrepIntervalH
        (bits a 16 12)).setF Reg.planBCouplerPeriod (b % 65536)
  { s with cal := { s.cal with memTiming := s.memTimingInUse } }

/-- The journal after a reset other than a warm one: it starts at the SEQ after the tail latch's, or at 0, with a GENESIS
record (R62). -/
def State.startJournal (s : State) : State :=
  let q := match s.drone.tail with | some t => t.1 + 1 | none => 0
  let s := { s with journal := ⟨q, q, 0, none, 0, 0, q, false, 0⟩ }
  s.note ⟨.genesis, 0, 4, 0, Config.deviceUid.toNat, 0⟩

/-- A maker erase that was cut short is repeated (R70, R84). -/
def State.repeatErase (s : State) : State :=
  if s.fuses.returned ≤ s.fuses.eraseDone then s
  else ({ s.makerErase with fuses := { s.fuses with eraseDone := s.fuses.returned } }).makerRecord

/-- The PCIe link is up from spine release (R514); its speed and width are the host's to set: free values. -/
def State.pcieUp (s : State) : State :=
  let a := s.draw
  let b := a.2.draw
  ((b.2.setF Reg.pcieLinkSpeed (1 + a.1 % 3)).setF Reg.pcieLinkWidth (1 + b.1 % 2)).setF Reg.pcieLinkDlActive 1

/-- The load that BOOT_SEL = 2 issues at spine release (R85, R86): its arguments stand in the argument block. -/
def State.bootLoad (s : State) : State :=
  let s := s.results [1, 0, 4194304, 0, 0]
  (lathLoadSpec s).check .qspi (s.begin .qspi 0x20)

/-- Steps 3 to 8: spine release, in BARE, or in FAULT where the self-test failed. -/
def State.release (k : ResetKind) (selfTestOk : Bool) (s : State) : State :=
  let warm := k == .warm
  let s := s.fillMemories warm
  let s := { s with phase := .run, returnedPart := decide (0 < s.fuses.returned) }
  let s := if warm then s.takePlan else s.startJournal
  let s := (s.repeatErase.biasUp.pcieUp).raise 0
  let s := s.sagJudge
  let s := if selfTestOk then s else s.enterFault 0
  s.when (s.drone.straps.bootSel == 2) State.bootLoad

/-- OSC_READY: the sequence of R83 runs from its start point. An unknown class of REFCLK stops it. -/
def State.oscReady (refCount : Nat) (selfTestOk : Bool) (s : State) : State :=
  match s.phase with
  | .reset .brownOut => s
  | .reset k =>
    let s := { s with drone := s.drone.classed refCount }
    if s.drone.refClass = 0 then s else s.release k selfTestOk
  | _ => s

/-! ## Deep Hold entry and wake (R108, R109) -/

/-- DEEP_HOLD_ENTRY_COMPLETE: only the drone is powered from here, and then the wake compare is set (R108, steps 3 and 4);
a wake source that came during the entry acts (R109). -/
def State.deepEntered (s : State) : State :=
  if s.phase != .deepEntry then s
  else
    let n := s.drone.wakeTicks
    let s := { s.lost .deepWake with phase := .deepHold }
    let s := { s with drone := { s.drone with
      wakeTicks := 0, wakeCompare := if n = 0 then 0 else (s.wakeCount + n) % 2 ^ 48 } }
    match s.drone.wakeHeld with
    | some .resetPin => s.coldReset s.drone.straps
    | some c => s.deepSource c
    | none => s

/-- DEEP_HOLD_WAKE: the wake count reaches a compare that is not zero. -/
def State.deepTimer (s : State) : State :=
  if s.phase != .deepHold || s.drone.wakeCompare == 0 then s
  else
    let s := if s.wakeCount < s.drone.wakeCompare then
        s.passTickCount (s.drone.ticks / 7500 * 7500 + (s.drone.wakeCompare - s.wakeCount) * 7500)
      else s
    s.deepSource .timer

/-! ## Quad-SPI frames that act on the drone (R526) -/

/-- WAKE: it wakes the device from Light Hold or Deep Hold. -/
def State.wakeFrame (s : State) : State :=
  let s := s.frame
  if s.phase == .run then s.lightSource else s.deepSource .qspi

/-- DRONE_RESET: a power-up, if the frame before was RESET_ENABLE. -/
def State.droneReset (straps : Straps) (s : State) : State :=
  if s.drone.resetEnabled then s.powerUp straps else s.frame

/-! ## PCIe resets (R513) -/

/-- A PCIe reset: the MSI-X table and its pending bits go to reset, the PCIe session ends and its claim is released. -/
def State.pcieReset (s : State) : State :=
  if !s.spineRuns then s
  else
    let s := s.each (List.range 32) fun s v =>
      ((((s.setF (Reg.msixAddrLo v) 0).setF (Reg.msixAddrHi v) 0).setF (Reg.msixData v) 0).setF (Reg.msixControlMask v)
        (Reg.msixControlMask v).rst)
    let s := { s with events := { s.events with withheld := [] } }
    let s := s.endSession .pcie
    if s.claimOwner = some .pcie then s.setF Reg.cmdClaimOwner 0 else s

/-! ## The meanings -/

/-- POWER_UP. -/
def execPowerUp (straps : Straps) (s : State) : Outcome := act s (State.powerUp straps)
/-- OSC_READY. -/
def execOscReady (refCount : Nat) (selfTestOk : Bool) (s : State) : Outcome := act s (State.oscReady refCount selfTestOk)
/-- COLD_RESET. -/
def execColdReset (straps : Straps) (lowNs : Nat) (s : State) : Outcome := act s (State.resetPulse straps lowNs)
/-- BROWN_OUT. -/
def execBrownOut (s : State) : Outcome := act s State.brownOut
/-- BROWN_OUT_HOLD_END. -/
def execBrownOutHoldEnd (straps : Straps) (s : State) : Outcome := act s (State.brownOutEnds straps)
/-- WARM_RESET. -/
def execWarmReset (p : Port) (s : State) : Outcome := act (s.framed p) (warmResetSpec.issue p)
/-- PLL_UNLOCK. The record and the capsule name EV_0. -/
def execPllUnlock (s : State) : Outcome := act s fun s => if s.phase = .run then s.enterFault 0 else s
/-- DEEP_HOLD_ENTRY_COMPLETE. -/
def execDeepHoldEntryComplete (s : State) : Outcome := act s State.deepEntered
/-- DEEP_HOLD_WAKE. -/
def execDeepHoldWake (s : State) : Outcome := act s State.deepTimer
/-- WAKE. -/
def execWake (s : State) : Outcome := act s State.wakeFrame
/-- RESET_ENABLE. -/
def execResetEnable (s : State) : Outcome := act s fun s =>
  let t := s.frame
  { t with drone := { t.drone with resetEnabled := true } }
/-- DRONE_RESET. -/
def execDroneReset (straps : Straps) (s : State) : Outcome := act s (State.droneReset straps)

end Sys2Proof.Machine
end

