-- ==== Sys2Proof/Machine/HostAccess.lean ====
section
/-! DEFINITION. The host ports (chapter 19): the block map, register reads with their latches, register writes under the
role and domain rules, the command register, the index-2 windows, and the quad-SPI frames. -/

namespace Sys2Proof.Machine

/-- A register's domain is On or Gated (R515). -/
def State.regReached (s : State) (a : Nat) : Bool := (regDomains a).any s.reached

/-! ## Reads (R515, R516) -/

/-- The latching side effects of a read. -/
def State.readLatch (s : State) (a : Nat) : State :=
  if a = Reg.nowNs.addr then s.nowLatch
  else if a = Reg.ppsInNs.addr then s.ppsLatch
  else if a = Reg.txtsId.addr then s.txtsLatch
  else if a = Reg.logAddrAddr.addr then s.logLatch
  else if a = Reg.owdResultLo.addr then s.setF Reg.owdResultHi (s.fh.owdLast / 2 ^ 32)
  else if 0x1900000 ≤ a ∧ a < 0x1900400 ∧ a % 64 = 4 then s.descLatch ((a - 0x1900000) / 64)
  else if 0x1900000 ≤ a ∧ a < 0x1900400 ∧ a % 64 = 0x14 then s.faultLatch ((a - 0x1900000) / 64)
  else if 0x1600100 ≤ a ∧ a < 0x1600500 ∧ a % 32 = 0xC then
    s.accLatch ((a - 0x1600100) / 512) ((a - 0x1600100) % 512 / 32)
  else s

/-! ## Writes of fields (R5, R7, R515, R516) -/

/-- A write of a dword: its address, its value, and the bits that its byte enables select. -/
structure RegWrite where
  addr : Nat
  value : Nat
  mask : Nat
  deriving DecidableEq, Repr

/-- The bits that byte enables select. -/
def enabledBits (be : BitVec 4) : Nat :=
  (List.range 4).foldl (fun n i => if be.getLsbD i then n + 255 * 2 ^ (8 * i) else n) 0

/-- The enabled bits of a field. -/
def RegWrite.fieldMask (w : RegWrite) (r : FieldRow) : Nat := bits w.mask r.lo r.w

/-- The enabled bits of a field that are written 1. -/
def RegWrite.ones (w : RegWrite) (r : FieldRow) : Nat := bits w.value r.lo r.w &&& w.fieldMask r

/-- A field's value after the write: its bits that are not enabled stay. -/
def RegWrite.merge (w : RegWrite) (r : FieldRow) (old : Nat) : Nat := w.ones r + (old - (old &&& w.fieldMask r))

/-- The write reaches a field: a field that is not RO, and of a W1C field a bit that is written 1. -/
def RegWrite.touches (w : RegWrite) (r : FieldRow) : Bool :=
  r.access != .ro && w.fieldMask r != 0 && (r.access != .w1c || w.ones r != 0)

/-- The MSI-X table, which PCI Express gives to the host whatever its role. -/
def msixTable (a : Nat) : Bool := decide (0x1A10000 ≤ a) && decide (a < 0x1A10200)

/-- The registers that only the lath loader writes (R546). -/
def loaderOnly (a : Nat) : Bool := a == 0x520 || a == 0x524 || a == 0x528

/-- The EVENTS registers that R425 opens. -/
def eventsReg (a : Nat) : Bool := decide (0x100000 ≤ a) && decide (a < 0x100200)

/-- FA_n.CTRL and FA_n.DOORBELL change only for an operator core (R303). -/
def State.coreCloses (s : State) (a : Nat) : Bool :=
  decide (0x1000000 ≤ a) && decide (a < 0x1180000) && !(s.core ((a - 0x1000000) / 65536)).operator

/-- The port may change a field (R7, R303, R425, R546). -/
def State.fieldOpen (s : State) (p : Port) (a : Nat) (r : FieldRow) : Bool :=
  if msixTable a then true
  else if loaderOnly a || s.coreCloses a then false
  else if r.access == .w1c then (s.session p).role.isSome || s.dev.keyless
  else if eventsReg a && s.dev.keyless then true
  else match (s.session p).role with
    | some x => r.roles.contains x
    | none => false

/-- A receive filter set, or a pulse set, is the active selection of a path of its half (R127, R147). -/
def State.firUsed (s : State) (h t : Nat) : Bool :=
  (List.range 32).any fun i => s.getF (Reg.rxFilterSel (32 * h + i)) == t || s.getF (Reg.rxFilterSelActive (32 * h + i)) == t
def State.pulseUsed (s : State) (h t : Nat) : Bool :=
  (List.range 32).any fun i => s.getF (Reg.txCfrPulseSel (32 * h + i)) == t || s.getF (Reg.txCfrPulseActive (32 * h + i)) == t

/-- The path and bank of a DPD coefficient's address. -/
def dpdOf (a : Nat) : Option (Nat × Nat) :=
  let off := (a - 0x400000) % 0x4000
  if 0x400000 ≤ a ∧ a < 0x500000 ∧ 0x400 ≤ off ∧ off < 0x600 then some ((a - 0x400000) / 0x4000, (off - 0x400) / 256)
  else none

/-- A write to a DPD coefficient of a bank that is active or pending (R152). -/
def State.dpdRefused (s : State) (a : Nat) : Bool :=
  match dpdOf a with
  | some (n, b) => s.bankRefused n b
  | none => false

/-- A field that a write leaves as it is, by a rule of its block: this is no refusal under R7 (R127, R147, R152, R217,
R457). -/
def State.fieldHeld (s : State) (a : Nat) (r : FieldRow) : Bool :=
  if 0x800100 ≤ a ∧ a < 0x800180 ∧ a % 16 = 0 then
    decide (4 ≤ r.lo) && s.flag (Reg.carConfigEnable ((a - 0x800100) / 64) ((a - 0x800100) % 64 / 16))
  else if 0x600400 ≤ a ∧ a < 0x600800 then s.firUsed ((a - 0x600400) / 512) ((a - 0x600400) % 512 / 256)
  else if 0x600800 ≤ a ∧ a < 0x601000 then s.pulseUsed ((a - 0x600800) / 1024) ((a - 0x600800) % 1024 / 512)
  else if a = 0x1600000 ∨ a = 0x1600010 then
    let x := (a - 0x1600000) / 16
    s.flag (Reg.seqStatusArmed x) || s.flag (Reg.seqStatusRunning x)
  else s.dpdRefused a

/-- The registers whose write R116 and R141 judge. -/
def spanReg (a : Nat) : Bool :=
  (decide (0x600000 ≤ a) && decide (a < 0x600080)) || (decide (0x800100 ≤ a) && decide (a < 0x800180))

/-! ## Storing what a write leaves -/

/-- Store one field by its access code. -/
def State.storeField (s : State) (w : RegWrite) (r : FieldRow) : State :=
  let f := r.fld w.addr
  match r.access with
  | .sh => s.setSh f (w.merge r (s.getSh f))
  | .rw => s.setF f (w.merge r (s.getF f))
  | .w1c => s.setF f (s.getF f - (s.getF f &&& w.ones r))
  | .ro => s
  | .wo => s
  | .w1s => s

/-- A field of a list is written with bit `i` of the dword set. -/
def RegWrite.sets (w : RegWrite) (rows : List FieldRow) (i : Nat) : Bool :=
  (rows.any fun r => decide (r.lo ≤ i) && decide (i < r.lo + r.w)) && testBit (w.value &&& w.mask) i

/-- A field of a list begins at bit `i`. -/
def hasRow (rows : List FieldRow) (i : Nat) : Bool := rows.any fun r => r.lo == i

/-- Store the fields of a write: INC as R387 gives, LENGTH as R169 gives, ARM as R416 gives; a core's registers are its
own. -/
def State.storeReg (s : State) (w : RegWrite) (rows : List FieldRow) : State :=
  if rows.isEmpty then s
  else
  let s := s.when (decide (0x180100 ≤ w.addr) && decide (w.addr < 0x180180)) fun s => s.cmpBefore ((w.addr - 0x180100) / 16)
  if w.addr = Reg.incLo.addr then
    { s with time := { s.time with
      incLoBuf := (w.value &&& w.mask) + (s.time.incLoBuf - (s.time.incLoBuf &&& w.mask)) } }
  else if w.addr = Reg.incHi.addr then
    s.applyInc ((w.value &&& w.mask) + (s.getF Reg.incHi - (s.getF Reg.incHi &&& w.mask)))
  else if 0x1000000 ≤ w.addr ∧ w.addr < 0x1180000 then s
  else
    let t := s.each rows fun s r => s.storeField w r
    if w.addr = Reg.commitCtrlArm.addr then t.armWrite (w.sets rows 0) (w.sets rows 1)
    else if 0x600100 ≤ w.addr ∧ w.addr < 0x600200 ∧ w.addr % 32 = 4 then
      let k := (w.addr - 0x600100) / 32
      t.capLengthWritten k (s.getF (Reg.capLengthLength k))
    else t

/-! ## What a write sets off -/

/-- A vector's condition is true (R421). -/
def State.vectorTrue (s : State) (v : Nat) : Bool :=
  (s.deliveredEvents.map s.routeByte).any fun r => testBit r 5 && r % 32 == v

/-- After a W1C write to EVENTS.STATUS, each vector whose condition was and stays true is signalled again (R422). -/
def State.resendVectors (s : State) : State :=
  s.each (s.events.vectors.filter s.vectorTrue) State.sendVector

/-- A vector is unmasked: a withheld message is sent if its condition is still true (R422). -/
def State.vectorUnmasked (s : State) (v : Nat) : State :=
  if !s.events.withheld.contains v then s
  else
    let s := { s with events := { s.events with withheld := s.events.withheld.filter fun x => x != v } }
    if s.vectorTrue v then s.sendVector v else s

/-- The counts that CLEAR_COUNTS of a path's receive or transmit control clears. -/
def State.clearRxCounts (s : State) (n : Nat) : State :=
  (s.setF (Reg.rxExcludedCount n) 0).setF (Reg.rxInvalidSamplesCount n) 0
def State.clearTxCounts (s : State) (n : Nat) : State :=
  ((s.setF (Reg.txSatCountCount n) 0).setF (Reg.txCfrCountCancelled n) 0).setF (Reg.txCfrCountResidual n) 0

/-- What a write to a path's registers sets off. -/
def State.pathEffects (s : State) (w : RegWrite) (rows : List FieldRow) : State :=
  let n := (w.addr - 0x400000) / 0x4000
  let off := (w.addr - 0x400000) % 0x4000
  if off = 0 then s.when (w.sets rows 31) fun s => s.clearRxCounts n
  else if off = 0x100 then s.when (w.sets rows 31) fun s => s.clearTxCounts n
  else if off = 0x110 then s.when (hasRow rows 0) fun s => s.requestBank n (s.getF (Reg.txDpdReqBank n))
  else s

/-- What a write to a core's registers sets off (R285, R303). -/
def State.coreEffects (s : State) (w : RegWrite) (rows : List FieldRow) : State :=
  let n := (w.addr - 0x1000000) / 65536
  let off := (w.addr - 0x1000000) % 65536
  if rows.isEmpty then s
  else if off = 0 then if w.sets rows 0 then s.coreRun n else s.coreHostHalt n
  else if off = 0x18 then
    let old := (s.core n).dbell.toNat
    s.coreDoorbell n ((w.value &&& w.mask) + (old - (old &&& w.mask)))
  else s

/-- What a write sets off once its fields are stored; `old` is the state before it. -/
def State.regEffects (s old : State) (p : Port) (w : RegWrite) (rows : List FieldRow) : State :=
  let a := w.addr
  let s := s.changed old
  let s := s.written old a ((rows.map fun r => w.fieldMask r * 2 ^ r.lo).foldl (· + ·) 0)
  let s := s.when (rows.any fun r => r.access == .sh) fun s => s.shadowWritten p
  if 0x400000 ≤ a ∧ a < 0x500000 then s.pathEffects w rows
  else if 0x1000000 ≤ a ∧ a < 0x1180000 then s.coreEffects w rows
  else if a < 0x100010 ∧ 0x100000 ≤ a then if rows.isEmpty then s else s.resendVectors
  else if a = Reg.biasLoadStrobe.addr then s.when (w.sets rows 0) State.biasStrobe
  else if a = Reg.linkCtrlClearCounts.addr then
    s.when (w.sets rows 31) fun s =>
      let cleared (i : Nat) : Nat := if i < 2 then s.getF (Reg.linkCount (4 + i)) else 0
      let counts := (List.range 4).map fun i => s.fh.barCounts.getD i 0 - (cleared i : Nat)
      let s := { s with fh := { s.fh with barCounts := counts } }
      s.each (List.range 16) fun s n => s.setF (Reg.linkCount n) 0
  else if a = Reg.owdCtrlStart.addr then s.when (w.sets rows 0) State.owdStart
  else if a = Reg.txtsCtrlPop.addr then s.when (w.sets rows 0) State.txtsPop
  else if a = Reg.logCtrlPop.addr then s.when (w.sets rows 0) State.logPop
  else if a = Reg.accessLogInfoClear.addr then
    s.when (w.sets rows 15) fun s => (s.setF Reg.accessLogInfoCause 0).setF Reg.accessLogInfoCount 0
  else if 0x180100 ≤ a ∧ a < 0x180180 ∧ (a % 16 = 8 ∨ a % 16 = 0) then
    let k := (a - 0x180100) / 16
    s.when (if a % 16 = 8 then w.sets rows 0 else hasRow rows 0 && s.flag (Reg.cmpCtrlArm k)) fun s => s.cmpArmed k
  else if a = Reg.seamPhase.addr then
    s.when (hasRow rows 0) fun s =>
      let v := s.getF Reg.seamPhase
      (s.setF Reg.seamPhase (old.getF Reg.seamPhase)).newStepValue 2 0 v
  else if msixTable a ∧ a % 16 = 12 then
    let v := (a - 0x1A10000) / 16
    s.when (old.flag (Reg.msixControlMask v) && !s.flag (Reg.msixControlMask v)) fun s => s.vectorUnmasked v
  else s

/-! ## Paths under test (R441) -/

/-- The path in whose block a register lies. -/
def pathOfReg (a : Nat) : Option Nat :=
  if 0x400000 ≤ a ∧ a < 0x500000 then some ((a - 0x400000) / 0x4000) else none

/-- A write to a register waits for the restore: its path is under test. -/
def State.testHolds (s : State) (a : Nat) : Bool :=
  match pathOfReg a with
  | some n => s.underTest n
  | none => false

/-- Keep a write to a path under test: the bits that its port may change. -/
def State.testWrite (s : State) (p : Port) (a value mask : Nat) : State :=
  { s with cal := { s.cal with testWrites := s.cal.testWrites ++ [⟨p, .regWrite a value mask⟩] } }

/-- Carry out a write that was kept. -/
def State.testApply (s : State) (q : HostReq) : State :=
  match q.acc with
  | .regWrite a v m =>
    let w : RegWrite := ⟨a, v, m⟩
    match fieldRows a with
    | some rows =>
      let rows := rows.filter w.touches
      (s.storeReg w rows).regEffects s q.port w rows
    | none => s
  | _ => s

/-- A write that was kept is to a path that is under test still. -/
def State.testKeeps (s : State) (q : HostReq) : Bool :=
  match q.acc with
  | .regWrite a _ _ => s.testHolds a
  | _ => false

/-- The restore of paths that are under test no more: the writes kept for them take effect (R441). -/
def State.testRestore (s : State) : State :=
  let l := s.cal.testWrites
  ({ s with cal := { s.cal with testWrites := l.filter s.testKeeps } } : State).each
    (l.filter fun q => !s.testKeeps q) State.testApply

/-- What a host read of a register returns: of a path under test the saved copy, with what the host wrote to it (R441). -/
def State.hostValue (s : State) (a : Nat) : Nat :=
  if s.testHolds a then
    (s.each (s.cal.testWrites.filter fun q => match q.acc with | .regWrite b _ _ => b == a | _ => false)
      State.testApply).regValue a
  else s.regValue a

/-- A read of a dword of the index-0 BAR: the state after it, the word, and whether it had an effect. -/
def State.readReg (s : State) (p : Port) (a : Nat) : State × Nat × Bool :=
  if !isRegister a then (s.logAccess p a false .unmapped, 0, false)
  else if !s.regReached a then (s.logAccess p a false .off, 0, false)
  else
    let s := s.readLatch a
    (s, s.hostValue a, true)

/-! ## Register writes (R7, R61, R515) -/

/-- A change of the field is journalled: installer or maker may make it (R61). -/
def FieldRow.journalled (r : FieldRow) : Bool := r.roles.contains .maker || r.roles.contains .installer

/-- The DIGEST of a FIELD_WRITE record (R61). -/
def fieldDigest (a before after : Nat) : Nat := (Config.sha384 (leBytes 4 a ++ leBytes 4 before ++ leBytes 4 after)).toNat

/-- A write to the fields of a register that is reached: the fields that the port may not change stay and are logged;
fields whose change a full journal cannot record stay; the rest is stored, journalled and acted on, of a path under test at
the restore (R441). -/
def State.writeFields (s : State) (p : Port) (w : RegWrite) (all : List FieldRow) : State :=
  let a := w.addr
  let touched := all.filter w.touches
  let allowed := touched.filter (s.fieldOpen p a)
  let rows := allowed.filter fun r => !s.fieldHeld a r
  let rows := if spanReg a && !spansOk (s.storeReg w rows).getSh then [] else rows
  let t := s.storeReg w rows
  let noted := if msixTable a then []
    else rows.filter fun r => r.journalled && s.fieldView a r != t.fieldView a r
  let full := !noted.isEmpty && s.journalFull
  let rows := if full then rows.filter fun r => !noted.contains r else rows
  let t := if full then s.storeReg w rows else t
  let noting := !noted.isEmpty && !full
  let held := s.testHolds a
  let t := if held then s.testWrite p a w.value ((rows.map fun r => w.fieldMask r * 2 ^ r.lo).foldl (· + ·) 0) else t
  let digest := fieldDigest a (s.hostValue a) (t.hostValue a)
  let t := t.when noting fun t => t.note ⟨.fieldWrite, sessionRole (s.session p), portCode p, 0, a, digest⟩
  let t := if held then t else t.regEffects s p w rows
  let t := t.when (!allowed.isEmpty && s.dpdRefused a) fun t =>
    match dpdOf a with
    | some (n, _) => t.addSat (Reg.txDpdRefusedWrites n) 1
    | none => t
  if allowed.length < touched.length then t.logAccess p a true .role
  else if full then t.logAccess p a true .journalFull
  else t

/-! ## The command register (R77, R80, R527 to R529) -/

/-- Every command of the opcode tables. -/
def State.specs (s : State) : List CmdSpec :=
  [serviceStartSpec, serviceStopSpec, holdOffSpec, lightHoldEnterSpec s, lightHoldExitSpec, deepHoldEnterSpec,
   warmResetSpec, stateInfoSpec, timeSetSpec, timeStepSpec, timeLockSpec, timeUnlockSpec, lathLoadSpec s, lathCancelSpec,
   lathInfoSpec, roleChallengeSpec, roleProveSpec s, roleDropSpec, installerEnrolSpec] ++
  [journalCopySpec, journalAckSpec, capsuleCopySpec, capsuleClearSpec, makerEnterSpec s, calRunSpec, pathTestSpec,
   calSaveSpec, calRestoreSpec, marginReplanSpec, pathPrepareSpec, pathFenceSpec, pathUnfenceSpec, rxSyncSpec, dpdAdaptSpec,
   captureStartSpec, captureStopSpec, synHopSpec, synCalSpec] ++
  [synStoreClearSpec, tileEnumSpec, tileReleaseSpec, aerialTuneSpec, rffeXferSpec, stencilSelectSpec, gridBuildSpec,
   regWriteSpec, regBulkSpec, regFreeSpec, regFindSpec, regWindowSpec, twinInfoSpec, divergenceCopySpec,
   divergenceClearSpec, hodStartSpec, hodStopSpec, hkStartSpec, hkStopSpec, hkClearSpec]

/-- The command that an opcode names. -/
def State.specOf (s : State) (op : Nat) : Option CmdSpec := s.specs.find? fun c => c.opcode == op

/-- An opcode of the maker range, of which the spec says only that it exists. -/
def makerRange (op : Nat) : Bool := decide (0xE0 ≤ op)

/-- A write of an opcode to SPINE.CMD. In MAKER an opcode of the maker range starts and never completes: what it does is
not described. An unassigned opcode is rejected by its arguments, but in Light Hold by its state (R77, R80). -/
def State.opcodeWritten (s : State) (p : Port) (op : Nat) : State :=
  match s.specOf op with
  | some c => c.issue p s
  | none => s.issue p op fun s =>
    if s.dev == .lightHold then s.rejectState
    else if makerRange op && s.dev == .maker then s
    else s.complete .argReject

/-- A write to SPINE.CMD_CLAIM (R528). -/
def State.claimWritten (s : State) (p : Port) (claim release : Bool) : State :=
  if claim && s.claimOwner == none then s.setF Reg.cmdClaimOwner (1 + portCode p)
  else if release && s.claimOwner == some p then s.setF Reg.cmdClaimOwner 0
  else s

/-- A write to the argument block (R528, R529). -/
def State.argWritten (s : State) (p : Port) (w : RegWrite) : State :=
  if s.claimedFrom p then s.logAccess p w.addr true .claimed
  else if s.flag Reg.cmdStatusRunning then s.logAccess p w.addr true .argLocked
  else s.storeField w ⟨0, 32, .rw, [], 0⟩

/-- A write of a dword of the index-0 BAR, from any port (R515). -/
def State.writeReg (s : State) (p : Port) (w : RegWrite) : State :=
  if !isRegister w.addr then s.logAccess p w.addr true .unmapped
  else if !s.regReached w.addr then s.logAccess p w.addr true .off
  else if w.addr = 0x40 then if w.mask % 256 = 0 then s else s.opcodeWritten p (w.value % 256)
  else if w.addr = 0x48 then s.claimWritten p (testBit (w.value &&& w.mask) 8) (testBit (w.value &&& w.mask) 9)
  else if 0x80 ≤ w.addr ∧ w.addr < 0xC0 then s.argWritten p w
  else match fieldRows w.addr with
    | some rows => s.writeFields p w rows
    | none => s

/-! ## The index-2 windows (R520) -/

/-- The domain of a window and the resource that its accesses are charged on (R404). -/
def windowAt (off : Nat) : Option (Domain × Nat) :=
  if off < 0x1000000 then some (.registry, 0)
  else if off < 0x1400000 then some (.spine, 4)
  else if off < 0x1700000 then some (.spectral, 3)
  else if off < 0x1800000 then none
  else if off < 0x2000000 then some (.faeror, 4)
  else none

/-- Where an offset of the Faeror local window lies for a port: memory, byte, and the bytes to its end (R304). -/
def State.faWindow (s : State) (p : Port) (off : Nat) (write : Bool) : Option (MemId × Nat × Nat) :=
  let n := s.getF Reg.faerorWindowCore
  let c := s.core n
  let may := if c.operator then (s.session p).role == some .operator else s.dev == .maker
  let rel := off - 0x1800000
  if 24 ≤ n || !may then none
  else if rel < 0x20000 then some (.faData, 131072 * n + rel, 0x20000 - rel)
  else if rel < 0x30000 then
    if write && c.run != .halted then none else some (.faProg, 65536 * n + (rel - 0x20000), 0x30000 - rel)
  else none

/-- Read a dword through a window: its bytes, and whether they are good. -/
def State.windowData (s : State) (p : Port) (off : Nat) : State × List Byte × Bool :=
  if off < 0x1000000 then s.readBytes .registry (portReq p) off 4
  else if off < 0x1400000 then s.readBytes .capture (portReq p) (off - 0x1000000) 4
  else if off < 0x1700000 then s.readBytes .stencil (portReq p) (off - 0x1400000) 4
  else match s.faWindow p off false with
    | some (m, a, _) => s.readBytes m (portReq p) a 4
    | none => (s, List.replicate 4 0, true)

/-- A write to capture memory: bytes in the range of a running load are discarded (R49), and the bytes on both sides of
it are written. -/
def State.captureWrite (s : State) (p : Port) (a : Nat) (d : List Byte) : State :=
  match s.loadRange with
  | none => s.writeBytes .capture (portReq p) a d
  | some (lo, len) =>
    let s := s.writeBytes .capture (portReq p) a (d.take (lo - a))
    s.writeBytes .capture (portReq p) (max a (lo + len)) (d.drop (lo + len - a))

/-- Write bytes through a window; bytes past the window's end are dropped. -/
def State.windowWrite (s : State) (p : Port) (off : Nat) (d : List Byte) : State :=
  if off < 0x1000000 then s.addSat (Reg.registryCount 9) 1
  else if off < 0x1400000 then s.captureWrite p (off - 0x1000000) (d.take (0x1400000 - off))
  else if off < 0x1700000 then s.stencilWrite p (off - 0x1400000) (d.take (0x1700000 - off))
  else match s.faWindow p off true with
    | some (m, a, room) => s.writeBytes m (portReq p) a (d.take room)
    | none => s

/-! ## Accesses in their order (R513, R517, R520, R523) -/

/-- Give a read's answer: 0 the word, 3 the word as stored and poisoned, 4 no effect. -/
def State.answer (s : State) (p : Port) (code v : Nat) : State :=
  match p with
  | .pcie => { s with out := { s.out with reads := s.out.reads ++ [(BitVec.ofNat 32 v, code == 3)] } }
  | .qspi => { s with out := { s.out with qspi := s.out.qspi ++ [BitVec.ofNat 8 code] ++ leBytes 4 v } }

/-- An access of a window: false if it must wait for HOSTACC grains. -/
def State.windowAccess (s : State) (p : Port) (off n : Nat) (go no : State → State) (write : Bool) : State × Bool :=
  match windowAt off with
  | none => (no (s.logAccess p (0x20000000 + off % 2 ^ 28) write .unmapped), true)
  | some (d, r) =>
    if !s.reached d || s.dev == .lightHold then (no (s.logAccess p (0x20000000 + off % 2 ^ 28) write .off), true)
    else
      let a := s.ask 10 r ((off % 32 + n + 31) / 32)
      if a.2 then (go a.1, true) else (a.1, false)

/-- Carry out one access; false if it must wait. -/
def State.hostTry (s : State) (p : Port) : HostAcc → State × Bool
  | .regRead a =>
    if !s.spineRuns then (if p = .qspi then s.answer p 4 0 else s, true)
    else
      let r : State × Nat × Bool := s.readReg p a
      (r.1.answer p (if r.2.2 then 0 else 4) r.2.1, true)
  | .regWrite a v m => (if s.spineRuns then s.writeReg p { addr := a, value := v, mask := m } else s, true)
  | .winRead off =>
    if !s.spineRuns then (if p = .qspi then s.answer p 4 0 else s, true)
    else s.windowAccess p off 4
      (fun s =>
        let r := s.windowData p off
        r.1.answer p (if r.2.2 then 0 else 3) (ofLe r.2.1))
      (fun s => s.answer p 4 0) false
  | .winWrite off d =>
    if !s.spineRuns then (s, true) else s.windowAccess p off d.length (fun s => s.windowWrite p off d) id true
  | .void => (s.answer p 4 0, true)
  | .pcieReset => (s.pcieReset, true)

/-- Carry out a port's accesses in order until one must wait; it and those behind it stay. -/
def State.hostRun (p : Port) : State → List HostReq → State
  | s, [] => s
  | s, q :: t =>
    let r := s.hostTry p q.acc
    if r.2 then State.hostRun p r.1 t else { r.1 with hostQueue := r.1.hostQueue ++ q :: t }

/-- Carry out what waits of a port. -/
def State.hostPump (s : State) (p : Port) : State :=
  State.hostRun p { s with hostQueue := s.hostQueue.filter fun q => q.port != p }
    (s.hostQueue.filter fun q => q.port == p)

/-- A port makes an access: behind those of the same port that wait. The PCIe link is down while the spine does not run
(R514); a quad-SPI write then, or one that finds no place, is dropped (R524). -/
def State.host (p : Port) (x : HostAcc) (s : State) : State :=
  if p = .pcie ∧ !s.spineRuns then s
  else if p = .qspi ∧ x.isWrite ∧ (!s.spineRuns ∨ 64 ≤ s.writesQueued) then s.dropWrite
  else
    let s := s.testRestore
    ({ s with hostQueue := s.hostQueue ++ [({ port := p, acc := x } : HostReq)] } : State).hostPump p

/-- PCIE_RESET: waiting reads of PCIe are abandoned, and the reset comes after its posted writes (R513). -/
def State.pcieResets (s : State) : State :=
  if !s.spineRuns then s
  else
    (s.dropReads .pcie).host .pcie .pcieReset

/-! ## Quad-SPI frames (R522 to R526) -/

/-- DRONE.POWER.PSTATE. -/
def State.pstate (s : State) : Nat :=
  match s.phase with
  | .run => 0
  | .deepEntry => 0
  | .deepHold => 1
  | .reset .deepWake => 2
  | .reset _ => 3

/-- The number of a WAKE_CAUSE. -/
def WakeCause.code : WakeCause → Nat
  | .none => 0
  | .timer => 1
  | .qspi => 2
  | .sagRelease => 3
  | .resetPin => 4

/-- A LATH_LOAD waits for stream bytes. -/
def State.streamOpen (s : State) : Bool :=
  match s.job with
  | some (.lathStream _ _ _ _ _ _) => true
  | _ => false

/-- A drone register (03 and 19, drone registers). -/
def State.droneReg (s : State) (off : Nat) : Nat :=
  let d := s.drone
  if off = 0x00 then 0x64640A01
  else if off = 0x04 then d.refClass + d.refCount * 65536
  else if off = 0x08 then bit s.spineRuns + 2 * bit s.streamOpen + 16 * 256 + (64 - s.writesQueued) * 65536
  else if off = 0x0C then d.writesDropped + d.streamDropped * 65536
  else if off = 0x10 then
    bit d.straps.twinElder + 2 * bit d.straps.makerEn + 4 * d.straps.bootSel.val + 16 * d.straps.biasSafe.val
  else if off = 0x14 then s.pstate + 256 * d.wakeCause.code
  else if off = 0x18 then s.wakeCount % 2 ^ 32
  else if off = 0x1C then d.countHi
  else if off = 0x20 then d.wakeCompare % 2 ^ 32
  else if off = 0x24 then d.wakeCompare / 2 ^ 32
  else 0

/-- Words of drone registers out; a read of WAKE_COUNT_LO latches HI. -/
def State.droneWords (s : State) (off : Nat) : Nat → State
  | 0 => s
  | n + 1 =>
    let s := if off = 0x18 then { s with drone := { s.drone with countHi := s.wakeCount / 2 ^ 32 } } else s
    let s := { s with out := { s.out with qspi := s.out.qspi ++ leBytes 4 (s.droneReg off) } }
    s.droneWords ((off + 4) % 256) n

/-- The access of a word at a space address, none where the space or the alignment is invalid (R523). -/
def spaceRead (addr : Nat) : HostAcc :=
  let off := addr % 2 ^ 28
  if off % 4 ≠ 0 then .void
  else if addr / 2 ^ 28 = 0 then .regRead off
  else if addr / 2 ^ 28 = 2 then .winRead off
  else .void

/-- The write of a word at a space address. -/
def spaceWrite (addr : Nat) (v : Word) : Option HostAcc :=
  let off := addr % 2 ^ 28
  if off % 4 ≠ 0 then none
  else if addr / 2 ^ 28 = 0 then some (.regWrite off v.toNat (2 ^ 32 - 1))
  else if addr / 2 ^ 28 = 2 then some (.winWrite off (leBytes 4 v.toNat))
  else none

/-- SPACE_READ: words from an address on; one that waits is told by a wait byte. -/
def State.spaceWords (s : State) (addr : Nat) : Nat → State
  | 0 => s
  | n + 1 =>
    let s := s.host .qspi (spaceRead addr)
    let s := if s.portWaits .qspi then { s with out := { s.out with qspi := s.out.qspi ++ [1] } }
      else s
    s.spaceWords ((addr + 4) % 2 ^ 32) n

/-- SPACE_WRITE: words to an address on. -/
def State.spaceStore (addr : Nat) : List Word → State → State
  | [], s => s
  | v :: t, s =>
    let s := match spaceWrite addr v with
      | some x => s.host .qspi x
      | none => if s.spineRuns then s else s.dropWrite
    State.spaceStore ((addr + 4) % 2 ^ 32) t s

/-! ## Commands of the maker range in MAKER -/

/-- A port may decode an opcode at once: the command register is free for it, and none of its accesses waits. -/
def State.decodes (s : State) (p : Port) : Bool :=
  s.spineRuns && !s.claimedFrom p && !s.flag Reg.cmdStatusRunning && !s.portWaits p

/-- A dword write that would start a command of the maker range, of which the spec gives no effect. -/
def State.makerWrite (s : State) (p : Port) (a v m : Nat) : Bool :=
  s.dev == .maker && a == 0x40 && m % 256 != 0 && makerRange (v % 256) && s.decodes p

/-! ## The meanings -/

/-- A full write of a register. -/
def State.store (p : Port) (f : Fld) (v : Nat) (s : State) : State :=
  s.host p (.regWrite f.addr (v * 2 ^ f.lo % 2 ^ 32) (2 ^ 32 - 1))

/-- A write of the bytes that hold a field. -/
def State.storeBytes (p : Port) (f : Fld) (v : Nat) (be : BitVec 4) (s : State) : State :=
  s.host p (.regWrite f.addr (v * 2 ^ f.lo % 2 ^ 32) (enabledBits be))

/-- REGISTER_WRITE. -/
def execRegisterWrite (p : Port) (addr : BitVec 26) (value : Word) (be : BitVec 4) (s : State) : Outcome :=
  if (s.framed p).makerWrite p addr.toNat value.toNat (enabledBits be) then .refused (.makerCommand (value.toNat % 256))
  else act (s.framed p) (State.host p (.regWrite addr.toNat value.toNat (enabledBits be)))
/-- SHADOW_WRITE. -/
def execShadowWrite (p : Port) (addr : BitVec 26) (value : Word) (be : BitVec 4) (s : State) : Outcome :=
  if (s.framed p).makerWrite p addr.toNat value.toNat (enabledBits be) then .refused (.makerCommand (value.toNat % 256))
  else act (s.framed p) (State.host p (.regWrite addr.toNat value.toNat (enabledBits be)))
/-- COMMIT_ARM. -/
def execCommitArm (p : Port) (s : State) : Outcome := act (s.framed p) (State.storeBytes p Reg.commitCtrlArm 1 1)
/-- COMMIT_DISARM. -/
def execCommitDisarm (p : Port) (s : State) : Outcome := act (s.framed p) (State.storeBytes p Reg.commitCtrlDisarm 1 1)
/-- CMD_CLAIM. -/
def execCmdClaim (p : Port) (s : State) : Outcome := act (s.framed p) (State.store p Reg.cmdClaimClaim 1)
/-- CMD_RELEASE. -/
def execCmdRelease (p : Port) (s : State) : Outcome := act (s.framed p) (State.store p Reg.cmdClaimRelease 1)
/-- EVENTS_STATUS_CLEAR. -/
def execEventsStatusClear (p : Port) (w : Fin 4) (mask : Word) (s : State) : Outcome :=
  act (s.framed p) (State.store p (Reg.evStatus w.val) mask.toNat)
/-- FA_RUN. -/
def execFaRun (p : Port) (core : Fin 24) (s : State) : Outcome := act (s.framed p) (State.store p (Reg.faCtrlRun core.val) 1)
/-- FA_HOST_HALT. -/
def execFaHostHalt (p : Port) (core : Fin 24) (s : State) : Outcome := act (s.framed p) (State.store p (Reg.faCtrlRun core.val) 0)
/-- DOORBELL. -/
def execDoorbell (p : Port) (core : Fin 24) (value : Word) (s : State) : Outcome :=
  act (s.framed p) (State.store p (Reg.faDoorbellValue core.val) value.toNat)
/-- BIAS_CODE_WRITE. RANGE stands in the bytes of CODE and is written as it is. -/
def execBiasCodeWrite (p : Port) (k : Fin 16) (code : BitVec 12) (s : State) : Outcome :=
  act (s.framed p) (State.storeBytes p (Reg.biasCode k.val) (code.toNat + s.getF (Reg.biasRange k.val) * 4096) 3)
/-- BIAS_RANGE_WRITE. -/
def execBiasRangeWrite (p : Port) (k : Fin 16) (range : Bool) (s : State) : Outcome :=
  act (s.framed p) (State.storeBytes p (Reg.biasCode k.val) (s.getF (Reg.biasCode k.val) + bit range * 4096) 2)
/-- BIAS_STROBE. FRET_STROBE is written as it is. -/
def execBiasStrobe (p : Port) (s : State) : Outcome :=
  act (s.framed p) (State.store p Reg.biasLoadStrobe (1 + 2 * s.getF Reg.biasLoadFretStrobe))
/-- REQ_BANK_WRITE. -/
def execReqBankWrite (p : Port) (path : Fin 64) (bank : Bool) (s : State) : Outcome :=
  act (s.framed p) (State.store p (Reg.txDpdReqBank path.val) (bit bank))
/-- DPD_COEF_WRITE. -/
def execDpdCoefWrite (p : Port) (path : Fin 64) (bank : Bool) (index : Fin 40) (value : Word) (s : State) : Outcome :=
  act (s.framed p) (State.host p (.regWrite ((Reg.dpd0Re path.val (bit bank)).addr + 4 * index.val) value.toNat (2 ^ 32 - 1)))
/-- CAP_LENGTH_WRITE. -/
def execCapLengthWrite (p : Port) (k : Fin 8) (length : BitVec 18) (s : State) : Outcome :=
  act (s.framed p) (State.store p (Reg.capLengthLength k.val) length.toNat)
/-- INC_HI_WRITE. -/
def execIncHiWrite (p : Port) (value : Word) (s : State) : Outcome := act (s.framed p) (State.store p Reg.incHi value.toNat)
/-- CMP_ARM: CTRL is written with ARM = 1 and a MODE. -/
def execCmpArm (p : Port) (k : Fin 8) (mode : Fin 4) (s : State) : Outcome :=
  act (s.framed p) (State.store p (Reg.cmpCtrlArm k.val) (1 + 2 * mode.val))
/-- TXTS_ID_READ. -/
def execTxtsIdRead (p : Port) (s : State) : Outcome := act (s.framed p) (State.host p (.regRead Reg.txtsId.addr))
/-- TXTS_POP. -/
def execTxtsPop (p : Port) (s : State) : Outcome := act (s.framed p) (State.store p Reg.txtsCtrlPop 1)
/-- LOG_ADDR_READ. -/
def execLogAddrRead (p : Port) (s : State) : Outcome := act (s.framed p) (State.host p (.regRead Reg.logAddrAddr.addr))
/-- LOG_POP. -/
def execLogPop (p : Port) (s : State) : Outcome := act (s.framed p) (State.store p Reg.logCtrlPop 1)
/-- ACC_LO_READ. -/
def execAccLoRead (p : Port) (x : Fin 2) (slot : Fin 16) (s : State) : Outcome :=
  act (s.framed p) (State.host p (.regRead (Reg.slotAccLo x.val slot.val).addr))
/-- OWD_START. -/
def execOwdStart (p : Port) (s : State) : Outcome := act (s.framed p) (State.storeBytes p Reg.owdCtrlStart 1 1)
/-- BRIDGE_ENABLE_WRITE. -/
def execBridgeEnableWrite (p : Port) (enable : Bool) (s : State) : Outcome :=
  act (s.framed p) (State.storeBytes p Reg.bridgeCtrlEnable
    (bit enable + (s.regValue Reg.bridgeCtrlEnable.addr % 256 / 2) * 2) 1)
/-- SKIM_EN_WRITE. -/
def execSkimEnWrite (p : Port) (mask : BitVec 6) (s : State) : Outcome :=
  act (s.framed p) (State.storeBytes p Reg.memintCtrlSkimEn mask.toNat 1)
/-- MUTE_WRITE. -/
def execMuteWrite (p : Port) (path : Fin 64) (mute : Bool) (s : State) : Outcome :=
  act (s.framed p) (State.storeBytes p (Reg.txCtrlMute path.val)
    (bit mute + (s.regValue (Reg.txCtrlMute path.val).addr % 256 / 2) * 2) 1)
/-- STENCIL_HOST_WRITE: bytes at an offset of stencil memory. -/
def execStencilHostWrite (p : Port) (offset : Nat) (bytes : List Byte) (s : State) : Outcome :=
  act (s.framed p) (State.host p (.winWrite (0x1400000 + offset % 0x300000) bytes))
/-- REGISTRY_WINDOW_WRITE: bytes at an offset of the registry window. -/
def execRegistryWindowWrite (p : Port) (offset : Nat) (bytes : List Byte) (s : State) : Outcome :=
  act (s.framed p) (State.host p (.winWrite (offset % 0x1000000) bytes))
/-- FAEROR_WINDOW_WRITE: bytes at an offset of the Faeror local window. -/
def execFaerorWindowWrite (p : Port) (offset : Nat) (bytes : List Byte) (s : State) : Outcome :=
  act (s.framed p) (State.host p (.winWrite (0x1800000 + offset % 0x800000) bytes))
/-- HOST_WINDOW_READ: a dword at an offset of the index-2 BAR. -/
def execHostWindowRead (p : Port) (offset : Nat) (s : State) : Outcome :=
  act (s.framed p) (State.host p (.winRead (offset / 4 * 4 % 2 ^ 28)))
/-- HOST_WINDOW_WRITE: bytes at an offset of the index-2 BAR. -/
def execHostWindowWrite (p : Port) (offset : Nat) (bytes : List Byte) (s : State) : Outcome :=
  act (s.framed p) (State.host p (.winWrite (offset % 2 ^ 28) bytes))
/-- MSIX_UNMASK: the Mask bit of a vector's MSI-X entry is cleared over PCIe. -/
def execMsixUnmask (vector : Fin 32) (s : State) : Outcome := act s (State.store .pcie (Reg.msixControlMask vector.val) 0)
/-- LATCHING_READ. -/
def execLatchingRead (p : Port) (addr : BitVec 26) (s : State) : Outcome := act (s.framed p) (State.host p (.regRead addr.toNat))
/-- PCIE_RESET. -/
def execPcieReset (s : State) : Outcome := act s State.pcieResets
/-- DRONE_READ: words from a drone offset on, in every state. -/
def execDroneRead (offset : BitVec 8) (words : Nat) (s : State) : Outcome :=
  act s fun s => s.frame.droneWords offset.toNat words
/-- SPACE_READ. -/
def execSpaceRead (addr : Word) (words : Nat) (s : State) : Outcome := act s fun s => s.frame.spaceWords addr.toNat words
/-- SPACE_WRITE. -/
def execSpaceWrite (addr : Word) (data : List Word) (s : State) : Outcome :=
  let off := (0x40 - addr.toNat) / 4
  if addr.toNat ≤ 0x40 && addr.toNat % 4 == 0 && decide (off < data.length) &&
      s.frame.makerWrite .qspi 0x40 ((data.getD off 0).toNat) (2 ^ 32 - 1) then
    .refused (.makerCommand ((data.getD off 0).toNat % 256))
  else act s fun s => State.spaceStore addr.toNat data s.frame

/-- A command that waited runs: one that waited for the wake, or for grains (R113, R408). -/
def State.runWaiting (s : State) (op : Nat) : State :=
  match s.specOf op with
  | some c => c.run s.cmdPort { s with job := none }
  | none => s

/-- A command that waited for the wake runs once the device has left DOZE and LIGHT_HOLD (R113). -/
def State.runWoken (s : State) : State :=
  match s.job with
  | some (.waitWake op) => if s.phase == .run && s.dev != .doze && s.dev != .lightHold then s.runWaiting op else s
  | _ => s

/-- DOZE_WAKE_COMPLETE: the device is in SERVICE again, and a command that waited for the wake runs. -/
def State.dozeComplete (s : State) : State := s.dozeWoken.runWoken

/-- DOZE_WAKE_COMPLETE. -/
def execDozeWakeComplete (s : State) : Outcome := act s State.dozeComplete
/-- LIGHT_HOLD_WAKE_COMPLETE up to the waiting command: the PTP frames held in LINK are written (R397). -/
def State.holdComplete (s : State) : State :=
  if s.dev != .lightHold then s
  else
    let t := s.lightWoken
    (if t.dev == .lightHold then t else t.ptpPump 17).runWoken

/-- LIGHT_HOLD_WAKE_COMPLETE. -/
def execLightHoldWakeComplete (s : State) : Outcome := act s State.holdComplete

/-- PATH_TEST_END: what the host wrote to the path's registers takes effect with the restore (R441). -/
def execPathTestEnd (p : PathTested) (c1 c2 c3 c4 : List Int) (s : State) : Outcome :=
  act s fun s => (s.pathTestEnd p.path.val [c1, c2, c3, c4] p.micros).testRestore

end Sys2Proof.Machine
end

