-- ==== Sys2Proof/Machine/Fret.lean ====
section
/-! DEFINITION. The two steps of the air interface: a fret boundary (R17) and a carrier's symbol start (R18). -/

namespace Sys2Proof.Machine

/-! ## Fret boundaries (R17, R381) -/

/-- A need with a fixed time falls while the device dozes: the wake is late (R98). -/
def State.needFalls (s : State) : State :=
  if s.dev != .doze then s
  else
    let s := s.beginWake
    s.setDoze fun d => { d with late := true }

/-- The fret that begins holds an open window, is a protected scan fret, or is a fret of the Seam schedule (R98). -/
def State.fretNeeded (s : State) : Bool :=
  !s.sched.cur.wins.isEmpty || s.nextScan s.absFret == some s.absFret || s.nextSeam s.absFret == some s.absFret

/-- The counts that STATUS carries over a bar: DL_LATE, DL_MISSING, FALLBACKS and MISSED (R345). -/
def State.barCountsNow (s : State) : List Nat :=
  [s.getF (Reg.linkCount 4), s.getF (Reg.linkCount 5), s.getF (Reg.registryCount 3), s.getF (Reg.registryCount 2)]

/-- What happens at a bar boundary besides a fret's work (R166, R345, R439, R451, R455). -/
def State.barEdge (s : State) : State :=
  let now := s.barCountsNow
  let old := s.fh.barCounts
  let rise := (List.range 4).map fun i => ((now.getD i 0 : Nat) - old.getD i 0).toNat
  let s := { s with fh := { s.fh with barCounts := now.map Int.ofNat, barRise := rise } }
  (((s.capTriggers 2).hkEdge 2).when s.monitorOn State.supplyBar).calDueAll

/-- The work of Tc in the order of R17: the commit and the budget reload, then an accepted re-lath (R57). -/
def State.fretCommit (s : State) : State :=
  let s := s.arbitersEnd
  (((s.when (s.commitDue 0) State.commit).budgetFret).relathAtFret).latchReserve

/-- Service starts or ends, and paths join it (R88, R90, R188). -/
def State.fretService (s : State) : State :=
  let s := s.when (s.absFret % 40 == 0) State.startsAtBar
  s.stopsAtFret.pathsFret

/-- The scheduler's lists and the staging stencils of the fret come into force (R232, R250 to R257). -/
def State.fretStencils (s : State) : State :=
  ((s.schedFret.selectEdges 1).swapFret (s.absFret % 8)).stepFret

/-- The receive paths at a boundary: the commit with the peaks of the fret that ended, the gains, and a waiting RX_SYNC
(R121, R122, R139). -/
def State.fretRx (s : State) (peaks : List (Nat × Nat)) : State :=
  let s := s.setPeaks peaks
  (s.fretCommit.fretGain s).rxSyncFret.pruneSpans

/-- The synthesizers at a boundary: triggered hops, and the entries that are restamped or drift (R177, R182). -/
def State.fretSynths (s : State) (far : List Nat) : State :=
  (s.synEdges 1).each (List.range 4) fun s x => s.synFret x (far.contains x)

/-- Tiles, captures, sequences, cores and compensation at a boundary (R166, R200, R207, R285, R455,
R469). -/
def State.fretBlocks (s : State) : State :=
  let s := s.when (s.flag Reg.biasLoadFretStrobe) State.biasStrobe
  (((s.aerialTuneFret.capTriggers 1).hkEdge 1).when s.monitorOn State.compFret).coreFret

/-- A running command that waits for grains asks again (R408). -/
def State.fretJob (s : State) : State :=
  match s.job with
  | some (.waitBudget op) => s.runWaiting op
  | _ => s.lathResume

/-- Send a pilot copy, or let it wait for grains of SIGREF (R264): whole words, and the core's PILOT line. An
absent FAEROR takes none (R21). -/
def State.pilotCopy (s : State) (x : PilotCopy) : State :=
  let n := (x.data.length + 31) / 32
  let a := s.ask 2 4 n
  if s.absent .faeror then s
  else if !a.2 then { a.1 with spectral := { a.1.spectral with pilots := a.1.spectral.pilots ++ [x] } }
  else
    let s := a.1.each (List.range n) fun s i =>
      s.writeWhole .faData (dataWord x.core + (x.word + i) % 4096) (slice (32 * i) 32 x.data)
    let recent (y : PilotCopy) : Bool := decide (x.fret ≤ y.fret + 2)
    let s := { s with spectral := { s.spectral with
      copied := s.spectral.copied.filter recent ++ [{ x with data := [] }] } }
    s.pendLine x.core 2

/-- The pilot copies that wait. -/
def State.pilotPump (s : State) : State :=
  ({ s with spectral := { s.spectral with pilots := [] } } : State).each s.spectral.pilots State.pilotCopy

/-- The detection firmware reads what it can of the scan ring on GRIDSCAN's fabric cycles (R404, R408). -/
def State.scanRead (s : State) : State :=
  let n := s.spectral.scanUnread
  if n = 0 then s
  else
    let k := s.drawable 3 4 n
    let t := s.grant 3 4 k
    let t := { t with spectral := { t.spectral with scanUnread := n - k } }
    if k < n ∧ t.mayUse 3 4 = false then t.exhaust 3 else t

/-- A class is below its floor on the registry port, stencil memory or the fabric (R409, step 2). -/
def State.belowFloor (s : State) (c : Nat) : Bool :=
  s.getF Reg.budgetStatusEnforcing == 1 &&
    [0, 3, 4].any fun r => decide (s.used c r < s.getF (Reg.budgetClassFloor c r) * 256)

/-- The order in which the classes' waiting requests are granted: those below their floor in ascending class number,
then the others from the class after the one last granted at the round-robin step (R409, R413). -/
def State.resumeOrder (s : State) : List Nat :=
  let l := List.range 16
  let k := mapGet 0 4 s.budget.turn + 1
  l.filter s.belowFloor ++ (l.drop k ++ l.take k).filter fun c => !s.belowFloor c

/-- What waited for grains of a class is tried again, in the order of its arrival (R408). -/
def State.resumeClass (s : State) (c : Nat) : State :=
  match c with
  | 2 => s.pilotPump.refreshPump
  | 3 => s.scanRead.detectPump
  | 8 => s.hodFret
  | 9 => s.pumpMirrors.pumpHeld.syncMarkEnd.repairPump
  | 10 => ((s.fretJob.hostPump .pcie).hostPump .qspi).ptpPump 17
  | 12 => s.regPump (s.sched.waiting.length + s.fh.queue.length)
  | 13 => s.journalSend
  | 14 => s.replanWaiting
  | _ => s

/-- The classes resume in the arbiters' order (R408, R409). -/
def State.fretResume (s : State) : State := s.each s.resumeOrder State.resumeClass

/-- Entries that a fret boundary makes after its other work: Doze, Light Hold, and Deep Hold by sag (R93, R101, R470). -/
def State.fretHolds (s : State) : State :=
  let s := s.dozesAtFret
  let s := if s.fretNeeded then s.needFalls else s
  s.lightAtFret.sagDeep

/-- The work of a fret boundary at its instant. -/
def State.fretWork (s : State) (peaks : List (Nat × Nat)) (far : List Nat) : State :=
  let s := { s with time := { s.time with fret := s.absFret } }
  let s := (s.fretRx peaks).fretService
  let s := ((s.fretStencils).fretSynths far).fretBlocks
  let s := s.when (s.absFret % 40 == 0) State.barEdge
  s.fretResume.fretHolds.runWoken

/-- FRET_BOUNDARY: device time is carried to the next boundary, unless it stands at or after one whose work is not done.
In Light Hold and outside a running spine none is carried out. -/
def State.fretBoundary (peaks : List (Nat × Nat)) (far : List Nat) (s : State) : State :=
  if s.phase != .run || s.dev == .lightHold then s
  else
    let s := if s.time.fret < s.absFret then s else s.passTo s.nextFretNs
    s.fretWork peaks far

/-! ## Symbol starts (R18, R143, R213, R214) -/

/-- A carrier has symbols: its transform runs, or, in the downlink, its interpolator (R143). In a wake from Light Hold
those of the downlink are due to be discarded (R99). -/
def State.symbolsOf (s : State) (d c : Nat) : Bool :=
  s.phase == .run && (s.dev != .lightHold || (d == 1 && s.flag Reg.dozeStatusWaking)) && s.domain .spectral == .on &&
    (s.flag (Reg.carConfigEnable d c) || (d == 1 && s.flag (Reg.txcCtrlEnable c)))

/-- A downlink symbol of a carrier is due: it holds a received section, or a scheduled downlink window (R186); a carrier
that is not enabled carries nothing (R218). -/
def State.symbolDue (s : State) (c ns : Nat) : Bool :=
  let on (l : Nat) : Bool := s.flag (Reg.layerConfigEnable 1 l) && s.getF (Reg.layerConfigCarrier 1 l) == c
  s.flag (Reg.carConfigEnable 1 c) && (s.fh.accepted.any (fun x => x.ns == ns && on x.layer) ||
    if s.dev == .lightHold then
      s.liveEntries.any fun i => let e := s.word0 i
        entryCarrier e == c && (s.classDirs (entryClass e)).2 && s.openIn e (ns / 250000)
    else s.sched.cur.wins.any fun w => !w.silent && (match w.dl with | some l => on l | none => false))

/-- A half cannot send a symbol that starts now: its synthesizer is not LOCKED, or it has not resumed (R97, R186). -/
def State.halfMute (s : State) (h : Nat) : Bool :=
  s.synState (2 * h) != synLocked || (s.timingCarrier.isSome && s.tx.resuming.contains h)

/-- A due symbol that a wake discards (R97 to R99): once, whichever half discards it. -/
def State.wakeDrop (s : State) (c : Nat) (ns : Nat) : State :=
  let sect := s.fh.accepted.any fun x => x.ns == ns && s.getF (Reg.layerConfigCarrier 1 x.layer) == c
  (if sect then s.needFalls else s).addSat Reg.wakeLateDropDropped 1

/-- The fate of a downlink symbol: discarded in Doze and in a wake from Light Hold, after a wake until the halves resume, and while a transmit
synthesizer is not LOCKED; otherwise in progress (R97 to R99, R186, R187). -/
def State.symbolFate (s : State) (c ns : Nat) : State :=
  let s := { s with tx := { s.tx with dueNow := s.tx.dueNow.filter fun k => k % 4 != c } }
  let mutes := [0, 1].filter s.halfMute
  let held := s.dev == .lightHold && s.holdFrom != .lathed
  if !(s.inService || held) || !s.symbolDue c ns then s
  else
    let s := if held || s.dev == .doze || (s.doze.unmute && !mutes.isEmpty) then s.wakeDrop c ns
      else s.each mutes fun s h => s.dropSymbol (2 * h)
    if held || s.dev == .doze then s
    else s.each ([0, 1].filter fun h => !mutes.contains h) fun s h =>
      { s with tx := { s.tx with dueNow := insertOnce (4 * h + c) s.tx.dueNow } }

/-- A symbol start of the timing carrier: path-wide settings take effect, and mute switches close (R143, R158). -/
def State.timingStart (s : State) : State :=
  let s := s.applyTxAll.closeMutes.dpdCapture.obsStarts
  let left := s.tx.resuming.filter fun h => s.dev != .service || s.synState (2 * h) != synLocked
  let s := { s with tx := { s.tx with resuming := left } }
  if left.isEmpty then s.setDoze fun d => { d with unmute := false } else s

/-- The bytes of a subcarrier of a pilot copy: I and Q in signed 8.8, the upper 16 bits of a bin (log 182). -/
def pilotBytes (x : Sample) : List Byte :=
  let part (v : Int) : List Byte := leBytes 2 (ofSigned 16 (satSigned 16 (roundDiv v (2 ^ 120))))
  part x.1 ++ part x.2

/-- The copy of a window's pilots in a symbol: the mask of the marked paths, then path by path its subcarriers (R138,
R264; the layout is the model's, log 182). -/
def State.pilotOf (s : State) (c : Nat) (y : SymLatch) (samples : List (List Sample)) (w : Win) : PilotCopy :=
  let marked := listMask (s.markedPaths c y)
  let place := Config.pilotPlace w.index y.sym
  { index := w.index
    ident := entryId (s.word0 w.index)
    fret := y.ns / 250000
    sym := y.sym
    marked := marked
    prbs := w.prbCount
    core := place.1 % 16
    word := place.2
    data := leBytes 8 marked ++ (List.range 64).flatMap fun p => (List.range (12 * w.prbCount)).flatMap fun i =>
      pilotBytes (y.bin samples (12 * w.prbStart + i) p) }

/-- The pilots of the uplink windows that were open in a symbol are copied, window by window (R138, R264). -/
def State.pilotCopies (s : State) (c : Nat) (y : SymLatch) (samples : List (List Sample)) : State :=
  if !y.extracted then s else s.each (y.wins.map (s.pilotOf c y samples)) State.pilotCopy

/-- A sample of the scan: a layer sample times 2^-SHIFT, rounded half up and saturated to signed 1.15 (R236). -/
def scanWord (shift : Nat) (x : Sample) : Nat :=
  let part (v : Int) : Nat := ofSigned 16 (satSigned 16 (roundDiv v (2 ^ (shift + 1))))
  part x.1 + 65536 * part x.2

/-- The 256 uplink grid beams over the scanned subcarriers of a symbol, beam by beam, under the renormalisation of R138. -/
def State.scanBeams (s : State) (c : Nat) (x : ScanSet) (y : SymLatch) (samples : List (List Sample)) : List Nat :=
  if samples.all List.isEmpty then []
  else
    let active := s.activeIn y
    let marked := s.markedPaths c y
    (List.range 256).flatMap fun b =>
      let w := s.lineWeight (4096 + b)
      let sets := pathSets w active marked
      (List.range (12 * x.prbs)).map fun i =>
        let sc := 12 * x.first + i
        scanWord x.shift (layerSample w (96 + b) 0 sc sets (y.bin samples sc))

/-- The record of a symbol of the scan carrier, and the SCAN line of the cores named for it (R236, R284). A carrier that is
not extracted has no samples to form beams of (R128). -/
def State.scanEnds (s : State) (c : Nat) (y : SymLatch) (samples : List (List Sample)) : State :=
  match y.scan with
  | some x =>
    if !y.extracted then s
    else
      let s := s.scanSymbol y x.prbs (listMask (s.markedPaths c y)) (s.scanBeams c x y samples)
      let cores := ((List.range 24).filter Config.scanCore).filter fun n => (s.core n).loaded
      let s := s.each cores fun s n => s.pendLine n 3
      if cores.isEmpty then s
      else ({ s with spectral := { s.spectral with
        scanUnread := s.spectral.scanUnread + 1 + 384 * x.prbs } } : State).scanRead
  | none => s

/-- A symbol whose marks are all known, since every sample that enters it has passed, is scanned, its pilots are copied,
and it is counted (R137, R138, R236, R264). `runs` is what each path's decimator gave over it. -/
def State.rxEnded (s : State) (c : Nat) (y : SymLatch) (runs : List RxRun) : State :=
  let s := s.when s.combinerOn fun s =>
    let samples := s.carrierStreams c y runs
    (s.scanEnds c y samples).when s.inService fun s => s.pilotCopies c y samples
  s.countExcluded c y

/-- An uplink symbol starts: the symbol before the one that ends here is worked through, with `before`; after a pause of
the carrier, the one that went before it too, with `ended`. -/
def State.rxSymbol (s : State) (c : Nat) (y : SymbolAt) (before ended : List RxRun) : State :=
  let last := s.latched c
  let goesOn := match last with
    | x :: _ => decide (s.pathSample ≤ x.start + 2 * x.span)
    | [] => false
  let s := s.each (last.drop 1) fun s x => s.rxEnded c x before
  let s := if goesOn then s else s.each (last.take 1) fun s x => s.rxEnded c x ended
  let kept := if goesOn then last.take 1 else []
  let s := s.scanLatch c
  { s with spectral := { s.spectral with latched := mapSet [] c (s.latchSymbol c y :: kept) s.spectral.latched } }

/-- A downlink symbol starts (R142, R143, R186): the chains work through what came before it, and the settings follow. -/
def State.txSymbol (s : State) (c ns : Nat) (runs : List TxRun) : State :=
  let s := s.each runs State.txRun
  let s := { s with tx := { s.tx with restarting := s.tx.restarting.filter fun x => x != c } }
  let s := if s.timingCarrier = some c then s.timingStart else s
  s.symbolFate c ns

/-- The bins of a path in a downlink symbol, from the lowest subcarrier, in units of 2^-31 (R212, R221). -/
def State.dlBins (s : State) (c ns p : Nat) : List Sample :=
  (List.range (12 * s.getF (Reg.carConfigPrbCount 1 c))).map (s.dlBin c ns p)

/-- The symbol that the engine forms for a path: its samples, and those that saturated (R216). -/
def State.dlPath (s : State) (c : Nat) (y : SymbolAt) (p : Nat) : State :=
  let bins := s.dlBins c y.ns p
  if s.domain (dfeOf (halfOf p)) != .on || bins.all (fun x => x == (0, 0)) then s
  else
    let r := downlinkSymbol (s.carrierScs 1 c) (s.carrierN 1 c) (s.getF (Reg.carConfigPrbCount 1 c)) y.sym
      (s.getF (Reg.carXformShift 1 c)) bins
    let s := s.countSaturated p r.2
    { s with out := { s.out with air := s.out.air ++ [(c, p, r.1)] } }

/-- The engine forms the downlink symbol that starts, under the stencils active at its start, where data came for it
(R216, R221); in DOZE its datapath is Gated (R93). -/
def State.dlForm (s : State) (c : Nat) (y : SymbolAt) : State :=
  if !s.inService || !s.combinerOn || !s.flag (Reg.carConfigEnable 1 c) ||
    !(s.fh.accepted.any fun x => x.ns == y.ns) then s
  else s.each (List.range 64) fun s p => s.dlPath c y p

/-- SYMBOL_START: the next symbol of carrier `c` in direction `d` (0 uplink, 1 downlink) starts, unless a fret boundary
lies before it. The stencils go on, and are read, while the combiner is clocked (R20, R93). The operands are what the spec
does not compute: of the downlink, the interpolators' outputs of each path since the symbol start before; of the uplink,
what the decimators gave over the symbol before the one that ends, and, after a pause, over the one that ended. -/
def State.symbolStart (d c : Nat) (runs : List TxRun) (before ended : List RxRun) (s : State) : State :=
  if !s.symbolsOf d c then s
  else
    let y := s.nextSymbol d c
    s.reachNs (max s.nowNs y.ns) fun s =>
    let s := if d = 1 then s.txSymbol c y.ns runs else s
    let s := if !s.flag (Reg.carConfigEnable d c) || !s.combinerOn then s
      else (s.each (s.movingLayers d c) State.layerSymbol).engineReads d c
    let s := if d = 0 then s.rxSymbol c y before ended else (s.dlForm c y).dlSymbolStart c y.ns
    { s with spectral := { s.spectral with symbols := mapSet 0 (4 * d + c) (y.ns + 1) s.spectral.symbols } }

/-! ## The meanings -/

/-- FRET_BOUNDARY. -/
def execFretBoundary (peaks : List (Fin 64 × Byte)) (far : List (Fin 4)) (s : State) : Outcome :=
  act s fun s => s.fretBoundary (peaks.map fun x => (x.1.val, x.2.toNat)) (far.map Fin.val)
/-- SYMBOL_START. -/
def execSymbolStart (d : Fin 2) (c : Fin 4) (runs : List TxRun) (before ended : List RxRun) (s : State) : Outcome :=
  act s (State.symbolStart d.val c.val runs before ended)

end Sys2Proof.Machine
end

