-- ==== Sys2Proof/Machine/Dispatch.lean ====
section
/-! DEFINITION. The command of each constructor: one arm for each, in the order of the opcode table. -/

namespace Sys2Proof.Machine

/-- The effect of a command on everything but the queue. -/
def exec (i : Instr) (s : State) : Host.Outcome State Fault Refusal :=
  match i with
  | .powerUp straps => Sys2Proof.Machine.execPowerUp straps s
  | .oscReady refCount selfTestOk => Sys2Proof.Machine.execOscReady refCount selfTestOk s
  | .coldReset straps lowNs => Sys2Proof.Machine.execColdReset straps lowNs s
  | .brownOut => Sys2Proof.Machine.execBrownOut s
  | .brownOutHoldEnd straps => Sys2Proof.Machine.execBrownOutHoldEnd straps s
  | .pllUnlock => Sys2Proof.Machine.execPllUnlock s
  | .pcieReset => Sys2Proof.Machine.execPcieReset s
  | .serviceStart p => Sys2Proof.Machine.execServiceStart p s
  | .serviceStop p => Sys2Proof.Machine.execServiceStop p s
  | .holdOff p => Sys2Proof.Machine.execHoldOff p s
  | .lightHoldEnter p => Sys2Proof.Machine.execLightHoldEnter p s
  | .lightHoldExit p => Sys2Proof.Machine.execLightHoldExit p s
  | .deepHoldEnter p => Sys2Proof.Machine.execDeepHoldEnter p s
  | .warmReset p => Sys2Proof.Machine.execWarmReset p s
  | .stateInfo p => Sys2Proof.Machine.execStateInfo p s
  | .timeSet p => Sys2Proof.Machine.execTimeSet p s
  | .timeStep p => Sys2Proof.Machine.execTimeStep p s
  | .timeLock p => Sys2Proof.Machine.execTimeLock p s
  | .timeUnlock p => Sys2Proof.Machine.execTimeUnlock p s
  | .timeSetNoPps => Sys2Proof.Machine.execTimeSetNoPps s
  | .lathLoad p => Sys2Proof.Machine.execLathLoad p s
  | .lathApply => Sys2Proof.Machine.execLathApply s
  | .lathCancel p => Sys2Proof.Machine.execLathCancel p s
  | .lathInfo p => Sys2Proof.Machine.execLathInfo p s
  | .roleChallenge p => Sys2Proof.Machine.execRoleChallenge p s
  | .roleProve p => Sys2Proof.Machine.execRoleProve p s
  | .roleDrop p => Sys2Proof.Machine.execRoleDrop p s
  | .nonceExpiry p => Sys2Proof.Machine.execNonceExpiry p s
  | .lockoutEnd p => Sys2Proof.Machine.execLockoutEnd p s
  | .installerEnrol p => Sys2Proof.Machine.execInstallerEnrol p s
  | .journalCopy p => Sys2Proof.Machine.execJournalCopy p s
  | .journalAck p => Sys2Proof.Machine.execJournalAck p s
  | .capsuleCopy p => Sys2Proof.Machine.execCapsuleCopy p s
  | .capsuleClear p => Sys2Proof.Machine.execCapsuleClear p s
  | .makerEnter p => Sys2Proof.Machine.execMakerEnter p s
  | .calRun p => Sys2Proof.Machine.execCalRun p s
  | .pathTest p => Sys2Proof.Machine.execPathTest p s
  | .calSave p => Sys2Proof.Machine.execCalSave p s
  | .calRestore p => Sys2Proof.Machine.execCalRestore p s
  | .marginReplan p => Sys2Proof.Machine.execMarginReplan p s
  | .pathPrepare p => Sys2Proof.Machine.execPathPrepare p s
  | .pathFence p => Sys2Proof.Machine.execPathFence p s
  | .pathUnfence p => Sys2Proof.Machine.execPathUnfence p s
  | .rxSync p => Sys2Proof.Machine.execRxSync p s
  | .dpdAdapt p => Sys2Proof.Machine.execDpdAdapt p s
  | .captureStart p => Sys2Proof.Machine.execCaptureStart p s
  | .captureStop p => Sys2Proof.Machine.execCaptureStop p s
  | .synHop p => Sys2Proof.Machine.execSynHop p s
  | .synCal p => Sys2Proof.Machine.execSynCal p s
  | .synStoreClear p => Sys2Proof.Machine.execSynStoreClear p s
  | .tileEnum p => Sys2Proof.Machine.execTileEnum p s
  | .tileRelease p => Sys2Proof.Machine.execTileRelease p s
  | .aerialTune p => Sys2Proof.Machine.execAerialTune p s
  | .rffeXfer p => Sys2Proof.Machine.execRffeXfer p s
  | .stencilSelect p => Sys2Proof.Machine.execStencilSelect p s
  | .gridBuild p => Sys2Proof.Machine.execGridBuild p s
  | .regWrite p => Sys2Proof.Machine.execRegWrite p s
  | .regBulk p => Sys2Proof.Machine.execRegBulk p s
  | .regFree p => Sys2Proof.Machine.execRegFree p s
  | .regFind p => Sys2Proof.Machine.execRegFind p s
  | .regWindow p => Sys2Proof.Machine.execRegWindow p s
  | .twinInfo p => Sys2Proof.Machine.execTwinInfo p s
  | .divergenceCopy p => Sys2Proof.Machine.execDivergenceCopy p s
  | .divergenceClear p => Sys2Proof.Machine.execDivergenceClear p s
  | .hodStart p => Sys2Proof.Machine.execHodStart p s
  | .hodStop p => Sys2Proof.Machine.execHodStop p s
  | .hkStart p => Sys2Proof.Machine.execHkStart p s
  | .hkStop p => Sys2Proof.Machine.execHkStop p s
  | .hkClear p => Sys2Proof.Machine.execHkClear p s
  | .droneRead offset words => Sys2Proof.Machine.execDroneRead offset words s
  | .spaceRead addr words => Sys2Proof.Machine.execSpaceRead addr words s
  | .spaceWrite addr data => Sys2Proof.Machine.execSpaceWrite addr data s
  | .lathStream bytes => Sys2Proof.Machine.execLathStream bytes s
  | .lathStreamGapTimeout => Sys2Proof.Machine.execLathStreamGapTimeout s
  | .wake => Sys2Proof.Machine.execWake s
  | .resetEnable => Sys2Proof.Machine.execResetEnable s
  | .droneReset straps => Sys2Proof.Machine.execDroneReset straps s
  | .registerWrite p addr value be => Sys2Proof.Machine.execRegisterWrite p addr value be s
  | .shadowWrite p addr value be => Sys2Proof.Machine.execShadowWrite p addr value be s
  | .commitArm p => Sys2Proof.Machine.execCommitArm p s
  | .commitDisarm p => Sys2Proof.Machine.execCommitDisarm p s
  | .cmdClaim p => Sys2Proof.Machine.execCmdClaim p s
  | .cmdRelease p => Sys2Proof.Machine.execCmdRelease p s
  | .eventsStatusClear p w mask => Sys2Proof.Machine.execEventsStatusClear p w mask s
  | .faRun p core => Sys2Proof.Machine.execFaRun p core s
  | .faHostHalt p core => Sys2Proof.Machine.execFaHostHalt p core s
  | .doorbell p core value => Sys2Proof.Machine.execDoorbell p core value s
  | .biasCodeWrite p k code => Sys2Proof.Machine.execBiasCodeWrite p k code s
  | .biasRangeWrite p k range => Sys2Proof.Machine.execBiasRangeWrite p k range s
  | .biasSafeHoldEnd k => Sys2Proof.Machine.execBiasSafeHoldEnd k s
  | .biasStrobe p => Sys2Proof.Machine.execBiasStrobe p s
  | .reqBankWrite p path bank => Sys2Proof.Machine.execReqBankWrite p path bank s
  | .dpdCoefWrite p path bank index value => Sys2Proof.Machine.execDpdCoefWrite p path bank index value s
  | .capLengthWrite p k length => Sys2Proof.Machine.execCapLengthWrite p k length s
  | .capLengthApply k => Sys2Proof.Machine.execCapLengthApply k s
  | .incHiWrite p value => Sys2Proof.Machine.execIncHiWrite p value s
  | .cmpArm p k mode => Sys2Proof.Machine.execCmpArm p k mode s
  | .txtsIdRead p => Sys2Proof.Machine.execTxtsIdRead p s
  | .txtsPop p => Sys2Proof.Machine.execTxtsPop p s
  | .logAddrRead p => Sys2Proof.Machine.execLogAddrRead p s
  | .logPop p => Sys2Proof.Machine.execLogPop p s
  | .accLoRead p x slot => Sys2Proof.Machine.execAccLoRead p x slot s
  | .owdStart p => Sys2Proof.Machine.execOwdStart p s
  | .bridgeEnableWrite p enable => Sys2Proof.Machine.execBridgeEnableWrite p enable s
  | .skimEnWrite p mask => Sys2Proof.Machine.execSkimEnWrite p mask s
  | .muteWrite p path mute => Sys2Proof.Machine.execMuteWrite p path mute s
  | .stencilHostWrite p offset bytes => Sys2Proof.Machine.execStencilHostWrite p offset bytes s
  | .registryWindowWrite p offset bytes => Sys2Proof.Machine.execRegistryWindowWrite p offset bytes s
  | .faerorWindowWrite p offset bytes => Sys2Proof.Machine.execFaerorWindowWrite p offset bytes s
  | .hostWindowRead p offset => Sys2Proof.Machine.execHostWindowRead p offset s
  | .hostWindowWrite p offset bytes => Sys2Proof.Machine.execHostWindowWrite p offset bytes s
  | .fretBoundary peaks far => Sys2Proof.Machine.execFretBoundary peaks far s
  | .symbolStart d c runs before ended => Sys2Proof.Machine.execSymbolStart d c runs before ended s
  | .uplinkSectionSend layer runs => Sys2Proof.Machine.execUplinkSectionSend layer runs s
  | .windowListClose => Sys2Proof.Machine.execWindowListClose s
  | .windowMap => Sys2Proof.Machine.execWindowMap s
  | .windowMapRevision => Sys2Proof.Machine.execWindowMapRevision s
  | .fretPreparation => Sys2Proof.Machine.execFretPreparation s
  | .runaheadRebuild => Sys2Proof.Machine.execRunaheadRebuild s
  | .dozeWakeStart => Sys2Proof.Machine.execDozeWakeStart s
  | .dozeWakeComplete => Sys2Proof.Machine.execDozeWakeComplete s
  | .holdCompare => Sys2Proof.Machine.execHoldCompare s
  | .lightHoldWakeComplete => Sys2Proof.Machine.execLightHoldWakeComplete s
  | .deepHoldEntryComplete => Sys2Proof.Machine.execDeepHoldEntryComplete s
  | .deepHoldWake => Sys2Proof.Machine.execDeepHoldWake s
  | .timeCompare k => Sys2Proof.Machine.execTimeCompare k s
  | .ppsInEdge => Sys2Proof.Machine.execPpsInEdge s
  | .ppsMissing => Sys2Proof.Machine.execPpsMissing s
  | .ppsOut => Sys2Proof.Machine.execPpsOut s
  | .cicOutput x k codes => Sys2Proof.Machine.execCicOutput x k codes s
  | .hkRunStart x => Sys2Proof.Machine.execHkRunStart x s
  | .hkRunEnd x => Sys2Proof.Machine.execHkRunEnd x s
  | .thermalReading t v => Sys2Proof.Machine.execThermalReading t v s
  | .sagNChange low => Sys2Proof.Machine.execSagNChange low s
  | .sagStageEntry codes => Sys2Proof.Machine.execSagStageEntry codes s
  | .sagStepDown low => Sys2Proof.Machine.execSagStepDown low s
  | .sagDeepHold => Sys2Proof.Machine.execSagDeepHold s
  | .ageingMeasurement drifts => Sys2Proof.Machine.execAgeingMeasurement drifts s
  | .synLock x found => Sys2Proof.Machine.execSynLock x found s
  | .synUnlock x => Sys2Proof.Machine.execSynUnlock x s
  | .synCalFail x => Sys2Proof.Machine.execSynCalFail x s
  | .overloadBackoff p => Sys2Proof.Machine.execOverloadBackoff p s
  | .tilePresent t => Sys2Proof.Machine.execTilePresent t s
  | .tileDebounceEnd t => Sys2Proof.Machine.execTileDebounceEnd t s
  | .tileEnumeration t a b => Sys2Proof.Machine.execTileEnumeration t a b s
  | .tileRemoved t => Sys2Proof.Machine.execTileRemoved t s
  | .drainDelayEnd t => Sys2Proof.Machine.execDrainDelayEnd t s
  | .calPassEnd run l grains => Sys2Proof.Machine.execCalPassEnd run l grains s
  | .aerialCheck p ref x => Sys2Proof.Machine.execAerialCheck p ref x s
  | .txCouplerRun m ref => Sys2Proof.Machine.execTxCouplerRun m ref s
  | .dpdAdaptPass ref coefs nmse => Sys2Proof.Machine.execDpdAdaptPass ref coefs nmse s
  | .obsGrant q => Sys2Proof.Machine.execObsGrant q s
  | .captureRun k x => Sys2Proof.Machine.execCaptureRun k x s
  | .captureEnd k => Sys2Proof.Machine.execCaptureEnd k s
  | .seamMeasurement mean residual seen => Sys2Proof.Machine.execSeamMeasurement mean residual seen s
  | .seamOkTimeout => Sys2Proof.Machine.execSeamOkTimeout s
  | .signatureRefresh index ident paths sequence timing cfo quality fret => Sys2Proof.Machine.execSignatureRefresh index ident paths sequence timing cfo quality fret s
  | .gridDetection short bar beam slot sym preamble timing cfo metric carrier => Sys2Proof.Machine.execGridDetection short bar beam slot sym preamble timing cfo metric carrier s
  | .detectReport => Sys2Proof.Machine.execDetectReport s
  | .sigReport => Sys2Proof.Machine.execSigReport s
  | .linkUp => Sys2Proof.Machine.execLinkUp s
  | .linkDown lanes fec => Sys2Proof.Machine.execLinkDown lanes fec s
  | .frameDiscard => Sys2Proof.Machine.execFrameDiscard s
  | .layerDataSection frame pcId seqId head blocks => Sys2Proof.Machine.execLayerDataSection frame pcId seqId head blocks s
  | .announce => Sys2Proof.Machine.execAnnounce s
  | .announceAck frame uid ident => Sys2Proof.Machine.execAnnounceAck frame uid ident s
  | .regCmd frame tag opcode args images => Sys2Proof.Machine.execRegCmd frame tag opcode args images s
  | .regResp => Sys2Proof.Machine.execRegResp s
  | .status => Sys2Proof.Machine.execStatus s
  | .oneWayDelayRequest frame ident => Sys2Proof.Machine.execOneWayDelayRequest frame ident s
  | .oneWayDelayResponse frame sec ns cv => Sys2Proof.Machine.execOneWayDelayResponse frame sec ns cv s
  | .remoteRequest frame => Sys2Proof.Machine.execRemoteRequest frame s
  | .followUp => Sys2Proof.Machine.execFollowUp s
  | .owdTimeout => Sys2Proof.Machine.execOwdTimeout s
  | .ptpFrame frame => Sys2Proof.Machine.execPtpFrame frame s
  | .ptpTxSlot => Sys2Proof.Machine.execPtpTxSlot s
  | .bridgeTraining => Sys2Proof.Machine.execBridgeTraining s
  | .bridgeTrained roundTripNs => Sys2Proof.Machine.execBridgeTrained roundTripNs s
  | .ident uid side state role elder instDigest opDigest decidedBy divergence entries epoch => Sys2Proof.Machine.execIdent uid side state role elder instDigest opDigest decidedBy divergence entries epoch s
  | .heartbeatSend => Sys2Proof.Machine.execHeartbeatSend s
  | .heartbeat state short synced => Sys2Proof.Machine.execHeartbeat state short synced s
  | .bridgeLossDeclare => Sys2Proof.Machine.execBridgeLossDeclare s
  | .witnessReqRepeat => Sys2Proof.Machine.execWitnessReqRepeat s
  | .witnessVote frame lead other epoch => Sys2Proof.Machine.execWitnessVote frame lead other epoch s
  | .witnessTimeout => Sys2Proof.Machine.execWitnessTimeout s
  | .notice => Sys2Proof.Machine.execNotice s
  | .mirror seq index word => Sys2Proof.Machine.execMirror seq index word s
  | .mirrorAck seq => Sys2Proof.Machine.execMirrorAck seq s
  | .mirrorResend => Sys2Proof.Machine.execMirrorResend s
  | .syncMark last count => Sys2Proof.Machine.execSyncMark last count s
  | .forward seq opcode args images => Sys2Proof.Machine.execForward seq opcode args images s
  | .forwardResp seq code r0 r1 next => Sys2Proof.Machine.execForwardResp seq code r0 r1 next s
  | .repairReq index => Sys2Proof.Machine.execRepairReq index s
  | .repairResp index word => Sys2Proof.Machine.execRepairResp index word s
  | .journal image => Sys2Proof.Machine.execJournal image s
  | .agree kind answer at_ digest compare => Sys2Proof.Machine.execAgree kind answer at_ digest compare s
  | .twinAgreementTimeout => Sys2Proof.Machine.execTwinAgreementTimeout s
  | .bridgeFrameDiscard => Sys2Proof.Machine.execBridgeFrameDiscard s
  | .skimRead m => Sys2Proof.Machine.execSkimRead m s
  | .ceWriteback m => Sys2Proof.Machine.execCeWriteback m s
  | .hodDescriptorFetch k host => Sys2Proof.Machine.execHodDescriptorFetch k host s
  | .hodDescriptorEnd k host => Sys2Proof.Machine.execHodDescriptorEnd k host s
  | .hodBusFault k addr done backOk host => Sys2Proof.Machine.execHodBusFault k addr done backOk host s
  | .faInterruptEntry core => Sys2Proof.Machine.execFaInterruptEntry core s
  | .waitEnd core => Sys2Proof.Machine.execWaitEnd core s
  | .faTimerExpiry core => Sys2Proof.Machine.execFaTimerExpiry core s
  | .illegalInstruction core => Sys2Proof.Machine.execIllegalInstruction core s
  | .nop core => Sys2Proof.Machine.execNop core s
  | .halt core => Sys2Proof.Machine.execHalt core s
  | .b core t => Sys2Proof.Machine.execB core t s
  | .bc core cond t => Sys2Proof.Machine.execBc core cond t s
  | .call core t => Sys2Proof.Machine.execCall core t s
  | .ret core => Sys2Proof.Machine.execRet core s
  | .reti core => Sys2Proof.Machine.execReti core s
  | .wait core => Sys2Proof.Machine.execWait core s
  | .sig core t => Sys2Proof.Machine.execSig core t s
  | .repeatBlock core n count => Sys2Proof.Machine.execRepeat core n count s
  | .add core rd rs rt => Sys2Proof.Machine.execAdd core rd rs rt s
  | .sub core rd rs rt => Sys2Proof.Machine.execSub core rd rs rt s
  | .adds core rd rs rt => Sys2Proof.Machine.execAdds core rd rs rt s
  | .subs core rd rs rt => Sys2Proof.Machine.execSubs core rd rs rt s
  | .and core rd rs rt => Sys2Proof.Machine.execAnd core rd rs rt s
  | .or core rd rs rt => Sys2Proof.Machine.execOr core rd rs rt s
  | .xor core rd rs rt => Sys2Proof.Machine.execXor core rd rs rt s
  | .shl core rd rs sh => Sys2Proof.Machine.execShl core rd rs sh s
  | .shr core rd rs sh => Sys2Proof.Machine.execShr core rd rs sh s
  | .sra core rd rs sh => Sys2Proof.Machine.execSra core rd rs sh s
  | .shlv core rd rs rt => Sys2Proof.Machine.execShlv core rd rs rt s
  | .srav core rd rs rt => Sys2Proof.Machine.execSrav core rd rs rt s
  | .min core rd rs rt => Sys2Proof.Machine.execMin core rd rs rt s
  | .max core rd rs rt => Sys2Proof.Machine.execMax core rd rs rt s
  | .abs core rd rs => Sys2Proof.Machine.execAbs core rd rs s
  | .neg core rd rs => Sys2Proof.Machine.execNeg core rd rs s
  | .cmp core rs rt => Sys2Proof.Machine.execCmp core rs rt s
  | .cadd core rd rs rt => Sys2Proof.Machine.execCadd core rd rs rt s
  | .csub core rd rs rt => Sys2Proof.Machine.execCsub core rd rs rt s
  | .conj core rd rs => Sys2Proof.Machine.execConj core rd rs s
  | .cswap core rd rs => Sys2Proof.Machine.execCswap core rd rs s
  | .mov core rd rs => Sys2Proof.Machine.execMov core rd rs s
  | .addi core rd rs imm => Sys2Proof.Machine.execAddi core rd rs imm s
  | .andi core rd rs imm => Sys2Proof.Machine.execAndi core rd rs imm s
  | .ori core rd rs imm => Sys2Proof.Machine.execOri core rd rs imm s
  | .xori core rd rs imm => Sys2Proof.Machine.execXori core rd rs imm s
  | .movi core rd imm => Sys2Proof.Machine.execMovi core rd imm s
  | .movhi core rd imm => Sys2Proof.Machine.execMovhi core rd imm s
  | .cmpi core rs imm => Sys2Proof.Machine.execCmpi core rs imm s
  | .ldw core g p pm => Sys2Proof.Machine.execLdw core g p pm s
  | .ldh core g p pm => Sys2Proof.Machine.execLdh core g p pm s
  | .stw core g p pm => Sys2Proof.Machine.execStw core g p pm s
  | .sth core g p pm => Sys2Proof.Machine.execSth core g p pm s
  | .wzero core p pm => Sys2Proof.Machine.execWzero core p pm s
  | .ldd core ga gb pa pb ma mb => Sys2Proof.Machine.execLdd core ga gb pa pb ma mb s
  | .cmac core gx gy => Sys2Proof.Machine.execCmac core gx gy s
  | .cmacj core gx gy => Sys2Proof.Machine.execCmacj core gx gy s
  | .cmsu core gx gy => Sys2Proof.Machine.execCmsu core gx gy s
  | .cmsuj core gx gy => Sys2Proof.Machine.execCmsuj core gx gy s
  | .cmul core gx gy => Sys2Proof.Machine.execCmul core gx gy s
  | .cmulj core gx gy => Sys2Proof.Machine.execCmulj core gx gy s
  | .rmac core gx gy acc hx hy => Sys2Proof.Machine.execRmac core gx gy acc hx hy s
  | .rmsu core gx gy acc hx hy => Sys2Proof.Machine.execRmsu core gx gy acc hx hy s
  | .rmul core gx gy acc hx hy => Sys2Proof.Machine.execRmul core gx gy acc hx hy s
  | .cmacld core gx gy px py mx my => Sys2Proof.Machine.execCmacld core gx gy px py mx my s
  | .cmacjld core gx gy px py mx my => Sys2Proof.Machine.execCmacjld core gx gy px py mx my s
  | .cmsuld core gx gy px py mx my => Sys2Proof.Machine.execCmsuld core gx gy px py mx my s
  | .cmsujld core gx gy px py mx my => Sys2Proof.Machine.execCmsujld core gx gy px py mx my s
  | .clra core mask => Sys2Proof.Machine.execClra core mask s
  | .mvag core g acc k => Sys2Proof.Machine.execMvag core g acc k s
  | .mvga core g acc => Sys2Proof.Machine.execMvga core g acc s
  | .acopy core acc acc2 => Sys2Proof.Machine.execAcopy core acc acc2 s
  | .aadd core acc acc2 => Sys2Proof.Machine.execAadd core acc acc2 s
  | .asub core acc acc2 => Sys2Proof.Machine.execAsub core acc acc2 s
  | .cmbg core g k => Sys2Proof.Machine.execCmbg core g k s
  | .stac core p pm k => Sys2Proof.Machine.execStac core p pm k s
  | .stah core p pm acc k => Sys2Proof.Machine.execStah core p pm acc k s
  | .mvtp core g k => Sys2Proof.Machine.execMvtp core g k s
  | .mvtm core g k => Sys2Proof.Machine.execMvtm core g k s
  | .mvtl core g k => Sys2Proof.Machine.execMvtl core g k s
  | .mvtb core g k => Sys2Proof.Machine.execMvtb core g k s
  | .mvfp core g k => Sys2Proof.Machine.execMvfp core g k s
  | .mvfm core g k => Sys2Proof.Machine.execMvfm core g k s
  | .mvfl core g k => Sys2Proof.Machine.execMvfl core g k s
  | .mvfb core g k => Sys2Proof.Machine.execMvfb core g k s
  | .mvts core g k => Sys2Proof.Machine.execMvts core g k s
  | .mvfs core g k => Sys2Proof.Machine.execMvfs core g k s
  | .lip core k imm => Sys2Proof.Machine.execLip core k imm s
  | .lim core k imm => Sys2Proof.Machine.execLim core k imm s
  | .lil core k imm => Sys2Proof.Machine.execLil core k imm s
  | .lib core k imm => Sys2Proof.Machine.execLib core k imm s
  | .particleStrike m word errs => Sys2Proof.Machine.execParticleStrike m word errs s
  | .twinBridgeTraining => Sys2Proof.Machine.execTwinBridgeTraining s
  | .heartbeatCheckResume => Sys2Proof.Machine.execHeartbeatCheckResume s
  | .msixUnmask vector => Sys2Proof.Machine.execMsixUnmask vector s
  | .makerEraseComplete => Sys2Proof.Machine.execMakerEraseComplete s
  | .pathTestEnd p c1 c2 c3 c4 => Sys2Proof.Machine.execPathTestEnd p c1 c2 c3 c4 s
  | .latchingRead p addr => Sys2Proof.Machine.execLatchingRead p addr s

end Sys2Proof.Machine
end

