-- ==== Sys2Proof/Machine/Step.lean ====
section
/-! DEFINITION. One step of the block: the command at the front of its queue, or, with nothing to do, one tick of its
clock. -/

namespace Sys2Proof.Machine

/-- Nothing waits: one period of the tick clock passes (R378), with what hangs on time alone. DESIGN CHOICE: the opcode
table has no row for a tick. -/
def idle (s : State) : Host.Outcome State Fault Refusal := act s fun s => s.passTicks 1

/-- One step: the command at the front of the queue is carried out on the state with the rest of the queue. -/
def step (s : State) : Host.Outcome State Fault Refusal :=
  match s.pending with
  | [] => idle s
  | i :: rest => exec i { s with pending := rest }

/-- The state with the command that a table word spells put at the front of the queue: no word spells one. -/
def State.withFetchWord (s : State) (nbits w : Nat) : State :=
  match decodeTableWord nbits w with
  | some i => { s with pending := i :: s.pending }
  | none => s

end Sys2Proof.Machine
end

