-- ==== Sys2Proof/Safety.lean ====
section
/-! DEFINITION. What a safe state of the block is, and the terms in which statements speak of a command: that a port may
issue one, that one has ended or goes on, and what a command leaves as it was. -/

namespace Sys2Proof.Machine

/-! ## The drain and mute interlocks (R72, R158, R203) -/

/-- A drain enable is high only in SERVICE, or in a wake into SERVICE that has reached its drain step: from Doze in an
idled half, or from Light Hold, with the half On (R72, R96, R103, R203). -/
def State.drainsSafe (s : State) : Prop :=
  ∀ t, t < 8 → s.flag (Reg.tileStatusDrain t) = true → s.phase = .run ∧ s.analogOn (t / 4) = true ∧
    (s.dev = .service ∨ s.flag Reg.dozeStatusWaking = true ∧
      (s.dev = .doze ∧ s.flag (if t < 4 then Reg.dozeStatusWestIdle else Reg.dozeStatusEastIdle) = true ∨
        s.dev = .lightHold ∧ s.holdFrom ≠ .lathed))

/-- A mute switch is closed only in SERVICE, on a path that is ACTIVE, not muted by the host, and whose half's transmit
synthesizer is LOCKED (R158). -/
def State.mutesSafe (s : State) : Prop :=
  ∀ p, p ∈ s.tx.closed → s.phase = .run ∧ s.dev = .service ∧ s.getF (Reg.pathStateState p) = 3 ∧
    s.flag (Reg.txCtrlMute p) = false ∧ s.getF (Reg.synStatusState (2 * (p / 32))) = 2

/-- No aerial is driven where the spec keeps it quiet: the machine's safety invariant. -/
def State.quietOutside (s : State) : Prop := s.drainsSafe ∧ s.mutesSafe

/-! ## Issuing a command (R77, R528 to R530) -/

/-- No write that was kept for a path under test is due (R441). -/
abbrev State.noneDue (s : State) : Prop := ∀ q ∈ s.cal.testWrites, s.testKeeps q = true

/-- A port may issue a command: the spine runs, none of its accesses waits, no kept write comes before it, the other port
holds no claim, and no command runs (R441, R517, R528, R529). -/
abbrev State.ready (s : State) (p : Port) : Prop :=
  s.spineRuns = true ∧ (∀ q ∈ s.hostQueue, q.port ≠ p) ∧ s.noneDue ∧ s.getF Reg.cmdClaimOwner ≠ 2 - portCode p ∧
    s.getF Reg.cmdStatusRunning = 0

/-- What CMD_STATUS shows of the command that a port issued last, with the count of commands completed since power-up
taken from the state before (R529, R530). -/
abbrev State.shows (t : State) (p : Port) (opcode code running : Nat) : Prop :=
  t.getF Reg.cmdStatusPort = portCode p ∧ t.getF Reg.cmdStatusOpcode = opcode ∧
    t.getF Reg.cmdStatusCode = code ∧ t.getF Reg.cmdStatusRunning = running

/-- The command that a port issued in `s` has ended in `t` with a final code: CMD_STATUS shows it, SEQ has counted it,
nothing runs, and EV_8 stands (R530). -/
abbrev State.ended (s t : State) (p : Port) (opcode code : Nat) : Prop :=
  t.shows p opcode code 0 ∧ t.getF Reg.cmdStatusSeq = (s.getF Reg.cmdStatusSeq + 1) % 65536 ∧ t.job = none ∧
    testBit (t.getF (Reg.evStatus 0)) 8 = true

/-- The command that a port issued in `s` goes on in `t`: BUSY and RUNNING, with SEQ as it was (R529). -/
abbrev State.goesOn (s t : State) (p : Port) (opcode : Nat) : Prop :=
  t.shows p opcode 1 1 ∧ t.getF Reg.cmdStatusSeq = s.getF Reg.cmdStatusSeq ∧ t.job ≠ none

/-- Outside service, in which interlocks mute paths by themselves (R188), every path but those of a list keeps its state
and fence reason. -/
abbrev State.pathsBut (s t : State) (l : List Nat) : Prop :=
  s.inService = false → ∀ p ∈ List.range 64, p ∉ l → t.path p = s.path p ∧
    t.getF (Reg.pathStateFenceReason p) = s.getF (Reg.pathStateFenceReason p)

/-- Paths of a list are FENCED: those that were keep their reason, and the others have a given one (R188, R190). -/
abbrev State.fencedFor (s t : State) (l : List Nat) (reason : Nat) : Prop :=
  ∀ p ∈ l, t.path p = 5 ∧ t.getF (Reg.pathStateFenceReason p) = if s.path p = 5 then s.getF (Reg.pathStateFenceReason p) else reason

/-- The paths of a 64-bit mask in argument words 0 and 1. -/
abbrev State.argPaths (s : State) : List Nat :=
  (List.range 64).filter fun p => testBit (s.argW 0 + 2 ^ 32 * s.argW 1) p

/-- The first words of the argument block read so (R530). -/
abbrev State.resultsAre (t : State) (l : List Nat) : Prop := ∀ i, i < l.length → t.getF (Reg.arg i) = l.getD i 0 % 2 ^ 32

/-! ## Frames -/

/-- The fields that follow other state by themselves after every command, or report a command: path states and fence
reasons (R188), drain levels (R203), the BUSY of observation receivers (R162), CMD_STATUS with the first two result words,
and the first word of event status (R530). -/
def Fld.follows (f : Fld) : Bool :=
  (List.range 64).any (fun p => f.key == (Reg.pathStateState p).key || f.key == (Reg.pathStateFenceReason p).key) ||
    (List.range 8).any (fun t => f.key == (Reg.tileStatusDrain t).key) ||
    (List.range 4).any (fun q => f.key == (Reg.obsStatusBusy q).key) ||
    [Reg.arg 0, Reg.arg 1, Reg.cmdStatusCode, Reg.cmdStatusRunning, Reg.cmdStatusSeq, Reg.cmdStatusPort,
      Reg.cmdStatusOpcode, Reg.evStatus 0].any fun g => f.key == g.key

/-- Every register field reads as before, but those of a list and those that follow other state. -/
def State.regsBut (s t : State) (l : List Fld) : Prop :=
  ∀ f : Fld, f.follows = false → (∀ g ∈ l, f.key ≠ g.key) → t.getF f = s.getF f

/-- The six coded memories are as they were. -/
def State.sameMemories (s t : State) : Prop := ∀ m, t.mem m = s.mem m

/-- Both sessions hold the roles that they held. -/
def State.sameRoles (s t : State) : Prop := ∀ p, (t.session p).role = (s.session p).role

/-- Device state, analog halves, lath, journal, Faeror cores, Hod, device time and the drone are as they were, but that a
quad-SPI frame cancels the enable of DRONE_RESET (R526). -/
def State.sameEngines (s t : State) : Prop :=
  t.phase = s.phase ∧ t.dev = s.dev ∧ t.analogWest = s.analogWest ∧ t.analogEast = s.analogEast ∧ t.lath = s.lath ∧
    t.journal = s.journal ∧ t.cores = s.cores ∧ t.hod = s.hod ∧ t.time = s.time ∧
    t.drone = { s.drone with resetEnabled := t.drone.resetEnabled }

/-- A command that changes register fields of a list alone, beside those that follow other state: memories, roles and
engines are as they were. -/
def State.onlyRegs (s t : State) (l : List Fld) : Prop :=
  s.regsBut t l ∧ s.sameMemories t ∧ s.sameRoles t ∧ s.sameEngines t

/-- The words that hold bytes `a` to `a + n - 1` of a memory are clean codewords. -/
abbrev State.cleanAt (s : State) (m : MemId) (a n : Nat) : Prop :=
  ∀ i, i < (a + n - 1) / 32 + 1 - a / 32 → s.wordMark m (a / 32 + i) = .clean

/-- A run of bytes of a memory, as it stands. -/
abbrev State.bytesAt (s : State) (m : MemId) (a n : Nat) : List Byte := (List.range n).map fun i => (s.mem m).byte (a + i)

/-- The first `n` bytes of a memory from `a` on read as a function of their place gives. -/
def State.bytesAre (t : State) (m : MemId) (a n : Nat) (f : Nat → Byte) : Prop :=
  ∀ i, i < n → (t.mem m).byte (a + i) = f i

/-- Every byte of a memory outside `a` to `a + n - 1` reads as before. -/
def State.sameBytesBut (s t : State) (m : MemId) (a n : Nat) : Prop :=
  ∀ b, b < a ∨ a + n ≤ b → (t.mem m).byte b = (s.mem m).byte b

/-- Every memory but one is as it was. -/
def State.otherMemories (s t : State) (m : MemId) : Prop := ∀ k, k ≠ m → t.mem k = s.mem k

/-- The journal has room for records of every kind, and none waits to be counted as lost (R63). -/
abbrev State.mayRecord (s : State) : Prop := s.phase = .run ∧ s.journal.lost = 0 ∧ s.unacked < 4092

/-- `n` records were written, the last of them of a KIND and ROLE; its bytes lie at its place in spine memory (R61). -/
abbrev State.recorded (s t : State) (n kind role : Nat) : Prop :=
  t.journal.next = s.journal.next + n ∧
    ((t.mem .spine).byte ((t.journal.next - 1) % 4096 * 128 + 4)).toNat = kind ∧
    ((t.mem .spine).byte ((t.journal.next - 1) % 4096 * 128 + 5)).toNat = role

/-- An event's STATUS bit stands (R420). -/
abbrev State.event (t : State) (n : Nat) : Prop := testBit (t.getF (Reg.evStatus (n / 32))) (n % 32) = true

/-- Every register field but those of a list has its reset value. -/
def State.regsReset (t : State) (l : List Fld) : Prop := ∀ f : Fld, (∀ g ∈ l, f.key ≠ g.key) → t.getF f = f.rst

/-- A wake from Light Hold has begun: WAKING, its tick, the halves On that are not absent; the cores' data memories alone
may change, and the state is still LIGHT_HOLD (R102 to R105). -/
abbrev State.lightRose (s t : State) : Prop :=
  t.getF Reg.dozeStatusWaking = 1 ∧ t.doze.wakeTick = s.drone.ticks ∧ t.dev = .lightHold ∧
    t.analogWest = (!s.absent .analogWest && !s.absent .dfeWest) ∧
    t.analogEast = (!s.absent .analogEast && !s.absent .dfeEast) ∧ s.otherMemories t .faData ∧ s.sameRoles t ∧
    t.journal = s.journal ∧ t.lath = s.lath

/-- The fields that show the levels of the presence pins, which no reset changes (R193). -/
def presenceRegs : List Fld := (List.range 8).map Reg.tileStatusPresent

/-- TILE_t.STATUS.PRESENT shows the level of every presence pin (R193). -/
def State.pinsShown (s t : State) : Prop := ∀ k, k < 8 → t.getF (Reg.tileStatusPresent k) = bit (s.tile k).pin

/-- Every domain but DRONE is at reset: BARE, no session, no lath, no running command, engines and cores at rest (R83). -/
abbrev State.domainsReset (t : State) : Prop :=
  t.dev = .bare ∧ t.pcie = .none ∧ t.qspi = .none ∧ t.lath = State.reset.lath ∧ t.job = none ∧ t.shadow = [] ∧
    t.analogWest = false ∧ t.analogEast = false ∧ t.cores = State.reset.cores ∧ t.hod = State.reset.hod ∧
    t.sched = State.reset.sched ∧ t.fh = State.reset.fh ∧ t.time = State.reset.time ∧ t.doze = State.reset.doze ∧
    t.mon = State.reset.mon ∧ t.hostQueue = []

/-- The six memories hold nothing. -/
abbrev State.memoriesLost (t : State) : Prop :=
  t.registryMem = State.reset.registryMem ∧ t.stencilMem = State.reset.stencilMem ∧
    t.captureMem = State.reset.captureMem ∧ t.spineMem = State.reset.spineMem ∧ t.faProg = State.reset.faProg ∧
    t.faData = State.reset.faData

/-! ## The commands of the host ports, as the spec's command tables list them -/

/-- Which roles a command table names: none asked for; operator; installer; either; either but in BARE, UNLATHED and
FAULT; any but there (R60). -/
inductive RoleRule where
  | none
  | op
  | inst
  | both
  | keylessBoth
  | keylessAny
  deriving DecidableEq, Repr

/-- The rule permits a session role in a state. -/
def RoleRule.permits (k : RoleRule) (d : DevState) (r : Option Role) : Bool :=
  let keyless := d == .bare || d == .unlathed || d == .fault
  match k with
  | .none => true
  | .op => r == some .operator
  | .inst => r == some .installer
  | .both => r == some .installer || r == some .operator
  | .keylessBoth => keyless || r == some .installer || r == some .operator
  | .keylessAny => keyless || r.isSome

/-- One row of a command table: opcode, command, legal states, roles. LATH_LOAD and ROLE_PROVE have fewer legal states for
some arguments, and MAKER_ENTER and LIGHT_HOLD_ENTER ask for more than a role. -/
structure HostRow where
  opcode : Nat
  cmd : Port → Instr
  legal : List DevState
  rule : RoleRule

/-- LATHED, SERVICE, DOZE. -/
def HostRow.up : List DevState := [.lathed, .service, .doze]

/-- All but LIGHT_HOLD and MAKER. -/
def HostRow.held : List DevState := [.bare, .unlathed, .lathed, .service, .doze, .fault]

/-- All but LIGHT_HOLD. -/
def HostRow.awake : List DevState := [.bare, .unlathed, .lathed, .service, .doze, .fault, .maker]

/-- The command tables of chapters 02 to 18. -/
def hostRows : List HostRow :=
  [⟨0x01, .serviceStart, [.lathed], .op⟩,
   ⟨0x02, .serviceStop, [.service, .doze], .both⟩,
   ⟨0x05, .holdOff, [.service, .doze], .both⟩,
   ⟨0x08, .lightHoldEnter, HostRow.up, .op⟩,
   ⟨0x09, .lightHoldExit, [.lightHold], .none⟩,
   ⟨0x0A, .deepHoldEnter, [.bare, .unlathed, .lathed, .fault], .keylessBoth⟩,
   ⟨0x0E, .warmReset, HostRow.held, .keylessBoth⟩,
   ⟨0x10, .stateInfo, HostRow.awake, .none⟩,
   ⟨0x18, .timeSet, [.bare, .unlathed, .lathed, .fault], .keylessBoth⟩,
   ⟨0x19, .timeStep, [.bare, .unlathed, .lathed, .fault], .keylessBoth⟩,
   ⟨0x1A, .timeLock, HostRow.awake, .both⟩,
   ⟨0x1B, .timeUnlock, HostRow.awake, .both⟩,
   ⟨0x20, .lathLoad, [.bare, .unlathed, .lathed, .service, .doze], .none⟩,
   ⟨0x21, .lathCancel, HostRow.up, .op⟩,
   ⟨0x22, .lathInfo, HostRow.awake, .none⟩] ++
  [⟨0x28, .roleChallenge, HostRow.awake, .none⟩,
   ⟨0x29, .roleProve, HostRow.awake, .none⟩,
   ⟨0x2A, .roleDrop, HostRow.awake, .none⟩,
   ⟨0x2C, .installerEnrol, [.unlathed], .none⟩,
   ⟨0x30, .journalCopy, HostRow.awake, .keylessAny⟩,
   ⟨0x31, .journalAck, HostRow.awake, .keylessBoth⟩,
   ⟨0x34, .capsuleCopy, HostRow.awake, .keylessAny⟩,
   ⟨0x35, .capsuleClear, HostRow.awake, .both⟩,
   ⟨0x3E, .makerEnter, [.bare, .unlathed, .lathed, .fault], .none⟩,
   ⟨0x40, .calRun, HostRow.up, .inst⟩,
   ⟨0x44, .pathTest, HostRow.up, .inst⟩,
   ⟨0x48, .calSave, HostRow.up, .both⟩,
   ⟨0x49, .calRestore, [.lathed], .inst⟩,
   ⟨0x50, .marginReplan, HostRow.up, .both⟩,
   ⟨0x60, .pathPrepare, HostRow.up, .both⟩] ++
  [⟨0x61, .pathFence, HostRow.up, .both⟩,
   ⟨0x62, .pathUnfence, HostRow.up, .both⟩,
   ⟨0x64, .rxSync, HostRow.up, .both⟩,
   ⟨0x68, .dpdAdapt, [.service, .doze], .both⟩,
   ⟨0x6A, .captureStart, HostRow.up, .both⟩,
   ⟨0x6B, .captureStop, HostRow.up, .both⟩,
   ⟨0x70, .synHop, HostRow.up, .op⟩,
   ⟨0x71, .synCal, HostRow.up, .inst⟩,
   ⟨0x72, .synStoreClear, HostRow.up, .inst⟩,
   ⟨0x78, .tileEnum, HostRow.up, .inst⟩,
   ⟨0x79, .tileRelease, HostRow.up, .inst⟩,
   ⟨0x7A, .aerialTune, [.service], .inst⟩,
   ⟨0x7B, .rffeXfer, HostRow.up, .inst⟩,
   ⟨0x80, .stencilSelect, HostRow.up, .op⟩,
   ⟨0x81, .gridBuild, [.lathed], .inst⟩] ++
  [⟨0x88, .regWrite, HostRow.up, .op⟩,
   ⟨0x89, .regBulk, HostRow.up, .op⟩,
   ⟨0x8A, .regFree, HostRow.up, .op⟩,
   ⟨0x8B, .regFind, HostRow.up, .op⟩,
   ⟨0x8C, .regWindow, [.service, .doze], .op⟩,
   ⟨0xA0, .twinInfo, HostRow.awake, .none⟩,
   ⟨0xA4, .divergenceCopy, HostRow.awake, .both⟩,
   ⟨0xA5, .divergenceClear, HostRow.awake, .op⟩,
   ⟨0xC4, .hodStart, HostRow.held, .both⟩,
   ⟨0xC5, .hodStop, HostRow.held, .both⟩,
   ⟨0xD8, .hkStart, HostRow.held, .both⟩,
   ⟨0xD9, .hkStop, HostRow.held, .both⟩,
   ⟨0xDA, .hkClear, HostRow.held, .both⟩]

/-- A running command goes on waiting by itself: FAULT does not end it, PATH_PREPARE has a path in CAL still, and a
synthesizer that SYN_HOP or SYN_CAL waits for works or holds a hop. -/
def State.jobWaits (s : State) : Prop :=
  match s.job with
  | none => True
  | some (.synHop l _) => s.dev ≠ .fault ∧ ∀ x ∈ l, s.synIdle x = false
  | some (.synCal x _) => s.dev ≠ .fault ∧ s.synIdle x = false
  | some (.pathPrepare l _) => s.dev ≠ .fault ∧ l ≠ 0 ∧ listMask ((maskList 64 l).filter fun p => s.path p == pathCal) = l
  | some j => s.dev = .fault → j.endsInFault = false

/-- The running command, CMD_STATUS and the argument block are as they were. -/
def State.sameCommand (s t : State) : Prop :=
  t.job = s.job ∧ t.getF Reg.cmdStatusCode = s.getF Reg.cmdStatusCode ∧
    t.getF Reg.cmdStatusRunning = s.getF Reg.cmdStatusRunning ∧ t.getF Reg.cmdStatusPort = s.getF Reg.cmdStatusPort ∧
    t.getF Reg.cmdStatusOpcode = s.getF Reg.cmdStatusOpcode ∧ t.getF Reg.cmdStatusSeq = s.getF Reg.cmdStatusSeq ∧
    ∀ i, i < 16 → t.getF (Reg.arg i) = s.getF (Reg.arg i)

/-! ## Received frames (R321, R322) -/

/-- A received frame is within MAX_FRAME, of the device's VLAN and addressed to it. -/
abbrev State.takes (s : State) (f : FrameHead) : Prop :=
  f.length.toNat ≤ s.maxFrame ∧ s.vlanTaken (frameVlan f) = true ∧ f.dst = Config.linkMac

/-! ## Host accesses (R7, R513, R515) -/

/-- An access of a host port is carried out at once: the spine runs, none of the port's accesses waits, and no kept write
comes before it. -/
abbrev State.portFree (s : State) (p : Port) : Prop := s.phase = .run ∧ (∀ q ∈ s.hostQueue, q.port ≠ p) ∧ s.noneDue

/-- A register write sets off nothing but what its own rules say: a transmit carrier is enabled, so no path-wide setting
waits for the next write (R143), neither power-domain map has left its reset value (R21), and no twin takes records. -/
abbrev State.inert (s : State) : Prop :=
  s.timingCarrier.isSome = true ∧ s.inPair = false ∧
    ∀ x ∈ s.regs, x.1 / 32 ≠ Reg.domainAbsentI.addr ∧ x.1 / 32 ≠ Reg.domainAbsentO.addr

/-- What a register write leaves as it was: state, roles, lath and all memory but the journal's; and every register field
but those of a list. -/
def State.hostWrote (s t : State) (l : List Fld) : Prop :=
  t.phase = s.phase ∧ t.dev = s.dev ∧ t.lath = s.lath ∧ s.sameRoles t ∧ s.otherMemories t .spine ∧ t.hostQueue = s.hostQueue ∧
    (s.inert → s.regsBut t l)

/-- The access log shows an access that failed (R518). -/
def State.loggedAs (s t : State) (p : Port) (addr write cause : Nat) : Prop :=
  t.getF Reg.accessLogAddr = addr % 2 ^ 32 ∧ t.getF Reg.accessLogInfoCause = cause ∧
    t.getF Reg.accessLogInfoPort = portCode p ∧ t.getF Reg.accessLogInfoWrite = write ∧
    t.getF Reg.accessLogInfoCount = min (s.getF Reg.accessLogInfoCount + 1) 65535

/-- A read is answered: over PCIe with the word, poisoned or not; over quad-SPI with its status byte and the word
(R483, R515, R523). -/
def State.answered (t : State) (p : Port) (code v : Nat) : Prop :=
  match p with
  | .pcie => t.out.reads = [(BitVec.ofNat 32 v, code == 3)]
  | .qspi => t.out.qspi = [BitVec.ofNat 8 code] ++ leBytes 4 v

/-- Class HOSTACC has been charged one cycle of a resource, less what its pending request had been granted (R404, R408,
R520). -/
abbrev State.hostGrain (s t : State) (r : Nat) : Prop := t.used 10 r = s.used 10 r + (1 - s.part 10 r)

/-- The registers that the access log writes. -/
def accessLogRegs : List Fld :=
  [Reg.accessLogAddr, Reg.accessLogInfoCause, Reg.accessLogInfoPort, Reg.accessLogInfoWrite, Reg.accessLogInfoCount]

/-! ## Faeror cores (chapters 09 and 10) -/

/-- The class of core `n` has cycles left after `k` more of this core: no core of it stalls by them (R306). -/
def State.roomAfter (s : State) (n k : Nat) : Prop :=
  (s.charge (s.core n).land.cls 1 k).mayUse (s.core n).land.cls 1 = true

/-- A core may issue an instruction: the FAEROR domain runs and is On, the core runs, it and its class have cycles of this
fret left, the word at its place is clean and spells the instruction, and it may stand there (R9, R281, R282, R284, R301,
R306, R307). -/
def State.mayIssue (s : State) (n : Nat) (i : FaInstr) : Prop :=
  s.phase = .run ∧ s.domain .faeror = .on ∧ (s.core n).run = .running ∧ s.mayUse (s.core n).land.cls 1 = true ∧
    (s.core n).inFret < coreFretCycles ∧ s.wordMark .faProg (2048 * n + (s.core n).pc / 8) = .clean ∧
    faDecode (s.faWord n (s.core n).pc) = some i ∧ (s.core n).land.misplaced i = false

/-- A core issues an instruction, and its class has cycles left after it. -/
def State.issues (s : State) (n : Nat) (i : FaInstr) : Prop :=
  s.mayIssue n i ∧ s.roomAfter n (1 + (s.core n).land.stalls i)

/-- What no instruction of core `n` changes: the other cores, the device state, the lath, the sessions' roles, the
journal, and device time, in which an instruction takes none. -/
def State.otherCores (s t : State) (n : Nat) : Prop :=
  (∀ k, k ≠ n → t.core k = s.core k) ∧ t.phase = s.phase ∧ t.dev = s.dev ∧ t.lath = s.lath ∧ s.sameRoles t ∧
    t.journal = s.journal ∧ t.time = s.time ∧ t.shadow = s.shadow

/-- Program order goes on: the core runs, a cycle has passed, TIMER has counted, and outside delay slots and repeats the
next address follows (R280, R281). -/
def Core.wentOn (c d : Core) : Prop :=
  d.run = .running ∧ d.cycles = (c.cycles + 1) % 2 ^ 32 ∧
    (c.loops = [] → c.branch = none → d.pc = (c.pc + 1) % 16384 ∧ d.loops = [] ∧ d.branch = none)

/-- The special registers but ST and TIMER stay, with the record of the last halt and the core's section. -/
def Core.sameSpecials (c d : Core) : Prop :=
  d.mode = c.mode ∧ d.vbase = c.vbase ∧ d.iret = c.iret ∧ d.ist = c.ist ∧ d.ien = c.ien ∧ d.cls = c.cls ∧
    d.dbell = c.dbell ∧ d.start = c.start ∧ d.loaded = c.loaded ∧ d.operator = c.operator ∧ d.entry = c.entry ∧
    d.haltPc = c.haltPc ∧ d.cause = c.cause ∧ d.haltAddr = c.haltAddr ∧ d.restarts = c.restarts

/-- TIMER has counted one cycle down, and its line is pending as it reaches 0 (R280, R285). -/
def Core.timed (c d : Core) : Prop :=
  d.timer = c.timer - 1 ∧ d.irq = (if c.timer = 1 then c.irq ||| 32 else c.irq)

/-- The four flags as they stand in ST: Z of a value that is 0, N of a negative one, C and V (R280, R310). -/
def flagBits (v : Word) (carry ovf : Bool) : Nat :=
  (if v = 0 then 1 else 0) + (if v.toInt < 0 then 2 else 0) + (if carry then 4 else 0) + (if ovf then 8 else 0)

/-- Register k of the g file as an instruction of core `n` reads it: late writes that are due have landed (R281). -/
def State.faG (s : State) (n k : Nat) : Word := vecGet (s.core n).land.g k 0

/-- The address that pointer k holds as an instruction of core `n` reads it. -/
def State.faP (s : State) (n k : Nat) : Nat := (vecGet (s.core n).land.p k 0).toNat

/-- Accumulator k as a multiply at this place reads it, and as a store, move, shift or sum reads it (R281). -/
def State.faA (s : State) (n k : Nat) : Int := vecGet (s.core n).land.acc k 0
def State.faAOld (s : State) (n k : Nat) : Int := vecGet (s.core n).land.accOld k 0

/-- Writes that are seen from the third instruction on are under way (R281, R310), and sticky bits are set in ST at once
(R298); where none is set, the writes under way stay as they were. -/
def Core.wrote (c d : Core) (l : List LateEff) (sticky : Nat) : Prop :=
  d.st = c.st ||| sticky ∧ (sticky = 0 → d.late = c.late ++ l.map fun e => ⟨3, e⟩) ∧
    (∀ e ∈ l, (⟨3, e⟩ : Late) ∈ d.late) ∧ d.late.length = c.late.length + l.length

/-- An instruction has run on core `n`: what its g registers, accumulators and p registers hold then, the writes it put
under way, and the sticky bits it set. Registers m, l and b and the special registers stay (R281, R298). -/
def State.coreRan (s t : State) (n : Nat) (g : Vector Word 16) (acc : Vector Int 4) (p : Vector Word 8)
    (l : List LateEff) (sticky : Nat) : Prop :=
  let c := (s.core n).land
  let d := t.core n
  d.g = g ∧ d.acc = acc ∧ d.p = p ∧ d.m = c.m ∧ d.l = c.l ∧ d.b = c.b ∧ c.wrote d l sticky ∧ c.sameSpecials d ∧
    c.timed d ∧ c.wentOn d ∧ s.otherCores t n

/-- An instruction that writes register rd of core `n`, the flags given, and SV where it saturates, and nothing else. -/
def State.aluRan (s t : State) (n rd : Nat) (v : Word) (flags : Option (Nat × Nat)) (sat : Bool) : Prop :=
  s.coreRan t n (vecSet (s.core n).land.g rd v) (s.core n).land.acc (s.core n).land.p
    (match flags with | some f => [.flags f.1 f.2] | none => []) (if sat then 256 else 0) ∧ s.sameMemories t

/-- An instruction that writes accumulators of core `n` and AV bits, and nothing else. -/
def State.accRan (s t : State) (n : Nat) (acc : Vector Int 4) (av : Nat) : Prop :=
  s.coreRan t n (s.core n).land.g acc (s.core n).land.p [] av ∧ s.sameMemories t

/-- An instruction that only puts a late write under way. -/
def State.lateRan (s t : State) (n : Nat) (e : LateEff) : Prop :=
  s.coreRan t n (s.core n).land.g (s.core n).land.acc (s.core n).land.p [e] 0 ∧ s.sameMemories t

/-! ### Arithmetic as chapters 09 and 10 write it -/

/-- An integer outside the range of `w` signed bits. -/
def outside (w : Nat) (i : Int) : Bool := decide (i < -(2 ^ (w - 1))) || decide (2 ^ (w - 1) - 1 < i)

/-- sat_w: saturation to `w` signed bits. -/
def satTo (w : Nat) (i : Int) : Int := clampInt (-(2 ^ (w - 1))) (2 ^ (w - 1) - 1) i

/-- The I and Q halves of a complex sample, signed. -/
def partI (v : Word) : Int := (v.extractLsb' 0 16).toInt
def partQ (v : Word) : Int := (v.extractLsb' 16 16).toInt

/-- A complex sample of two halves. -/
def sampleOf (i q : Int) : Word := BitVec.ofInt 16 q ++ BitVec.ofInt 16 i

/-- An accumulator after an update to an integer: saturated, or its low 40 bits in modular mode (R297). -/
def accTo (modular : Bool) (i : Int) : Int := if modular then Int.bmod i (2 ^ 40) else satTo 40 i

/-- rs_w before saturation: rounding by half an LSB and an arithmetic shift right by k (R299). -/
def roundShift (v : Int) (k : Nat) : Int := (v + if k = 0 then 0 else 2 ^ (k - 1)) / 2 ^ k

end Sys2Proof.Machine
end

