-- ==== Sys2Proof/Certificates/Slice0/Obligations.lean ====
section
/-! DEFINITION. The statements for the provers. Each is about the machine, over all states and operands that meet its
hypotheses; each title and text stands in OBLIGATIONS.json. -/

open Sys2Proof Sys2Proof.Machine

/-- For every command c and state s, a step of s with c at the front of its queue is exec of c on s with the queue's
rest. The queue is the model's own (log entry 1). Convention of the model it rests on: log entry 1. -/
def Obligations.StepRunsTheFrontCommand : Prop :=
  ∀ (c : Instr) (s : State) (rest : List Instr), step { s with pending := c :: rest } = exec c { s with pending := rest }

/-- The model's choice (log entry 2): where no command waits, a step answers a next state in which one more tick has
passed; device time has risen by INC while the spine runs and stands otherwise; device state, memories, sessions'
roles, Faeror cores, lath, journal and the running command's registers outside settling stay. -/
def Obligations.IdleStepIsOneTick : Prop :=
  ∀ s : State, s.pending = [] → ∃ t, step s = .next t ∧ t.pending = [] ∧ t.drone.ticks = s.drone.ticks + 1 ∧
    (s.phase = .run → t.time.now = s.time.now + (s.getF Reg.incHi * 2 ^ 32 + s.getF Reg.incLo)) ∧
    (s.phase ≠ .run → t.time.now = s.time.now) ∧
    t.phase = s.phase ∧ t.dev = s.dev ∧ s.sameMemories t ∧ s.sameRoles t ∧ t.cores = s.cores ∧ t.lath = s.lath ∧
    t.journal = s.journal ∧ t.shadow = s.shadow ∧ t.hod = s.hod ∧ t.bridge = s.bridge

/-- For every command and state exec answers a next state, except: a strike on a word at or above the size of its memory
in 256-bit words (R476: registry 524,288, stencil 98,304, capture 131,072, spine 40,960, Faeror program 49,152,
Faeror data 98,304) always is the fault noSuchWord; and a port's write that starts an opcode 0xE0 to 0xFF in MAKER,
of which the spec says only that the range exists (R77), is the refusal makerCommand with that opcode. Where exec
answers a next state, the commands that wait behind it are those that waited before; the queue is the model's own
(log entry 1). -/
def Obligations.OnlyNamedStops : Prop :=
  ∀ (c : Instr) (s : State),
    ((∃ t, exec c s = .next t ∧ t.pending = s.pending) ∨
      (∃ (m : Fin 6) (w : BitVec 20) (e : List (Fin 68 × BitVec 4)), c = .particleStrike m w e ∧
        [524288, 98304, 131072, 40960, 49152, 98304].getD m.val 0 ≤ w.toNat ∧ exec c s = .fault .noSuchWord) ∨
      (∃ op, 0xE0 ≤ op ∧ op ≤ 0xFF ∧ s.dev = .maker ∧ s.flag Reg.cmdStatusRunning = false ∧
        exec c s = .refused (.makerCommand op))) ∧
    (∀ (m : Fin 6) (w : BitVec 20) (e : List (Fin 68 × BitVec 4)), c = .particleStrike m w e →
      [524288, 98304, 131072, 40960, 49152, 98304].getD m.val 0 ≤ w.toNat → exec c s = .fault .noSuchWord)

/-- State.reset is the block as power is applied: a power-up reset is under way, the state is BARE, no session is open,
no lath is loaded, no command runs or waits, every register field reads its reset value, the memories list nothing,
the journal holds nothing, and drains and mute switches are as the interlocks keep them. That no byte is listed, and
what the six memories hold before the hardware fill, is the model's choice (log entries 7 and 8). -/
def Obligations.ResetLeavesTheBlockQuiet : Prop :=
  State.reset.phase = .reset .powerUp ∧ State.reset.domainsReset ∧ State.reset.pending = [] ∧
    (∀ f : Fld, State.reset.getF f = f.rst) ∧ State.reset.memoriesLost ∧ State.reset.journal.next = 0 ∧
    (∀ m w, State.reset.wordMark m w = .clean) ∧ State.reset.quietOutside

/-- From every state, whichever command or tick comes: after a step a DRAIN_EN pin is high only with the spine running
and its analog half On, in SERVICE or in a wake into SERVICE that has reached its drain step (from Doze in a half
that was idled, or from Light Hold), and a mute switch is closed only in SERVICE, on a path that is ACTIVE, whose
MUTE is 0, and whose half's transmit synthesizer is LOCKED. The premise is not needed: the step itself establishes
the invariant from any state. Conventions of the model it rests on: log entries 38, 39. -/
def Obligations.AerialsStayQuietOutsideService : Prop :=
  (∀ s t : State, step s = .next t → t.quietOutside) ∧ (∀ s t : State, s.quietOutside → step s = .next t → t.quietOutside)

/-- When a core issues ADD, SUB or ADDI, exec answers a next state in which rd holds the sum or difference modulo 2^32;
CMP and CMPI write no register. Z, N, C (carry out of bit 31, or no borrow) and V (signed overflow) of the result
are under way and seen from i + 3. Every other register of the core, every other core and every memory stay; TIMER
counts one cycle and the next address follows. Conventions of the model it rests on: log entries 94, 95. -/
def Obligations.FaerorSumsAndCompares : Prop :=
  ∀ (n : Fin 24) (rd rs rt : Fin 16) (imm : BitVec 16) (s : State),
    let x := s.faG n rs
    let y := s.faG n rt
    let z := imm.signExtend 32
    let sum := fun a b : Word => some (15, flagBits (a + b) (decide (2 ^ 32 ≤ a.toNat + b.toNat)) (outside 32 (a.toInt + b.toInt)))
    let dif := fun a b : Word => some (15, flagBits (a - b) (decide (b.toNat ≤ a.toNat)) (outside 32 (a.toInt - b.toInt)))
    (s.issues n (.alu3 .add rd rs rt) → ∃ t, exec (.add n rd rs rt) s = .next t ∧ s.aluRan t n rd (x + y) (sum x y) false) ∧
    (s.issues n (.alu3 .sub rd rs rt) → ∃ t, exec (.sub n rd rs rt) s = .next t ∧ s.aluRan t n rd (x - y) (dif x y) false) ∧
    (s.issues n (.alui .addi rd rs imm) → ∃ t, exec (.addi n rd rs imm) s = .next t ∧ s.aluRan t n rd (x + z) (sum x z) false) ∧
    (s.issues n (.cmp rs rt) → ∃ t, exec (.cmp n rs rt) s = .next t ∧ s.sameMemories t ∧
      s.coreRan t n (s.core n).land.g (s.core n).land.acc (s.core n).land.p
        [.flags 15 (flagBits (x - y) (decide (y.toNat ≤ x.toNat)) (outside 32 (x.toInt - y.toInt)))] 0) ∧
    (s.issues n (.cmpi rs imm) → ∃ t, exec (.cmpi n rs imm) s = .next t ∧ s.sameMemories t ∧
      s.coreRan t n (s.core n).land.g (s.core n).land.acc (s.core n).land.p
        [.flags 15 (flagBits (x - z) (decide (z.toNat ≤ x.toNat)) (outside 32 (x.toInt - z.toInt)))] 0)

/-- When a core issues one of these, exec answers a next state in which rd holds the bitwise result; rs shifted by SH
(left, logical right, arithmetic right) or by rt[4:0] (left, arithmetic right); the signed minimum or maximum; rs;
or the sign-extended immediate (zero-extended for ANDI, ORI and XORI). Z and N of the result are under way. Nothing
else of the machine changes but TIMER, the cycle count and the next address. Conventions of the model it rests on:
log entries 94, 95. -/
def Obligations.FaerorLogicShiftsAndMoves : Prop :=
  ∀ (n : Fin 24) (rd rs rt : Fin 16) (sh : Fin 32) (imm : BitVec 16) (s : State),
    let x := s.faG n rs
    let y := s.faG n rt
    let z := imm.zeroExtend 32
    let ran := fun (i : FaInstr) (c : Instr) (v : Word) => s.issues n i →
      ∃ t, exec c s = .next t ∧ s.aluRan t n rd v (some (3, flagBits v false false)) false
    ran (.alu3 .and_ rd rs rt) (.and n rd rs rt) (x &&& y) ∧ ran (.alu3 .or_ rd rs rt) (.or n rd rs rt) (x ||| y) ∧
    ran (.alu3 .xor_ rd rs rt) (.xor n rd rs rt) (x ^^^ y) ∧
    ran (.alush .shl rd rs sh) (.shl n rd rs sh) (x <<< sh.val) ∧ ran (.alush .shr rd rs sh) (.shr n rd rs sh) (x >>> sh.val) ∧
    ran (.alush .sra rd rs sh) (.sra n rd rs sh) (x.sshiftRight sh.val) ∧
    ran (.alu3 .shlv rd rs rt) (.shlv n rd rs rt) (x <<< (y.toNat % 32)) ∧
    ran (.alu3 .srav rd rs rt) (.srav n rd rs rt) (x.sshiftRight (y.toNat % 32)) ∧
    ran (.alu3 .min rd rs rt) (.min n rd rs rt) (if x.toInt ≤ y.toInt then x else y) ∧
    ran (.alu3 .max rd rs rt) (.max n rd rs rt) (if x.toInt ≤ y.toInt then y else x) ∧
    ran (.alu2 .mov rd rs) (.mov n rd rs) x ∧ ran (.movi rd imm) (.movi n rd imm) (imm.signExtend 32) ∧
    ran (.alui .andi rd rs imm) (.andi n rd rs imm) (x &&& z) ∧ ran (.alui .ori rd rs imm) (.ori n rd rs imm) (x ||| z) ∧
    ran (.alui .xori rd rs imm) (.xori n rd rs imm) (x ^^^ z)

/-- When a core issues ADDS, SUBS, ABS or NEG, exec answers a next state in which rd holds sat_32 of the exact sum,
difference, magnitude or negation; Z and N of the result and V, 1 exactly where the exact value lay outside 32
signed bits, are under way with C left alone; SV is set at once exactly where it saturated. Nothing else changes but
TIMER, the cycle count and the next address. Conventions of the model it rests on: log entries 94, 96. -/
def Obligations.FaerorSaturatingArithmetic : Prop :=
  ∀ (n : Fin 24) (rd rs rt : Fin 16) (s : State),
    let x := s.faG n rs
    let y := s.faG n rt
    let ran := fun (i : FaInstr) (c : Instr) (e : Int) => s.issues n i →
      ∃ t, exec c s = .next t ∧ s.aluRan t n rd (BitVec.ofInt 32 (satTo 32 e))
        (some (11, flagBits (BitVec.ofInt 32 (satTo 32 e)) false (outside 32 e))) (outside 32 e)
    ran (.alu3 .adds rd rs rt) (.adds n rd rs rt) (x.toInt + y.toInt) ∧
    ran (.alu3 .subs rd rs rt) (.subs n rd rs rt) (x.toInt - y.toInt) ∧
    ran (.alu2 .abs rd rs) (.abs n rd rs) (if x.toInt < 0 then -x.toInt else x.toInt) ∧
    ran (.alu2 .neg rd rs) (.neg n rd rs) (-x.toInt)

/-- When a core issues CADD, CSUB or CONJ, exec answers a next state in which each half of rd holds sat_16 of the sum,
difference or conjugate of the halves, and SV is set exactly where a half saturated; CSWAP exchanges the halves and
MOVHI writes the high half and keeps the low one. No flag is written and nothing else changes but TIMER, the cycle
count and the next address. Convention of the model it rests on: log entry 94. -/
def Obligations.FaerorComplexAlu : Prop :=
  ∀ (n : Fin 24) (rd rs rt : Fin 16) (imm : BitVec 16) (s : State),
    let x := s.faG n rs
    let y := s.faG n rt
    let ran := fun (i : FaInstr) (c : Instr) (v : Word) (sat : Bool) => s.issues n i →
      ∃ t, exec c s = .next t ∧ s.aluRan t n rd v none sat
    let cplx := fun (i : FaInstr) (c : Instr) (a b : Int) =>
      ran i c (sampleOf (satTo 16 a) (satTo 16 b)) (outside 16 a || outside 16 b)
    cplx (.alu3 .cadd rd rs rt) (.cadd n rd rs rt) (partI x + partI y) (partQ x + partQ y) ∧
    cplx (.alu3 .csub rd rs rt) (.csub n rd rs rt) (partI x - partI y) (partQ x - partQ y) ∧
    cplx (.alu2 .conj rd rs) (.conj n rd rs) (partI x) (-partQ x) ∧
    ran (.alu2 .cswap rd rs) (.cswap n rd rs) (sampleOf (partQ x) (partI x)) false ∧
    ran (.movhi rd imm) (.movhi n rd imm) (imm ++ (s.faG n rd).extractLsb' 0 16) false

/-- When a core issues LDW or LDH at an aligned address below 0x2_0000 whose 256-bit word is clean, exec answers a next
state in which the 32-bit, or sign-extended 16-bit, little-endian value is under way to g and seen from i + 3; LDD
does so through two pointers. A pointer whose post-modify is named moves by the offset, modulo 2^32 where its l
register is 0 and else circularly in its buffer; nothing else but TIMER, the cycle count and the next address
changes, and no memory does. Conventions of the model it rests on: log entries 94, 95. -/
def Obligations.FaerorLoadsAndPostModify : Prop :=
  ∀ (n : Fin 24) (g ga gb : Fin 16) (p pa pb : Fin 8) (pm : PostMod) (ma mb : Option (Fin 8)) (s : State),
    let c := (s.core n).land
    let word := fun (a size : Nat) => ofLe ((List.range size).map fun i => (s.mem .faData).byte (131072 * n + a + i))
    let good := fun (a size : Nat) => a % size = 0 ∧ a < 131072 ∧ s.wordMark .faData (4096 * n + a / 32) = .clean
    let moved := fun (q : Vector Word 8) (k : Nat) (off : Int) =>
      let v : Int := (vecGet q k 0).toNat
      let len : Nat := min ((vecGet c.l k 0).toNat % 2 ^ 18) 131072
      let base : Nat := (vecGet c.b k 0).toNat % 2 ^ 17
      vecSet q k (BitVec.ofInt 32 (if len = 0 then v + off else (base : Int) + (v - base + off) % (len : Int)))
    let post := match pm with
      | .none => c.p
      | .imm off => moved c.p p off.toInt
      | .reg m => moved c.p p (vecGet c.m m.val 0).toInt
    let byM := fun (q : Vector Word 8) (k : Nat) (m : Option (Fin 8)) => match m with
      | none => q
      | some m => moved q k (vecGet c.m m.val 0).toInt
    (s.issues n (.mem .ldw g p pm) → good (s.faP n p) 4 → ∃ t, exec (.ldw n g p pm) s = .next t ∧ s.sameMemories t ∧
      s.coreRan t n c.g c.acc post [.load g (BitVec.ofNat 32 (word (s.faP n p) 4))] 0) ∧
    (s.issues n (.mem .ldh g p pm) → good (s.faP n p) 2 → ∃ t, exec (.ldh n g p pm) s = .next t ∧ s.sameMemories t ∧
      s.coreRan t n c.g c.acc post [.load g ((BitVec.ofNat 16 (word (s.faP n p) 2)).signExtend 32)] 0) ∧
    (s.issues n (.ldd ga gb pa pb ma mb) → good (s.faP n pa) 4 → good (s.faP n pb) 4 → c.inFlight = [] →
      ∃ t, exec (.ldd n ga gb pa pb ma mb) s = .next t ∧ s.sameMemories t ∧
        s.coreRan t n c.g c.acc (byM (byM c.p pa ma) pb mb)
          [.load ga (BitVec.ofNat 32 (word (s.faP n pa) 4)), .load gb (BitVec.ofNat 32 (word (s.faP n pb) 4))] 0)

/-- When a core issues a store at an aligned address below the kick words of its data memory, exec answers a next state
in which the stored bytes are g (STW), sat_16 of g (STH), the combined accumulators rounded by K (STAC) or one
accumulator rounded to 16 bits (STAH), little-endian from that address; every other byte of that memory and every
other memory reads as before, and SV is set exactly where the value saturated. WZERO writes zeros into the 32 bytes
of the word that holds p and makes that word clean. g, accumulators and every other core stay. Convention of the
model it rests on: log entry 94. -/
def Obligations.FaerorStores : Prop :=
  ∀ (n : Fin 24) (g : Fin 16) (p : Fin 8) (pm : PostMod) (om : Option (Fin 8)) (acc : Fin 4) (k : Fin 32) (s : State),
    let c := (s.core n).land
    let a := s.faP n p
    let re := roundShift (s.faAOld n 0 - s.faAOld n 1) k
    let im := roundShift (s.faAOld n 2 + s.faAOld n 3) k
    let half := roundShift (s.faAOld n acc) k
    let stored := fun (i : FaInstr) (cmd : Instr) (size v : Nat) (sat : Bool) =>
      s.issues n i → a % size = 0 → a < 0x1FFE0 → ∃ t, exec cmd s = .next t ∧
        (∀ b, (t.mem .faData).byte b = if 131072 * n + a ≤ b ∧ b < 131072 * n + a + size then
          BitVec.ofNat 8 (v / 2 ^ (8 * (b - (131072 * n + a)))) else (s.mem .faData).byte b) ∧
        (∀ m, m ≠ .faData → t.mem m = s.mem m) ∧ (t.core n).g = c.g ∧ (t.core n).acc = c.acc ∧
        (t.core n).st = c.st ||| (if sat then 256 else 0) ∧ s.otherCores t n
    stored (.mem .stw g p pm) (.stw n g p pm) 4 (s.faG n g).toNat false ∧
    stored (.mem .sth g p pm) (.sth n g p pm) 2 (BitVec.ofInt 16 (satTo 16 (s.faG n g).toInt)).toNat
      (outside 16 (s.faG n g).toInt) ∧
    stored (.stac p om k) (.stac n p om k) 4 (sampleOf (satTo 16 re) (satTo 16 im)).toNat (outside 16 re || outside 16 im) ∧
    stored (.stah p om acc k) (.stah n p om acc k) 2 (BitVec.ofInt 16 (satTo 16 half)).toNat (outside 16 half) ∧
    (s.issues n (.wzero p pm) → a < 131072 → ∃ t, exec (.wzero n p pm) s = .next t ∧
      (∀ b, (t.mem .faData).byte b = if (131072 * n + a) / 32 = b / 32 then 0 else (s.mem .faData).byte b) ∧
      t.wordMark .faData (4096 * n + a / 32) = .clean ∧ (∀ m, m ≠ .faData → t.mem m = s.mem m) ∧
      (t.core n).g = c.g ∧ (t.core n).acc = c.acc ∧ s.otherCores t n)

/-- When a core issues CMAC, CMACJ, CMSU or CMSUJ, exec answers a next state in which a0 to a3 have gained the products
xI yI, xQ yQ, xI yQ and xQ yI with the signs of the variant; CMUL and CMULJ write them; RMAC, RMSU and RMUL do so
with the product of two halves in one accumulator. A sum outside 40 signed bits saturates, or keeps its low 40 bits
where MODE says modular, and sets its AV bit. No g register, pointer or memory changes. The multiplies with dual
load do the same and put both loads under way. Conventions of the model it rests on: log entries 94, 95. -/
def Obligations.FaerorComplexMultiplies : Prop :=
  ∀ (n : Fin 24) (gx gy : Fin 16) (acc : Fin 4) (hx hy : Bool) (px py mx my : Fin 8) (s : State),
    let c := (s.core n).land
    let x := s.faG n gx
    let y := s.faG n gy
    let half := fun (v : Word) (q : Bool) => if q then partQ v else partI v
    let part := fun (q conj : Bool) (k : Nat) =>
      (if q then (-1 : Int) else 1) * (if conj then (-1 : Int) else 1) *
        (match k with | 0 => partI x * partI y | 1 => partQ x * partQ y | 2 => partI x * partQ y | _ => partQ x * partI y)
    let prod := fun (neg conj : Bool) (k : Nat) => part neg (conj && (k == 1 || k == 2)) k
    let sums := fun (neg conj : Bool) => Vector.ofFn fun k : Fin 4 =>
      accTo (testBit c.mode k) (s.faA n k + prod neg conj k)
    let av := fun (neg conj : Bool) => ((List.range 4).filter fun k => outside 40 (s.faA n k + prod neg conj k)).foldl
      (fun m k => m + 2 ^ (4 + k)) 0
    let one := fun (v : Int) => vecSet c.acc acc (accTo (testBit c.mode acc) v)
    let ones := fun (v : Int) => if outside 40 v then 2 ^ (4 + acc.val) else 0
    let p := half x hx * half y hy
    let word := fun a => BitVec.ofNat 32 (ofLe ((List.range 4).map fun i => (s.mem .faData).byte (131072 * n + a + i)))
    let good := fun a => a % 4 = 0 ∧ a < 131072 ∧ s.wordMark .faData (4096 * n + a / 32) = .clean
    let mac := fun (i : FaInstr) (cmd : Instr) (neg conj : Bool) =>
      s.issues n i → ∃ t, exec cmd s = .next t ∧ s.accRan t n (sums neg conj) (av neg conj)
    let put := fun (i : FaInstr) (cmd : Instr) (conj : Bool) =>
      s.issues n i → ∃ t, exec cmd s = .next t ∧ s.accRan t n (Vector.ofFn fun k : Fin 4 => prod false conj k) 0
    let load := fun (i : FaInstr) (cmd : Instr) (neg conj : Bool) =>
      s.issues n i → good (s.faP n px) → good (s.faP n py) → c.inFlight = [] → ∃ t, exec cmd s = .next t ∧
        (t.core n).acc = sums neg conj ∧ (t.core n).g = c.g ∧ (t.core n).st = c.st ||| av neg conj ∧
        (⟨3, .load gx (word (s.faP n px))⟩ : Late) ∈ (t.core n).late ∧ (⟨3, .load gy (word (s.faP n py))⟩ : Late) ∈ (t.core n).late ∧
        s.otherCores t n ∧ s.sameMemories t
    mac (.cmul .cmac gx gy) (.cmac n gx gy) false false ∧ mac (.cmul .cmacj gx gy) (.cmacj n gx gy) false true ∧
    mac (.cmul .cmsu gx gy) (.cmsu n gx gy) true false ∧ mac (.cmul .cmsuj gx gy) (.cmsuj n gx gy) true true ∧
    put (.cmul .cmul gx gy) (.cmul n gx gy) false ∧ put (.cmul .cmulj gx gy) (.cmulj n gx gy) true ∧
    (s.issues n (.rmul .rmac gx gy acc hx hy) → ∃ t, exec (.rmac n gx gy acc hx hy) s = .next t ∧
      s.accRan t n (one (s.faA n acc + p)) (ones (s.faA n acc + p))) ∧
    (s.issues n (.rmul .rmsu gx gy acc hx hy) → ∃ t, exec (.rmsu n gx gy acc hx hy) s = .next t ∧
      s.accRan t n (one (s.faA n acc - p)) (ones (s.faA n acc - p))) ∧
    (s.issues n (.rmul .rmul gx gy acc hx hy) → ∃ t, exec (.rmul n gx gy acc hx hy) s = .next t ∧
      s.accRan t n (vecSet c.acc acc p) 0) ∧
    load (.cmulld .cmacld gx gy px py mx my) (.cmacld n gx gy px py mx my) false false ∧
    load (.cmulld .cmacjld gx gy px py mx my) (.cmacjld n gx gy px py mx my) false true ∧
    load (.cmulld .cmsuld gx gy px py mx my) (.cmsuld n gx gy px py mx my) true false ∧
    load (.cmulld .cmsujld gx gy px py mx my) (.cmsujld n gx gy px py mx my) true true

/-- When a core issues one of these, exec answers a next state in which CLRA has cleared the accumulators of its mask
and no AV bit; MVGA and ACOPY have written one accumulator with the sign-extended g or with another accumulator;
AADD and ASUB hold the sum or difference to 40 bits with AV; MVAG and CMBG have written g with one accumulator
rounded to 32 bits, or with a0 - a1 and a2 + a3 rounded to 16 bits each, and SV where it saturated. Sums and reads
take the accumulators as the instruction before left them to a reader at i + 2. No memory changes. Conventions of
the model it rests on: log entries 94, 95. -/
def Obligations.FaerorAccumulatorMoves : Prop :=
  ∀ (n : Fin 24) (g : Fin 16) (acc acc2 : Fin 4) (k : Fin 32) (mask : BitVec 4) (s : State),
    let c := (s.core n).land
    let old := s.faAOld n
    let r := roundShift (old acc) k
    let re := roundShift (old 0 - old 1) k
    let im := roundShift (old 2 + old 3) k
    let sum := fun (i : FaInstr) (cmd : Instr) (v : Int) => s.issues n i → ∃ t, exec cmd s = .next t ∧
      s.accRan t n (vecSet c.acc acc (accTo (testBit c.mode acc) v)) (if outside 40 v then 2 ^ (4 + acc.val) else 0)
    (s.issues n (.clra mask) → ∃ t, exec (.clra n mask) s = .next t ∧
      s.accRan t n (Vector.ofFn fun j : Fin 4 => if mask.getLsbD j then 0 else s.faA n j) 0) ∧
    (s.issues n (.mvga g acc) → ∃ t, exec (.mvga n g acc) s = .next t ∧ s.accRan t n (vecSet c.acc acc (s.faG n g).toInt) 0) ∧
    (s.issues n (.acopy acc acc2) → ∃ t, exec (.acopy n acc acc2) s = .next t ∧ s.accRan t n (vecSet c.acc acc (old acc2)) 0) ∧
    sum (.asum .aadd acc acc2) (.aadd n acc acc2) (old acc + old acc2) ∧
    sum (.asum .asub acc acc2) (.asub n acc acc2) (old acc - old acc2) ∧
    (s.issues n (.mvag g acc k) → ∃ t, exec (.mvag n g acc k) s = .next t ∧
      s.aluRan t n g (BitVec.ofInt 32 (satTo 32 r)) none (outside 32 r)) ∧
    (s.issues n (.cmbg g k) → ∃ t, exec (.cmbg n g k) s = .next t ∧
      s.aluRan t n g (sampleOf (satTo 16 re) (satTo 16 im)) none (outside 16 re || outside 16 im))

/-- When a core issues MVTP, MVTM, MVTL or MVTB, or LIP, LIM, LIL or LIB, exec answers a next state in which the value,
cut to the register's width (LIM sign-extended, LIL at most 131,072), is under way to that register and seen by
address generation from i + 3; MVFP, MVFM, MVFL and MVFB write g with the register's value, the last move into it
counting at once. Nothing else changes. Conventions of the model it rests on: log entries 94, 95. -/
def Obligations.FaerorRegisterMoves : Prop :=
  ∀ (n : Fin 24) (g : Fin 16) (k : Fin 8) (imm : BitVec 21) (s : State),
    let c := (s.core n).land
    let v := s.faG n g
    let late := fun (i : FaInstr) (cmd : Instr) (file : Nat) (w : Word) => s.issues n i →
      ∃ t, exec cmd s = .next t ∧ s.lateRan t n (.addr file k w)
    let shown := fun (file : Nat) (r : Word) => c.late.foldl
      (fun r x => match x.eff with | .addr f j w => if f = file ∧ j = k.val then w else r | _ => r) r
    let read := fun (i : FaInstr) (cmd : Instr) (file : Nat) (r : Word) => s.issues n i →
      ∃ t, exec cmd s = .next t ∧ s.aluRan t n g (shown file r) none false
    late (.mvt .p g k) (.mvtp n g k) 0 v ∧ late (.mvt .m g k) (.mvtm n g k) 1 v ∧
    late (.mvt .l g k) (.mvtl n g k) 2 (v &&& 0x3FFFF) ∧ late (.mvt .b g k) (.mvtb n g k) 3 (v &&& 0x1FFFF) ∧
    late (.li .p k imm) (.lip n k imm) 0 (imm.zeroExtend 32) ∧ late (.li .m k imm) (.lim n k imm) 1 (imm.signExtend 32) ∧
    late (.li .l k imm) (.lil n k imm) 2 (if 131072 < imm.toNat then 131072 else imm.zeroExtend 32) ∧
    late (.li .b k imm) (.lib n k imm) 3 (imm.zeroExtend 32 &&& 0x1FFFF) ∧
    read (.mvf .p g k) (.mvfp n g k) 0 (vecGet c.p k 0) ∧ read (.mvf .m g k) (.mvfm n g k) 1 (vecGet c.m k 0) ∧
    read (.mvf .l g k) (.mvfl n g k) 2 (vecGet c.l k 0) ∧ read (.mvf .b g k) (.mvfb n g k) 3 (vecGet c.b k 0)

/-- When a core issues MVFS, exec answers a next state in which g holds the special register of the index, in the order
ST, MODE, VBASE, IRET, IST, IEN, CLASS, TIMER, DBELL, START. MVTS puts the value under way to MODE, VBASE, IEN or
CLASS, and to ST with the AV bits that the instruction before set kept; IRET (14 bits) and IST are written at once
and TIMER holds the value; DBELL and START stay. No g register changes under MVTS, no memory under either.
Conventions of the model it rests on: log entries 94, 95, 96, 156. -/
def Obligations.FaerorSpecialRegisters : Prop :=
  ∀ (n : Fin 24) (g : Fin 16) (k : Fin 10) (s : State),
    let c := (s.core n).land
    let v := s.faG n g
    (s.issues n (.mvfs g k) → ∃ t, exec (.mvfs n g k) s = .next t ∧ s.sameMemories t ∧ s.otherCores t n ∧
      (t.core n).g = vecSet c.g g (BitVec.ofNat 32 ([c.st, c.mode, c.vbase, c.iret, c.ist, c.ien, c.cls, c.timer - 1,
        c.dbell.toNat, c.start].getD k 0))) ∧
    (s.issues n (.mvts g k) → ∃ t, exec (.mvts n g k) s = .next t ∧ s.sameMemories t ∧ s.otherCores t n ∧
      (t.core n).g = c.g ∧ (t.core n).acc = c.acc ∧ (t.core n).p = c.p ∧ (t.core n).st = c.st ∧
      (t.core n).iret = (if k.val = 3 then v.toNat % 16384 else c.iret) ∧
      (t.core n).ist = (if k.val = 4 then v.toNat else c.ist) ∧
      (t.core n).timer = (if k.val = 7 then v.toNat else c.timer - 1) ∧ (t.core n).dbell = c.dbell ∧
      (t.core n).late = c.late ++ (if k.val = 0 then [⟨3, .status (some v) c.lastAv⟩]
        else if k.val = 1 ∨ k.val = 2 ∨ k.val = 5 ∨ k.val = 6 then [⟨3, .spec k v⟩] else []))

/-- When a core issues B, BC, CALL, RET or RETI outside delay slots, exec answers a next state in which the next address
follows and a branch to its target (for BC the target where COND holds of ST, else the address after the slots; for
RET g15; for RETI IRET, with ST := IST under way) waits two slots; CALL writes g15 with the address of i + 3. REPEAT
with COUNT above 0 opens its body, with COUNT 0 skips it. NOP does nothing, WAIT leaves the core WAITING, SIG makes
line 6 of a core it may signal pending, and HALT halts with cause HALT, its address and EV_64. No memory changes.
Conventions of the model it rests on: log entries 94, 95, 97. -/
def Obligations.FaerorControlFlow : Prop :=
  ∀ (n : Fin 24) (cond : Fin 13) (tg : BitVec 14) (m : Fin 1024) (count : RepCount) (s : State),
    let c := (s.core n).land
    let z := testBit c.st 0
    let neg := testBit c.st 1
    let cy := testBit c.st 2
    let v := testBit c.st 3
    let taken := [z, !z, neg != v, neg == v, !z && neg == v, z || neg != v, cy, !cy, neg, !neg, v, !v, true].getD cond false
    let times := match count with | .imm k => k.toNat | .reg r => (s.faG n r).toNat % 65536
    let ran := fun (i : FaInstr) (cmd : Instr) (q : Core → State → Prop) => s.issues n i → c.branch = none → c.loops = [] →
      ∃ t, exec cmd s = .next t ∧ s.sameMemories t ∧ q (t.core n) t
    let goes := fun (d : Core) (t : State) (target : Option Nat) =>
      d.branch = some ⟨2, target⟩ ∧ d.pc = (c.pc + 1) % 16384 ∧ d.acc = c.acc ∧ d.p = c.p ∧ s.otherCores t n
    ran (.b tg) (.b n tg) (fun d t => goes d t (some tg.toNat) ∧ d.g = c.g) ∧
    ran (.bc cond tg) (.bc n cond tg) (fun d t => goes d t (some (if taken then tg.toNat else (c.pc + 3) % 16384)) ∧ d.g = c.g) ∧
    ran (.call tg) (.call n tg) (fun d t => goes d t (some tg.toNat) ∧ d.g = vecSet c.g 15 (BitVec.ofNat 32 ((c.pc + 3) % 16384))) ∧
    ran .ret (.ret n) (fun d t => goes d t (some ((s.faG n 15).toNat % 16384)) ∧ d.g = c.g) ∧
    ran .reti (.reti n) (fun d t => goes d t none ∧ d.g = c.g ∧ d.late = c.late ++ [⟨3, .status none 0⟩]) ∧
    ran (.rep m count) (.repeatBlock n m count) (fun d t => s.otherCores t n ∧ d.g = c.g ∧
      if times = 0 then d.pc = (c.pc + m.val + 2) % 16384 ∧ d.loops = []
      else d.pc = (c.pc + 1) % 16384 ∧ d.loops = [⟨(c.pc + 1) % 16384, (c.pc + m.val + 1) % 16384, times⟩]) ∧
    ran .nop (.nop n) (fun _ t => s.coreRan t n c.g c.acc c.p [] 0) ∧
    ran .wait (.wait n) (fun d t => d.run = .waiting ∧ d.pc = (c.pc + 1) % 16384 ∧ d.g = c.g ∧ s.otherCores t n) ∧
    ran (.sig tg) (.sig n tg) (fun d t => d.g = c.g ∧ d.pc = (c.pc + 1) % 16384 ∧
      (tg.toNat % 32 < 24 → tg.toNat % 32 ≠ n → c.operator = false ∨ (s.core (tg.toNat % 32)).operator = true →
        t.core (tg.toNat % 32) = { s.core (tg.toNat % 32) with irq := (s.core (tg.toNat % 32)).irq ||| 64 })) ∧
    ran .halt (.halt n) (fun d t => d.run = .halted ∧ d.cause = 1 ∧ d.haltPc = c.pc ∧ s.otherCores t n ∧
      testBit (t.getF (Reg.evStatus 2)) 0 = true)

/-- When a core issues LDW or STW at an address that is not a multiple of 4 it halts with cause ALIGN (5), and at an
aligned address of 0x2_0000 or above with cause RANGE (6), and HALT_ADDR holds the low 17 bits of the address; a
load of a word that reads poisoned halts it with cause POISON (3) and raises EV_66; a word that spells no
instruction halts it with cause ILLEGAL (7). The cycle of the halt is charged, and the class has cycles left after
it. EV_64 is raised and no byte of memory changes. Conventions of the model it rests on: log entries 94, 100. -/
def Obligations.FaerorTrapsHaltTheCore : Prop :=
  ∀ (n : Fin 24) (g : Fin 16) (p : Fin 8) (pm : PostMod) (s : State),
    let a := s.faP n p
    let halted := fun (t : State) (cause : Nat) => (t.core n).run = .halted ∧ (t.core n).cause = cause ∧
      testBit (t.getF (Reg.evStatus 2)) 0 = true ∧ (∀ k, k ≠ n.val → t.core k = s.core k) ∧ ∀ m b, (t.mem m).byte b = (s.mem m).byte b
    let trap := fun (cmd : Instr) (cause : Nat) => ∃ t, exec cmd s = .next t ∧ halted t cause ∧ (t.core n).haltAddr = a % 131072
    (s.issues n (.mem .ldw g p pm) → a % 4 ≠ 0 → trap (.ldw n g p pm) 5) ∧
    (s.issues n (.mem .ldw g p pm) → a % 4 = 0 → 131072 ≤ a → trap (.ldw n g p pm) 6) ∧
    (s.issues n (.mem .ldw g p pm) → a % 4 = 0 → a < 131072 → s.wordMark .faData (4096 * n + a / 32) = .poisoned →
      ∃ t, exec (.ldw n g p pm) s = .next t ∧ halted t 3 ∧ testBit (t.getF (Reg.evStatus 2)) 2 = true) ∧
    (s.issues n (.mem .stw g p pm) → a % 4 ≠ 0 → trap (.stw n g p pm) 5) ∧
    (s.issues n (.mem .stw g p pm) → a % 4 = 0 → 131072 ≤ a → trap (.stw n g p pm) 6) ∧
    (s.faReady n = true → s.roomAfter n 1 → s.wordMark .faProg (2048 * n + (s.core n).pc / 8) = .clean →
      faDecode (s.faWord n (s.core n).pc) = none →
      ∃ t, exec (.illegalInstruction n) s = .next t ∧ halted t 7)

/-- FA_INTERRUPT_ENTRY on a running core with cycles left, with IE set, that does not hold interrupts off and whose
lowest pending and enabled line is k answers a next state in which IRET holds the address of the next instruction,
IST the status, IE is clear, line k is no longer pending (but for the timer line where the entry's own cycle ends
TIMER), and the pc is VBASE + 8 k. WAIT_END on a WAITING core with such a line, whose class has cycles, leaves it
running: at its handler where IE is set, and where it is not at its next address with nothing else of it changed,
the writes under way in their slots. FA_TIMER_EXPIRY of a timer that counts sets TIMER to 0 and makes line 5
pending. In these the class has cycles left after them, and other cores and memories stay. A NOP that takes the last
cycle of its class completes and leaves it and every other running core of the class STALLED. Conventions of the
model it rests on: log entries 98, 101. -/
def Obligations.FaerorInterruptsAndTimer : Prop :=
  ∀ (n : Fin 24) (k : Nat) (s : State),
    let c := s.core n
    let d := c.landAll
    let handler := fun e : Core => e.iret = d.pc ∧ e.ist = d.st ∧ testBit e.st 9 = false ∧
      e.pc = (d.vbase + 8 * k) % 16384 ∧ (k = 5 ∧ d.timer = 1 ∨ testBit e.irq k = false) ∧ e.g = d.g ∧ e.run = .running
    let line := fun e : Core => (List.range 8).find? (fun j => testBit e.irq j && testBit e.ien j) = some k
    (s.mayCycle n d.cls = true → testBit c.st 9 = true → c.holdsOff = false → (s.charge d.cls 1 1).mayUse d.cls 1 = true →
      line c → ∃ t, exec (.faInterruptEntry n) s = .next t ∧ handler (t.core n) ∧ s.otherCores t n ∧ s.sameMemories t) ∧
    (s.phase = .run → s.domain .faeror = .on → c.run = .waiting → d.inFret < coreFretCycles → s.mayUse d.cls 1 = true →
      (s.charge d.cls 1 1).mayUse d.cls 1 = true → testBit d.st 9 = true → line d → ∃ t, exec (.waitEnd n) s = .next t ∧
      handler (t.core n) ∧ s.otherCores t n ∧ s.sameMemories t) ∧
    (s.phase = .run → s.domain .faeror = .on → c.run = .waiting → s.mayUse c.cls 1 = true → testBit d.st 9 = false →
      line d → ∃ t, exec (.waitEnd n) s = .next t ∧ t.core n = { c with run := .running } ∧ s.otherCores t n ∧
      s.sameMemories t) ∧
    (s.phase = .run → s.domain .faeror = .on → c.timer ≠ 0 → ∃ t, exec (.faTimerExpiry n) s = .next t ∧
      (t.core n).timer = 0 ∧ (t.core n).irq = c.irq ||| 32 ∧ (t.core n).g = c.g ∧ (t.core n).pc = c.pc ∧
      s.otherCores t n ∧ s.sameMemories t) ∧
    (s.mayIssue n .nop → ¬ s.roomAfter n 1 → c.land.cls = c.cls → ∃ t, exec (.nop n) s = .next t ∧ s.sameMemories t ∧
      (t.core n).g = c.land.g ∧ ∀ j, j < 24 → (s.core j).run = .running → (s.core j).cls = c.cls → (t.core j).run = .stalled)

/-- For every Faeror instruction, with every operand at every value its field admits, the 32-bit word that spells it
decodes to it, and no other word does: a word whose unused or reserved fields are not 0, or whose codes are
undefined, spells no instruction. -/
def Obligations.FaerorEncodingRoundTrip : Prop :=
  (∀ i : FaInstr, faEncode i < 2 ^ 32 ∧ faDecode (faEncode i) = some i) ∧
    ∀ (w : Nat) (i : FaInstr), w < 2 ^ 32 → faDecode w = some i → w = faEncode i

/-- Words put together from the field tables of R307 decode to the instructions they stand for, one of each of nine
classes, and three words with an undefined code or a reserved field that is not 0 decode to none. A sanity
statement. -/
def Obligations.FaerorWordsSpellTheirInstructions : Prop :=
  faDecode 0x02000123 = some (.b 0x123) ∧ faDecode 0x03D00123 = none ∧ faDecode 0x20048C00 = some (.alu3 .add 1 2 3) ∧
    faDecode 0x3112FFFE = some (.alui .andi 1 2 0xFFFE) ∧ faDecode 0x42460000 = some (.mem .stw 4 3 .none) ∧
    faDecode 0x66123000 = some (.rmul .rmac 1 2 0 true true) ∧ faDecode 0x81500340 = some (.mvag 5 1 3) ∧
    faDecode 0x984A0000 = none ∧ faDecode 0x99490000 = some (.mvfs 4 9) ∧ faDecode 0x10060005 = some (.rep 3 (.imm 5)) ∧
    faDecode 0xF0000000 = none

/-- For every command of the host ports' tables: while CMD_CLAIM.OWNER names the other port, the spine runs and none of
the port's accesses waits, writing its opcode leaves the running command, CMD_STATUS and the argument block as they
are, and the access log holds space address 0x40, the port, a write and cause CLAIMED (5), with one more access
counted. Nothing else changes. -/
def Obligations.ClaimKeepsTheOtherPortOut : Prop :=
  ∀ (row : HostRow) (p : Port) (s : State),
    (row ∈ hostRows ∧ s.spineRuns = true ∧ (∀ q ∈ s.hostQueue, q.port ≠ p) ∧ s.getF Reg.cmdClaimOwner = 2 - portCode
        p ∧ s.jobWaits →
      ∃ t, exec (row.cmd p) s = .next t ∧ s.sameCommand t ∧ t.getF Reg.accessLogAddr = 0x40 ∧ t.getF
        Reg.accessLogInfoCause = 5 ∧ t.getF Reg.accessLogInfoPort = portCode p ∧ t.getF Reg.accessLogInfoWrite =
        1 ∧ t.getF Reg.accessLogInfoCount = min (s.getF Reg.accessLogInfoCount + 1) 65535 ∧ s.onlyRegs t
        [Reg.accessLogAddr, Reg.accessLogInfoCause, Reg.accessLogInfoPort, Reg.accessLogInfoWrite,
        Reg.accessLogInfoCount])

/-- For every command of the host ports' tables: while RUNNING is 1, the other port holds no claim and none of the
port's accesses waits, writing its opcode leaves the running command, CMD_STATUS and the argument block as they are
and adds 1 to the writing port's count in CMD_BOUNCE, which stops at 65,535; the other port's count and everything
else stay. -/
def Obligations.ARunningCommandBouncesTheNext : Prop :=
  ∀ (row : HostRow) (p : Port) (s : State),
    (row ∈ hostRows ∧ s.spineRuns = true ∧ (∀ q ∈ s.hostQueue, q.port ≠ p) ∧ s.getF Reg.cmdClaimOwner ≠ 2 - portCode
        p ∧ s.getF Reg.cmdStatusRunning = 1 ∧ s.jobWaits →
      ∃ t, exec (row.cmd p) s = .next t ∧ s.sameCommand t ∧ (p = .pcie → t.getF Reg.cmdBouncePcie = min (s.getF
        Reg.cmdBouncePcie + 1) 65535 ∧ s.onlyRegs t [Reg.cmdBouncePcie]) ∧ (p = .qspi → t.getF Reg.cmdBounceQspi
        = min (s.getF Reg.cmdBounceQspi + 1) 65535 ∧ s.onlyRegs t [Reg.cmdBounceQspi]))

/-- For every command of the host ports' tables and every state that its row does not list: the command, issued by a
port that may issue one, ends with STATE_REJECT, word 0 holds the code of the present state, EV_1 stands, and no
register outside the report, no memory, role, device state or engine changes. -/
def Obligations.StateRejectHasNoOtherEffect : Prop :=
  ∀ (row : HostRow) (p : Port) (s : State),
    (row ∈ hostRows ∧ s.ready p ∧ s.dev ∉ row.legal →
      ∃ t, exec (row.cmd p) s = .next t ∧ s.ended t p row.opcode 2 ∧ t.getF (Reg.arg 0) = s.dev.code ∧ t.event 1
        ∧ s.onlyRegs t [] ∧ t.fuses = s.fuses ∧ t.doze = s.doze ∧ t.bridge = s.bridge ∧ t.shadow = s.shadow ∧
        t.drawn = s.drawn)

/-- For every command of the host ports' tables, in a state that its row lists (for LATH_LOAD and ROLE_PROVE no role is
asked for): a port that may issue a command but whose session's role the row does not permit gets ROLE_REJECT; no
register outside the report, no memory, role, device state or engine changes. -/
def Obligations.RoleRejectHasNoOtherEffect : Prop :=
  ∀ (row : HostRow) (p : Port) (s : State),
    (row ∈ hostRows ∧ s.ready p ∧ s.dev ∈ row.legal ∧ row.rule.permits s.dev (s.session p).role = false →
      ∃ t, exec (row.cmd p) s = .next t ∧ s.ended t p row.opcode 3 ∧ s.onlyRegs t [] ∧ t.fuses = s.fuses ∧
        t.doze = s.doze ∧ t.bridge = s.bridge ∧ t.shadow = s.shadow)

/-- For a port that may issue a command outside LIGHT_HOLD: ROLE_CHALLENGE completes with a fresh nonce and DEVICE_UID
and keeps the nonce, and within 10 s of a fourth failure it fails with LOCKOUT; ROLE_PROVE with the nonce of its
role and a trusted key opens the session, keeps its key slot, voids the nonce and writes SESSION_OPEN (after
SESSION_CLOSE where another role stood) if the signature verifies, and else fails with SIGNATURE, leaves the role,
counts the failure, locks out at the fourth, raises EV_4 and writes SESSION_FAIL; ROLE_DROP ends the session and
records that. NONCE_EXPIRY and LOCKOUT_END, where no fret boundary lies before them, carry the tick count to 10 s
after the challenge or failure and clear the nonce, or the lockout and the count. The nonce and the two
cryptographic functions are free values of Config. Conventions of the model it rests on: log entries 4, 10, 14, 24,
160. -/
def Obligations.SessionsOpenAndClose : Prop :=
  ∀ (p : Port) (s : State),
    (∀ (r : Role), s.ready p ∧ s.dev ≠ .lightHold ∧ (s.session p).lockedAt = none ∧ roleOfCode (s.argW 0) = some r →
      ∃ t, exec (.roleChallenge p) s = .next t ∧ s.ended t p 0x28 0 ∧ t.resultsAre (wordsOf (leBytes 32
        (Config.freshNonce s.drawn).toNat) ++ uidWords) ∧ (t.session p).nonce = some ⟨r, Config.freshNonce
        s.drawn, s.drone.ticks⟩ ∧ t.drawn = s.drawn + 1 ∧ s.onlyRegs t ((List.range 10).map Reg.arg)) ∧
    (∀ (r : Role) (x : Nat), s.ready p ∧ s.dev ≠ .lightHold ∧ roleOfCode (s.argW 0) = some r ∧ (s.session
        p).lockedAt = some x ∧ s.drone.ticks < x + 2457600000 →
      ∃ t, exec (.roleChallenge p) s = .next t ∧ s.ended t p 0x28 6 ∧ t.resultsAre [16] ∧ t.session p =
        expireSession s.drone.ticks (s.session p) ∧ t.drawn = s.drawn ∧ s.onlyRegs t []) ∧
    (∀ (r : Role) (n : Nonce) (k : RoleKey), s.ready p ∧ s.mayRecord ∧ s.dev ≠ .lightHold ∧ roleOfCode (s.argW 0) =
        some r ∧ (s.argW 0 ≠ 1 ∨ s.dev = .maker) ∧ s.argW 2 % 4 = 0 ∧ s.argW 2 + 96 ≤ 4194304 ∧ s.cleanAt .capture
        (s.argW 2) 96 ∧ (s.session p).lockedAt = none ∧ (s.session p).nonce = some n ∧ n.role = r ∧ s.drone.ticks ≤
        n.since + 2457600000 ∧ s.lath.keys.find? (fun k => k.role == roleCode r && k.slot == s.argW 1) = some k →
      ∃ t, exec (.roleProve p) s = .next t ∧ (Config.ecdsaVerify k.point (Config.sha384 (leBytes 32
        n.bytes.toNat ++ leBytes 8 Config.deviceUid.toNat ++ leBytes 1 (roleCode r) ++ leBytes 1 (portCode p) ++
        leBytes 2 0)) (s.bytesAt .capture (s.argW 2) 96) = true → s.ended t p 0x29 0 ∧ t.resultsAre [0] ∧
        (t.session p).role = some r ∧ (t.session p).keySlot = s.argW 1 ∧ (t.session p).nonce = none ∧ (t.session
        p).fails = 0 ∧ s.recorded t (if (s.session p).role = none ∨ (s.session p).role = some r then 1 else 2) 5
        (roleCode r)) ∧ (Config.ecdsaVerify k.point (Config.sha384 (leBytes 32 n.bytes.toNat ++ leBytes 8
        Config.deviceUid.toNat ++ leBytes 1 (roleCode r) ++ leBytes 1 (portCode p) ++ leBytes 2 0)) (s.bytesAt
        .capture (s.argW 2) 96) = false → s.ended t p 0x29 6 ∧ t.resultsAre [5] ∧ s.sameRoles t ∧ (t.session
        p).nonce = none ∧ (t.session p).fails = (s.session p).fails + 1 ∧ (t.session p).lockedAt = (if
        (s.session p).fails = 3 then some s.drone.ticks else none) ∧ t.event 4 ∧ s.recorded t 1 6 (roleCode r))
        ∧ t.dev = s.dev ∧ t.fuses = s.fuses ∧ t.lath = s.lath ∧ s.otherMemories t .spine) ∧
    (∀ (r : Role), s.ready p ∧ s.mayRecord ∧ s.dev ≠ .lightHold ∧ (s.session p).role = some r →
      ∃ t, exec (.roleDrop p) s = .next t ∧ s.ended t p 0x2A 0 ∧ (t.session p).role = none ∧ s.recorded t 1 7
        (roleCode r) ∧ t.dev = s.dev ∧ t.lath = s.lath ∧ s.otherMemories t .spine) ∧
    (∀ (n : Nonce), (s.session p).nonce = some n ∧ s.beyondFret (s.tickNs (n.since + 2457600001)) = false →
      ∃ t, exec (.nonceExpiry p) s = .next t ∧ (t.session p).nonce = none ∧ t.drone.ticks = max s.drone.ticks
        (n.since + 2457600001) ∧ s.sameRoles t ∧ s.sameMemories t ∧ t.dev = s.dev ∧ t.journal = s.journal) ∧
    (∀ (x : Nat), (s.session p).lockedAt = some x ∧ s.beyondFret (s.tickNs (x + 2457600000)) = false →
      ∃ t, exec (.lockoutEnd p) s = .next t ∧ (t.session p).lockedAt = none ∧ (t.session p).fails = 0 ∧
        t.drone.ticks = max s.drone.ticks (x + 2457600000) ∧ s.sameRoles t ∧ s.sameMemories t ∧ t.dev = s.dev ∧
        t.journal = s.journal)

/-- For a port that may issue a command outside LIGHT_HOLD with a role that may acknowledge: JOURNAL_ACK completes, the
oldest record that is still held is then SEQ + 1, but never one that lies before the oldest held so far, and never
one beyond the next record to be written; the number of the next record stays where none waits to be counted as
lost. Memories, roles and registers outside the command's report stay. Convention of the model it rests on: log
entry 10. -/
def Obligations.JournalAckFreesUpToSeq : Prop :=
  ∀ (p : Port) (s : State),
    (s.ready p ∧ s.dev ≠ .lightHold ∧ s.journal.lost = 0 ∧ (s.dev = .bare ∨ s.dev = .unlathed ∨ s.dev = .fault ∨
        (s.session p).role = some .installer ∨ (s.session p).role = some .operator) →
      ∃ t, exec (.journalAck p) s = .next t ∧ s.ended t p 0x31 0 ∧ t.journal.first = max s.journal.first (min
        (s.argW 0 + 1) s.journal.next) ∧ t.journal.next = s.journal.next ∧ t.resultsAre [t.journal.next -
        t.journal.first] ∧ s.regsBut t [] ∧ s.sameMemories t ∧ s.sameRoles t ∧ t.dev = s.dev ∧ t.lath = s.lath)

/-- Where the sources lie in clean words of capture memory and the journal has room: INSTALLER_ENROL in UNLATHED voids
the nonce; where every check of R43 passes it writes the slot's digest and VALID and an ENROLLED record (REVOKED and
FAILED where the read-back, a free value, fails), and else fails and blows nothing. JOURNAL_COPY copies the records
from SEQ on, oldest first, byte for byte, and counts them. CAPSULE_COPY copies the 16 KiB of a valid capsule and of
an invalid one nothing; CAPSULE_CLEAR makes it invalid and its bytes 0. MAKER_ENTER with MAKER_EN goes on with the
erase and blows one RETURNED fuse if its checks pass, and else fails with EV_4 and a SESSION_FAIL record.
MAKER_ERASE_COMPLETE leaves MAKER, five memories of zeros, ERASE_DONE and EV_118, and completes the command.
Conventions of the model it rests on: log entries 10, 24, 26, 27, 29. -/
def Obligations.EnrolmentJournalAndCapsule : Prop :=
  ∀ (p : Port) (s : State),
    (s.ready p ∧ s.mayRecord ∧ s.dev = .unlathed ∧ s.argW 0 % 4 = 0 ∧ s.argW 0 + 168 ≤ 4194304 ∧ s.argW 1 % 4 = 0 ∧
        s.argW 1 + 116 ≤ 4194304 ∧ s.argW 2 % 4 = 0 ∧ s.argW 2 + 96 ≤ 4194304 ∧ s.cleanAt .capture (s.argW 0) 168 ∧
        s.cleanAt .capture (s.argW 1) 116 ∧ s.cleanAt .capture (s.argW 2) 96 →
      ∃ t, exec (.installerEnrol p) s = .next t ∧ ((s.enrolCheck p (s.bytesAt .capture (s.argW 0) 168)
        (s.bytesAt .capture (s.argW 1) 116) (s.bytesAt .capture (s.argW 2) 96)).isNone = true → s.ended t p 0x2C
        (if Config.freeValue s.drawn % 2 = 0 then 0 else 6) ∧ s.recorded t 1 4 0 ∧ vecGet t.fuses.slots ((s.mem
        .capture).byte (s.argW 0 + 16)).toNat ⟨0, false, false⟩ = ⟨BitVec.ofNat 384 (ofBe (s.bytesAt .capture
        (s.argW 0 + 20) 48)), true, decide (Config.freeValue s.drawn % 2 ≠ 0)⟩) ∧ ((s.enrolCheck p (s.bytesAt
        .capture (s.argW 0) 168) (s.bytesAt .capture (s.argW 1) 116) (s.bytesAt .capture (s.argW 2) 96)).isSome
        = true → s.ended t p 0x2C 6 ∧ t.fuses = s.fuses ∧ t.journal = s.journal) ∧ (t.session p).nonce = none ∧
        t.dev = s.dev ∧ s.sameRoles t ∧ s.otherMemories t .spine) ∧
    (s.ready p ∧ s.dev ≠ .lightHold ∧ (s.dev.keyless = true ∨ (s.session p).role.isSome = true) ∧ s.argW 0 = 0 ∧ 1 ≤
        s.argW 2 ∧ s.argW 2 ≤ 512 ∧ s.argW 3 % 4 = 0 ∧ s.argW 3 + 128 * s.argW 2 ≤ 4194304 ∧ (∀ i, i < s.argW 2 →
        s.cleanAt .spine ((max s.journal.first (s.argW 1) + i) % 4096 * 128) 128) →
      ∃ t, exec (.journalCopy p) s = .next t ∧ s.ended t p 0x30 0 ∧ t.getF (Reg.arg 0) = min (s.argW 2)
        (s.journal.next - max s.journal.first (s.argW 1)) ∧ t.bytesAre .capture (s.argW 3) (128 * t.getF
        (Reg.arg 0)) (fun i => (s.mem .spine).byte ((max s.journal.first (s.argW 1) + i / 128) % 4096 * 128 + i
        % 128)) ∧ s.sameBytesBut t .capture (s.argW 3) (128 * t.getF (Reg.arg 0)) ∧ s.otherMemories t .capture ∧
        s.sameRoles t ∧ s.sameEngines t) ∧
    (s.ready p ∧ s.dev ≠ .lightHold ∧ (s.dev.keyless = true ∨ (s.session p).role.isSome = true) ∧ s.argW 0 % 4 = 0 ∧
        s.argW 0 + 16384 ≤ 4194304 ∧ s.journal.capsuleValid = false →
      ∃ t, exec (.capsuleCopy p) s = .next t ∧ s.ended t p 0x34 0 ∧ t.resultsAre [0] ∧ s.onlyRegs t []) ∧
    (s.ready p ∧ s.dev ≠ .lightHold ∧ (s.dev.keyless = true ∨ (s.session p).role.isSome = true) ∧ s.argW 0 % 4 = 0 ∧
        s.argW 0 + 16384 ≤ 4194304 ∧ s.journal.capsuleValid = true ∧ s.cleanAt .spine 1048576 16384 →
      ∃ t, exec (.capsuleCopy p) s = .next t ∧ s.ended t p 0x34 0 ∧ t.resultsAre [1] ∧ t.bytesAre .capture
        (s.argW 0) 16384 (fun i => (s.mem .spine).byte (1048576 + i)) ∧ s.sameBytesBut t .capture (s.argW 0)
        16384 ∧ s.otherMemories t .capture ∧ s.sameRoles t ∧ s.sameEngines t) ∧
    (s.ready p ∧ s.dev ≠ .lightHold ∧ ((s.session p).role = some .installer ∨ (s.session p).role = some .operator) →
      ∃ t, exec (.capsuleClear p) s = .next t ∧ s.ended t p 0x35 0 ∧ t.journal.capsuleValid = false ∧
        t.journal.laterFaults = 0 ∧ t.journal.next = s.journal.next ∧ t.bytesAre .spine 1048576 16384 (fun _ =>
        0) ∧ s.sameBytesBut t .spine 1048576 16384 ∧ s.otherMemories t .spine ∧ s.regsBut t [] ∧ s.sameRoles t ∧
        t.dev = s.dev) ∧
    (s.ready p ∧ s.mayRecord ∧ (s.dev = .bare ∨ s.dev = .unlathed ∨ s.dev = .lathed ∨ s.dev = .fault) ∧
        s.drone.straps.makerEn = true ∧ s.argW 0 % 4 = 0 ∧ s.argW 0 + 148 ≤ 4194304 ∧ s.argW 1 % 4 = 0 ∧ s.argW 1 +
        116 ≤ 4194304 ∧ s.fuses.returned < 4 ∧ s.cleanAt .capture (s.argW 0) 148 ∧ s.cleanAt .capture (s.argW 1) 116 →
      ∃ t, exec (.makerEnter p) s = .next t ∧ ((s.makerCheck p (s.bytesAt .capture (s.argW 0) 148) (s.bytesAt
        .capture (s.argW 1) 116)).isNone = true → s.goesOn t p 0x3E ∧ t.job = some .makerErase ∧
        t.fuses.returned = s.fuses.returned + 1 ∧ t.journal = s.journal ∧ s.sameMemories t) ∧ ((s.makerCheck p
        (s.bytesAt .capture (s.argW 0) 148) (s.bytesAt .capture (s.argW 1) 116)).isSome = true → s.ended t p
        0x3E 6 ∧ t.fuses = s.fuses ∧ t.event 4 ∧ s.recorded t 1 6 1 ∧ s.otherMemories t .spine) ∧ t.dev = s.dev
        ∧ s.sameRoles t) ∧
    (s.job = some .makerErase ∧ s.phase = .run →
      ∃ t, exec (.makerEraseComplete) s = .next t ∧ t.job = none ∧ t.dev = .maker ∧ t.fuses.eraseDone =
        s.fuses.returned ∧ t.fuses.returned = s.fuses.returned ∧ t.event 118 ∧ t.getF Reg.cmdStatusCode = 0 ∧
        t.getF Reg.cmdStatusRunning = 0 ∧ t.registryMem = ⟨[], [], .clean⟩ ∧ t.stencilMem = ⟨[], [], .clean⟩ ∧
        t.captureMem = ⟨[], [], .clean⟩ ∧ t.faProg = ⟨[], [], .clean⟩ ∧ t.faData = ⟨[], [], .clean⟩ ∧
        t.lath.pending = none)

/-- In BARE or UNLATHED with room in the journal LATH_LOAD of mode 0 goes on: from the stream it waits for bytes, from
clean capture memory it either goes on with a checked image of that place or fails with EV_3. LATH_STREAM writes
bytes that come before the header is whole behind those received; without a load that takes them it drops and counts
them. 100 ms after a byte the load fails with BAD_FRAMING. LATH_APPLY puts the checked records in force beside a
live re-lath that waits, completes with DONE and no record index, and raises EV_2. LATH_CANCEL reports 0 where
nothing waits and otherwise takes the waiting load back, more than one fret before its boundary, with a
RELATH_CANCELLED record, and too late fails. LATH_INFO reports a role's digest, DEVICE_UID, fuses and the waiting
load. Conventions of the model it rests on: log entries 10, 21, 22, 23, 31, 33. -/
def Obligations.LathLoadsStreamsAndApplies : Prop :=
  ∀ (s : State),
    (∀ (p : Port), s.ready p ∧ s.mayRecord ∧ (s.dev = .bare ∨ s.dev = .unlathed) ∧ s.argW 0 = 1 ∧ s.argW 3 = 0 ∧
        s.argW 1 % 4 = 0 ∧ s.argW 1 + s.argW 2 ≤ 4194304 ∧ s.argW 4 ≠ 0 →
      ∃ t, exec (.lathLoad p) s = .next t ∧ s.goesOn t p 0x20 ∧ t.job = some (.lathStream (s.argW 1) (s.argW 2)
        0 (s.argW 4) 0 0) ∧ s.onlyRegs t []) ∧
    (∀ (p : Port), s.ready p ∧ s.mayRecord ∧ (s.dev = .bare ∨ s.dev = .unlathed) ∧ s.argW 0 = 0 ∧ s.argW 3 = 0 ∧
        s.argW 1 % 4 = 0 ∧ s.argW 1 + s.argW 2 ≤ 4194304 ∧ s.cleanAt .capture (s.argW 1) (max 64 (s.argW 2)) →
      ∃ t, exec (.lathLoad p) s = .next t ∧ ((s.goesOn t p 0x20 ∧ ∃ l, t.job = some (.lathChecked l) ∧ l.offset
        = s.argW 1 ∧ l.length = s.argW 2 ∧ l.mode = 0) ∨ (s.ended t p 0x20 6 ∧ t.event 3 ∧ s.recorded t 1 3
        (t.mem .spine |>.byte (s.journal.next % 4096 * 128 + 5)).toNat)) ∧ t.lath = s.lath ∧ t.dev = s.dev ∧
        s.otherMemories t .spine ∧ s.sameRoles t) ∧
    (∀ (l : List Byte) (off len mode bar n tick : Nat), s.job = some (.lathStream off len mode bar n tick) ∧ n +
        l.length < 64 ∧ l ≠ [] ∧ s.dev ≠ .fault →
      ∃ t, exec (.lathStream l) s = .next t ∧ t.job = some (.lathStream off len mode bar (n + l.length)
        s.drone.ticks) ∧ t.bytesAre .capture (off + n) l.length (fun i => l.getD i 0) ∧ s.sameBytesBut t
        .capture (off + n) l.length ∧ s.otherMemories t .capture ∧ s.sameRoles t ∧ t.dev = s.dev ∧ t.journal =
        s.journal) ∧
    (∀ (l : List Byte), s.job = none ∧ s.drone.streamDropped ≤ 65535 →
      ∃ t, exec (.lathStream l) s = .next t ∧ t.drone.streamDropped = min 65535 (s.drone.streamDropped +
        l.length) ∧ t.drone.resetEnabled = false ∧ s.onlyRegs { t with drone := s.drone } [] ∧ t.job = none) ∧
    (∀ (off len mode bar n tick : Nat), s.job = some (.lathStream off len mode bar n tick) ∧ 0 < n ∧ s.mayRecord ∧
        s.beyondFret (s.tickNs (tick + 24576000)) = false →
      ∃ t, exec (.lathStreamGapTimeout) s = .next t ∧ t.job = none ∧ t.resultsAre [2, 0xFFFFFFFF] ∧ t.getF
        Reg.cmdStatusCode = 6 ∧ t.getF Reg.cmdStatusRunning = 0 ∧ t.event 3 ∧ t.journal.next = s.journal.next +
        1 ∧ t.drone.ticks = max s.drone.ticks (tick + 24576000) ∧ t.lath = s.lath ∧ t.dev = s.dev ∧ s.sameRoles
        t ∧ s.otherMemories t .spine) ∧
    (∀ (l : LathLoad), s.job = some (.lathChecked l) →
      ∃ t, exec (.lathApply) s = .next t ∧ t.job = none ∧ t.lath.recs = mergedRecs s.lath.recs l.recs ∧ (l.mode
        ≠ 0 ∨ s.lath.pending = none → t.lath.pending = s.lath.pending) ∧ t.resultsAre [0, 0xFFFFFFFF] ∧ t.getF
        Reg.cmdStatusCode = 0 ∧ t.getF Reg.cmdStatusRunning = 0 ∧ t.event 2) ∧
    (∀ (p : Port), s.ready p ∧ lathedUp s.dev = true ∧ (s.session p).role = some .operator ∧ s.lath.pending = none →
      ∃ t, exec (.lathCancel p) s = .next t ∧ s.ended t p 0x21 0 ∧ t.resultsAre [0, 0] ∧ s.onlyRegs t []) ∧
    (∀ (p : Port) (l : LathLoad), s.ready p ∧ lathedUp s.dev = true ∧ (s.session p).role = some .operator ∧
        s.lath.pending = some l ∧ s.nowNs + 250000 ≤ s.barBoundary l.targetBar ∧ s.mayRecord →
      ∃ t, exec (.lathCancel p) s = .next t ∧ s.ended t p 0x21 0 ∧ t.resultsAre [0, 1] ∧ t.lath.pending = none ∧
        t.lath.recs = s.lath.recs ∧ t.lath.keys = s.lath.keys ∧ s.recorded t 1 12 3 ∧ t.dev = s.dev ∧
        s.sameRoles t ∧ s.otherMemories t .spine) ∧
    (∀ (p : Port) (l : LathLoad), s.ready p ∧ lathedUp s.dev = true ∧ (s.session p).role = some .operator ∧
        s.lath.pending = some l ∧ s.barBoundary l.targetBar < s.nowNs + 250000 →
      ∃ t, exec (.lathCancel p) s = .next t ∧ s.ended t p 0x21 6 ∧ t.resultsAre [13, 0] ∧ s.onlyRegs t []) ∧
    (∀ (p : Port) (r : Role), s.ready p ∧ s.dev ≠ .lightHold ∧ roleOfCode (s.argW 0) = some r →
      ∃ t, exec (.lathInfo p) s = .next t ∧ s.ended t p 0x22 0 ∧ t.resultsAre (wordsOf (digestBytes (roleDigest
        (roleCode r) s.lath.recs)) ++ uidWords) ∧ t.getF (Reg.arg 14) % 16 = listMask ((List.range 4).filter fun
        i => (vecGet s.fuses.slots i ⟨0, false, false⟩).valid) ∧ t.getF (Reg.arg 14) / 16 % 16 = listMask
        ((List.range 4).filter fun i => (vecGet s.fuses.slots i ⟨0, false, false⟩).revoked) ∧ t.getF (Reg.arg
        15) = (s.fuses.returned + 16 * bit s.lath.pending.isSome) % 2 ^ 32 ∧ s.onlyRegs t ((List.range 16).map
        Reg.arg))

/-- POWER_UP (and DRONE_RESET after RESET_ENABLE, which without it does nothing) resets every domain, the drone and its
straps; COLD_RESET of 1 µs resets all but the drone and latches the straps, in MAKER it is a power-up, and below 100
ns it does nothing; BROWN_OUT holds a reset and keeps the drone's tail latch, and BROWN_OUT_HOLD_END leaves it with
the straps latched. WARM_RESET keeps the fuses, the drone, the journal and the capsule, divergence log and plan,
records the end of an accepted live re-lath, and reports no completion. OSC_READY with a 245.76 MHz REFCLK ends in
BARE with filled memories and a GENESIS record that follows the tail latch, or, after a failed self-test, in FAULT;
after a warm reset the journal stays. PLL_UNLOCK enters FAULT: halves Off, paths IDLE, a FAULT record, a valid
capsule. Deep Hold ends by its timer, by WAKE or by a source held back during entry. WAKE in LIGHT_HOLD starts the
wake. Conventions of the model it rests on: log entries 4, 8, 28, 52, 53, 54, 55, 56. -/
def Obligations.ResetsAndPowerUp : Prop :=
  ∀ (s : State),
    (∀ (straps : Straps), ∃ t, exec (.powerUp straps) s = .next t ∧ t.phase = .reset .powerUp ∧ t.domainsReset ∧
        t.regsReset presenceRegs ∧ s.pinsShown t ∧ t.memoriesLost ∧ t.fuses = s.fuses ∧ t.drone.straps = straps ∧
        t.drone.ticks = 0 ∧ t.drone.tail = none ∧ t.drone.wakeCompare = 0 ∧ t.drone.refDone = false) ∧
    (∀ (straps : Straps) (ns : Nat), 1000 ≤ ns ∧ ¬(s.phase = .run ∧ s.dev = .maker) ∧ s.phase ≠ .reset .brownOut ∧
        s.phase ≠ .deepHold ∧ s.phase ≠ .deepEntry →
      ∃ t, exec (.coldReset straps ns) s = .next t ∧ t.phase = .reset .cold ∧ t.domainsReset ∧ t.regsReset
        presenceRegs ∧ s.pinsShown t ∧ t.memoriesLost ∧ t.fuses = s.fuses ∧ t.drone.straps = straps ∧
        t.drone.ticks = s.drone.ticks ∧ t.drone.tail = s.drone.tail ∧ t.drone.wakeCompare = s.drone.wakeCompare
        ∧ t.drone.refClass = s.drone.refClass ∧ t.drone.refDone = s.drone.refDone) ∧
    (∀ (straps : Straps) (ns : Nat), 1000 ≤ ns ∧ s.phase = .run ∧ s.dev = .maker →
      ∃ t, exec (.coldReset straps ns) s = .next t ∧ t.phase = .reset .powerUp ∧ t.domainsReset ∧ t.regsReset
        presenceRegs ∧ s.pinsShown t ∧ t.memoriesLost ∧ t.fuses = s.fuses ∧ t.drone.straps = straps ∧
        t.drone.ticks = 0 ∧ t.drone.tail = none) ∧
    (∀ (straps : Straps) (ns : Nat), 1000 ≤ ns ∧ s.phase = .deepHold →
      ∃ t, exec (.coldReset straps ns) s = .next t ∧ t.phase = .reset .cold ∧ t.domainsReset ∧ t.regsReset
        presenceRegs ∧ s.pinsShown t ∧ t.fuses = s.fuses ∧ t.drone =
        { s.drone with straps := straps, wakeCause := .resetPin, wakeHeld := none, sagHold := false, resetEnabled := false }) ∧
    (∀ (straps : Straps) (ns : Nat), 1000 ≤ ns ∧ s.phase = .deepEntry →
      ∃ t, exec (.coldReset straps ns) s = .next t ∧ t.phase = .deepEntry ∧ t.drone =
        { s.drone with straps := straps, wakeHeld := some .resetPin } ∧ s.onlyRegs { t with drone := s.drone }
        [] ∧ t.fuses = s.fuses) ∧
    (∀ (straps : Straps) (ns : Nat), ns < 100 →
      ∃ t, exec (.coldReset straps ns) s = .next t ∧ s.onlyRegs t [] ∧ t.fuses = s.fuses) ∧
    (s.phase ≠ .deepHold ∧ ¬(s.phase = .run ∧ s.dev = .maker) →
      ∃ t, exec (.brownOut) s = .next t ∧ t.phase = .reset .brownOut ∧ t.domainsReset ∧ t.regsReset presenceRegs
        ∧ s.pinsShown t ∧ t.memoriesLost ∧ t.fuses = s.fuses ∧ t.drone.tail = s.drone.tail ∧ t.drone.ticks =
        s.drone.ticks ∧ t.drone.straps = s.drone.straps) ∧
    (∀ (straps : Straps), s.phase = .reset .brownOut →
      ∃ t, exec (.brownOutHoldEnd straps) s = .next t ∧ t.phase = .reset .cold ∧ t.drone =
        { s.drone with straps := straps } ∧ t.fuses = s.fuses ∧ t.dev = s.dev) ∧
    (∀ (p : Port), s.ready p ∧ s.job = none ∧ s.mayRecord ∧ s.dev ≠ .lightHold ∧ s.dev ≠ .maker ∧ RoleRule.permits
        .keylessBoth s.dev (s.session p).role = true →
      ∃ t, exec (.warmReset p) s = .next t ∧ t.phase = .reset .warm ∧ t.domainsReset ∧ t.regsReset
        ([Reg.divergenceCount, Reg.divergenceDropped] ++ presenceRegs) ∧ s.pinsShown t ∧ t.getF
        Reg.divergenceCount = s.getF Reg.divergenceCount % 2 ^ Reg.divergenceCount.w ∧ t.fuses = s.fuses ∧
        t.drone = { s.drone with resetEnabled := false, tail := t.drone.tail } ∧ t.journal.first =
        s.journal.first ∧ t.journal.next = s.journal.next + bit s.lath.pending.isSome + bit s.pcie.role.isSome +
        bit s.qspi.role.isSome ∧ t.journal.capsuleValid = s.journal.capsuleValid ∧ t.bytesAre .spine 1048576
        81952 (fun i => (s.mem .spine).byte (1048576 + i))) ∧
    (∀ (straps : Straps), s.drone.resetEnabled = true →
      ∃ t, exec (.droneReset straps) s = .next t ∧ t.phase = .reset .powerUp ∧ t.domainsReset ∧ t.regsReset
        presenceRegs ∧ s.pinsShown t ∧ t.memoriesLost ∧ t.fuses = s.fuses ∧ t.drone.straps = straps ∧
        t.drone.ticks = 0 ∧ t.drone.tail = none) ∧
    (∀ (straps : Straps), s.drone.resetEnabled = false →
      ∃ t, exec (.droneReset straps) s = .next t ∧ s.onlyRegs t [] ∧ t.fuses = s.fuses) ∧
    (∃ t, exec (.resetEnable) s = .next t ∧ t.drone = { s.drone with resetEnabled := true } ∧ s.onlyRegs
        { t with drone := s.drone } [] ∧ t.fuses = s.fuses) ∧
    (∀ (n : Nat) (k : ResetKind), s.phase = .reset k ∧ k ≠ .brownOut ∧ k ≠ .warm ∧ s.dev = .bare ∧ s.drone.refDone =
        false ∧ 29400 ≤ n ∧ n ≤ 30600 ∧ s.fuses.returned = s.fuses.eraseDone ∧ s.drone.straps.bootSel ≠ 2 →
      ∃ t, exec (.oscReady n true) s = .next t ∧ t.phase = .run ∧ t.dev = .bare ∧ t.drone.refClass = 3 ∧
        t.drone.refCount = n ∧ t.drone.refDone = true ∧ t.journal.first = (s.drone.tail.map fun x => x.1 +
        1).getD 0 ∧ t.journal.next = t.journal.first + 1 ∧ ((t.mem .spine).byte (t.journal.first % 4096 * 128 +
        4)).toNat = 1 ∧ t.event 0 ∧ t.registryMem = ⟨[], [], .clean⟩ ∧ t.stencilMem = ⟨[], [], .clean⟩ ∧
        t.captureMem = ⟨[], [], .clean⟩ ∧ t.faProg = ⟨[], [], .clean⟩ ∧ t.faData = ⟨[], [], .poisoned⟩ ∧ t.fuses
        = s.fuses) ∧
    (∀ (n : Nat) (k : ResetKind), s.phase = .reset k ∧ k ≠ .brownOut ∧ k ≠ .warm ∧ s.dev = .bare ∧ s.drone.refDone =
        false ∧ 29400 ≤ n ∧ n ≤ 30600 ∧ s.fuses.returned = s.fuses.eraseDone ∧ s.drone.straps.bootSel ≠ 2 ∧ s.job =
        none ∧ s.lath.pending = none →
      ∃ t, exec (.oscReady n false) s = .next t ∧ t.phase = .run ∧ t.dev = .fault ∧ t.journal.next =
        t.journal.first + 2 ∧ t.journal.capsuleValid = true ∧ ((t.mem .spine).byte ((t.journal.first + 1) % 4096
        * 128 + 4)).toNat = 9) ∧
    (∀ (n : Nat), s.phase = .reset .warm ∧ s.dev = .bare ∧ s.drone.refDone = true ∧ s.drone.refClass ≠ 0 ∧
        s.fuses.returned = s.fuses.eraseDone ∧ s.drone.straps.bootSel ≠ 2 ∧ s.cleanAt .spine 1130496 8 →
      ∃ t, exec (.oscReady n true) s = .next t ∧ t.phase = .run ∧ t.dev = .bare ∧ t.journal = s.journal ∧
        t.spineMem = s.spineMem ∧ t.drone.refClass = s.drone.refClass ∧ t.captureMem = ⟨[], [], .clean⟩ ∧
        t.event 0) ∧
    (s.mayRecord ∧ s.dev ≠ .fault ∧ s.dev ≠ .maker ∧ s.job = none ∧ s.lath.pending = none ∧ s.journal.capsuleValid =
        false →
      ∃ t, exec (.pllUnlock) s = .next t ∧ t.dev = .fault ∧ t.prev = s.dev ∧ t.analogWest = false ∧ t.analogEast
        = false ∧ t.event 0 ∧ s.recorded t 1 9 0 ∧ t.journal.capsuleValid = true ∧ (∀ p ∈ List.range 64, t.path
        p = 0) ∧ t.lath = s.lath ∧ s.sameRoles t ∧ s.otherMemories t .spine) ∧
    (s.phase = .deepEntry ∧ s.drone.wakeHeld = none →
      ∃ t, exec (.deepHoldEntryComplete) s = .next t ∧ t.phase = .deepHold ∧ t.domainsReset ∧ t.regsReset
        presenceRegs ∧ s.pinsShown t ∧ t.memoriesLost ∧ t.fuses = s.fuses ∧ t.drone =
        { s.drone with resetEnabled := false, wakeTicks := 0, wakeCompare := if s.drone.wakeTicks = 0 then 0 else (s.wakeCount + s.drone.wakeTicks) % 2 ^ 48 }) ∧
    (∀ (c : WakeCause), s.phase = .deepEntry ∧ s.drone.wakeHeld = some c ∧ c ≠ .resetPin →
      ∃ t, exec (.deepHoldEntryComplete) s = .next t ∧ t.phase = .reset .deepWake ∧ t.domainsReset ∧ t.regsReset
        presenceRegs ∧ s.pinsShown t ∧ t.drone.wakeCause = c ∧ t.drone.tail = s.drone.tail) ∧
    (s.phase = .deepEntry ∧ s.drone.wakeHeld = some .resetPin →
      ∃ t, exec (.deepHoldEntryComplete) s = .next t ∧ t.phase = .reset .cold ∧ t.domainsReset ∧ t.regsReset
        presenceRegs ∧ s.pinsShown t ∧ t.drone.wakeCause = .resetPin ∧ t.drone.tail = s.drone.tail ∧
        t.drone.straps = s.drone.straps) ∧
    (s.phase = .deepHold ∧ s.drone.wakeCompare < 2 ^ 48 ∧ s.wakeCount < s.drone.wakeCompare →
      ∃ t, exec (.deepHoldWake) s = .next t ∧ t.phase = .reset .deepWake ∧ t.wakeCount = s.drone.wakeCompare ∧
        t.drone.ticks % 7500 = 0 ∧ t.drone.wakeCause = .timer ∧ t.drone.tail = s.drone.tail) ∧
    (s.phase = .deepHold →
      ∃ t, exec (.wake) s = .next t ∧ t.phase = .reset .deepWake ∧ t.drone.wakeCause = .qspi ∧ t.drone.tail =
        s.drone.tail ∧ t.drone.ticks = s.drone.ticks) ∧
    (s.phase = .deepEntry ∧ s.drone.wakeHeld = none →
      ∃ t, exec (.wake) s = .next t ∧ t.phase = .deepEntry ∧ t.drone.wakeHeld = some .qspi ∧ t.drone.tail =
        s.drone.tail ∧ t.drone.ticks = s.drone.ticks) ∧
    (s.phase = .run ∧ s.dev = .lightHold ∧ s.getF Reg.dozeStatusWaking = 0 →
      ∃ t, exec (.wake) s = .next t ∧ t.getF Reg.dozeStatusWaking = 1 ∧ t.dev = .lightHold ∧ t.doze.wakeTick =
        s.drone.ticks ∧ s.otherMemories t .faData ∧ s.sameRoles t)

/-- For a port that may issue the command, in a state and role its table lists and in a pair or out of one:
SERVICE_START waits for its bar, and in a pair for the twin (but for a follow that joins a lead in service), where
time is valid, a follow is SYNCED, the sag stage is below 3 and every path is READY or FENCED, and else fails with
NOT_READY; SERVICE_STOP waits; HOLD_OFF makes or cancels the span; LIGHT_HOLD_ENTER at least eight frets ahead
decides the entry at the next boundary, or in a pair, from the lead, proposes it for the third and waits for the
twin, with its hold compare at the first boundary at or after the wake time; LIGHT_HOLD_EXIT starts the wake;
DEEP_HOLD_ENTER outside a pair with no unacknowledged record completes, keeps the sleep time for the entry's end and
begins the entry; STATE_INFO reports the present and previous state, the twin role and the last FAULT record. But
for the wake, none changes a register outside those named, a memory or a role. Conventions of the model it rests on:
log entries 40, 45, 48. -/
def Obligations.ServiceAndHoldCommands : Prop :=
  ∀ (p : Port) (s : State),
    (s.ready p ∧ s.dev = .lathed ∧ (s.session p).role = some .operator ∧ s.getF Reg.timeStatusState ≠ 0 ∧ (s.getF
        Reg.bridgeRole = 2 → s.getF Reg.bridgeStatusSynced = 1) ∧ s.getF Reg.sagStatusStage < 3 ∧ (∀ i ∈ List.range
        64, s.path i = 2 ∨ s.path i = 5) ∧ (s.argW 0 = 0 ∨ 0 < barDiff (s.argW 0) s.bar ∧ barDiff (s.argW 0) s.bar ≤
        256) →
      ∃ t, exec (.serviceStart p) s = .next t ∧ s.goesOn t p 0x01 ∧ s.onlyRegs t [] ∧ t.job = some
        (.serviceStart (if s.argW 0 = 0 then s.nextStartBar else s.argW 0) (!s.inPair || s.bridge.passedStart ==
        some (if s.argW 0 = 0 then s.nextStartBar else s.argW 0) || s.getF Reg.bridgeRole == 2 && (s.getF
        Reg.bridgeStatusPeerState == DevState.service.code || s.getF Reg.bridgeStatusPeerState ==
        DevState.doze.code)))) ∧
    (s.ready p ∧ s.dev = .lathed ∧ (s.session p).role = some .operator ∧ s.getF Reg.timeStatusState = 0 ∧ s.argW 0 =
        0 →
      ∃ t, exec (.serviceStart p) s = .next t ∧ s.ended t p 0x01 6 ∧ t.resultsAre [17] ∧ s.onlyRegs t []) ∧
    (s.ready p ∧ (s.dev = .service ∨ s.dev = .doze) ∧ ((s.session p).role = some .installer ∨ (s.session p).role =
        some .operator) →
      ∃ t, exec (.serviceStop p) s = .next t ∧ s.goesOn t p 0x02 ∧ t.job = some .serviceStop ∧ s.onlyRegs t []) ∧
    (s.ready p ∧ (s.dev = .service ∨ s.dev = .doze) ∧ ((s.session p).role = some .installer ∨ (s.session p).role =
        some .operator) ∧ s.argW 0 = 0 →
      ∃ t, exec (.holdOff p) s = .next t ∧ s.ended t p 0x05 0 ∧ t.doze = { s.doze with holdOff := none } ∧
        s.onlyRegs t []) ∧
    (s.ready p ∧ s.dev = .service ∧ ((s.session p).role = some .installer ∨ (s.session p).role = some .operator) ∧
        s.argW 0 ≠ 0 ∧ s.argW 0 ≠ 0xFFFFFFFF ∧ 0 < barDiff (s.argW 0) s.bar →
      ∃ t, exec (.holdOff p) s = .next t ∧ s.ended t p 0x05 0 ∧ t.doze =
        { s.doze with holdOff := some (s.barBoundary (s.argW 0)) } ∧ s.onlyRegs t []) ∧
    (s.ready p ∧ s.phase = .run ∧ s.dev = .doze ∧ ((s.session p).role = some .installer ∨ (s.session p).role = some
        .operator) ∧ s.argW 0 = 0xFFFFFFFF ∧ s.getF Reg.dozeStatusWaking = 0 →
      ∃ t, exec (.holdOff p) s = .next t ∧ s.ended t p 0x05 0 ∧ t.heldOff = decide (s.nowNs < 2 ^ 80) ∧ t.getF
        Reg.dozeStatusWaking = 1 ∧ t.doze.wakeTick = s.drone.ticks ∧ t.dev = .doze ∧ s.sameMemories t ∧
        s.sameRoles t) ∧
    (s.ready p ∧ (s.dev = .lathed ∨ s.dev = .service ∨ s.dev = .doze) ∧ (s.session p).role = some .operator ∧
        s.inPair = false ∧ s.nowNs + 2000000 ≤ (s.argW 0 + s.argW 1 % 65536 * 2 ^ 32) * 1000000000 + s.argW 2 →
      ∃ t, exec (.lightHoldEnter p) s = .next t ∧ s.ended t p 0x08 0 ∧ t.resultsAre [0] ∧ t.getF
        Reg.dozeStatusLightPending = 1 ∧ t.doze =
        { s.doze with light := some ⟨s.absFret + 1, ((s.argW 0 + s.argW 1 % 65536 * 2 ^ 32) * 1000000000 + s.argW 2 + 249999) / 250000 * 250000, true, true⟩, entry := none }
        ∧ s.onlyRegs t [Reg.dozeStatusLightPending]) ∧
    (s.ready p ∧ (s.dev = .lathed ∨ s.dev = .service ∨ s.dev = .doze) ∧ (s.session p).role = some .operator ∧
        s.inPair = true ∧ s.getF Reg.bridgeRole ≠ 2 ∧ s.nowNs + 2000000 ≤ (s.argW 0 + s.argW 1 % 65536 * 2 ^ 32) *
        1000000000 + s.argW 2 →
      ∃ t, exec (.lightHoldEnter p) s = .next t ∧ s.goesOn t p 0x08 ∧ t.job = some .lightHold ∧ t.getF
        Reg.dozeStatusLightPending = 1 ∧ t.doze =
        { s.doze with light := some ⟨s.absFret + 3, ((s.argW 0 + s.argW 1 % 65536 * 2 ^ 32) * 1000000000 + s.argW 2 + 249999) / 250000 * 250000, true, false⟩, entry := none }
        ∧ s.onlyRegs t [Reg.dozeStatusLightPending]) ∧
    (s.ready p ∧ s.phase = .run ∧ s.dev = .lightHold ∧ s.getF Reg.dozeStatusWaking = 0 →
      ∃ t, exec (.lightHoldExit p) s = .next t ∧ s.ended t p 0x09 0 ∧ s.lightRose t) ∧
    (s.ready p ∧ (s.dev = .bare ∨ s.dev = .unlathed ∨ s.dev = .lathed ∨ s.dev = .fault) ∧ RoleRule.permits
        .keylessBoth s.dev (s.session p).role = true ∧ s.journal.first = s.journal.next ∧ s.inPair = false →
      ∃ t, exec (.deepHoldEnter p) s = .next t ∧ s.ended t p 0x0A 0 ∧ t.phase = .deepEntry ∧ t.dev = s.dev ∧
        s.regsBut t [] ∧ s.sameMemories t ∧ s.sameRoles t ∧ t.journal = s.journal ∧ t.drone =
        { s.drone with sagHold := false, wakeHeld := none, wakeTicks := s.argW 0 + s.argW 1 % 65536 * 2 ^ 32, resetEnabled := t.drone.resetEnabled }) ∧
    (s.ready p ∧ s.dev ≠ .lightHold →
      ∃ t, exec (.stateInfo p) s = .next t ∧ s.ended t p 0x10 0 ∧ t.resultsAre [s.dev.code, s.prev.code, s.getF
        Reg.bridgeRole, ((s.journal.lastFault.map fun q => q % 2 ^ 32).getD 0xFFFFFFFF)] ∧ s.onlyRegs t [Reg.arg
        2, Reg.arg 3])

/-- Where no fret boundary lies before them: DOZE_WAKE_START raises WAKING at T_need minus L, raises the idled halves
that are not absent and keeps the wake's tick; DOZE_WAKE_COMPLETE, with every synthesizer of the halves that are On
LOCKED, ends in SERVICE with the idle bits and WAKING 0; HOLD_COMPARE carries time to the compare, disarms it and
starts the wake; LIGHT_HOLD_WAKE_COMPLETE, with every synthesizer of the halves that are On LOCKED, ends in the
state the hold was entered from, with WAKING 0. TWIN_BRIDGE_TRAINING is a wake source in LIGHT_HOLD; elsewhere it
abandons an entry that is decided, and without one does nothing; HEARTBEAT_CHECK_RESUME counts heartbeats again 2 ms
after the wake source. Conventions of the model it rests on: log entries 4, 44, 46, 47, 49, 51. -/
def Obligations.DozeAndHoldEvents : Prop :=
  ∀ (s : State),
    (∀ (w : Nat), s.phase = .run ∧ s.dev = .doze ∧ s.getF Reg.dozeStatusWaking = 0 ∧ s.doze.wakeAt = some w ∧
        s.beyondFret (max s.nowNs w) = false ∧ 0 < s.inc →
      ∃ t, exec (.dozeWakeStart) s = .next t ∧ t.getF Reg.dozeStatusWaking = 1 ∧ max s.nowNs w ≤ t.nowNs ∧
        t.doze.wakeTick = t.drone.ticks ∧ t.doze.late = false ∧ t.dev = .doze ∧ (s.getF Reg.dozeStatusWestIdle =
        1 → t.analogWest = (!s.absent .analogWest && !s.absent .dfeWest)) ∧ (s.getF Reg.dozeStatusEastIdle = 1 →
        t.analogEast = (!s.absent .analogEast && !s.absent .dfeEast)) ∧ s.sameMemories t ∧ s.sameRoles t ∧
        t.journal = s.journal) ∧
    (s.phase = .run ∧ s.dev = .doze ∧ s.getF Reg.dozeStatusWaking = 1 ∧ s.job = none ∧ (s.analogWest = true → s.getF
        (Reg.synStatusState 0) = 2 ∧ s.getF (Reg.synStatusState 1) = 2) ∧ (s.analogEast = true → s.getF
        (Reg.synStatusState 2) = 2 ∧ s.getF (Reg.synStatusState 3) = 2) ∧ s.beyondFret (s.tickNs (4 * (s.each [0, 1]
        fun s h => s.closeSpans h .syncReset (s.doze.wakeTick / 4 + 64)).firstValid)) = false →
      ∃ t, exec (.dozeWakeComplete) s = .next t ∧ t.dev = .service ∧ t.prev = .doze ∧ t.getF
        Reg.dozeStatusWestIdle = 0 ∧ t.getF Reg.dozeStatusEastIdle = 0 ∧ t.getF Reg.dozeStatusWaking = 0 ∧
        t.doze.wakeAt = none ∧ t.doze.need = none ∧ s.sameMemories t ∧ s.sameRoles t ∧ t.journal = s.journal) ∧
    (∀ (c : Nat), s.phase = .run ∧ s.dev = .lightHold ∧ s.getF Reg.dozeStatusWaking = 0 ∧ s.doze.compare = some c ∧
        0 < s.inc →
      ∃ t, exec (.holdCompare) s = .next t ∧ t.getF Reg.dozeStatusWaking = 1 ∧ t.doze.compare = none ∧ c ≤
        t.nowNs ∧ t.doze.wakeTick = t.drone.ticks ∧ t.dev = .lightHold ∧ s.otherMemories t .faData ∧ s.sameRoles
        t ∧ t.journal = s.journal) ∧
    (s.phase = .run ∧ s.dev = .lightHold ∧ s.getF Reg.dozeStatusWaking = 1 ∧ (s.holdFrom = .service ∨ s.holdFrom =
        .lathed) ∧ s.job = none ∧ (s.analogWest = true → s.getF (Reg.synStatusState 0) = 2 ∧ s.getF
        (Reg.synStatusState 1) = 2) ∧ (s.analogEast = true → s.getF (Reg.synStatusState 2) = 2 ∧ s.getF
        (Reg.synStatusState 3) = 2) →
      ∃ t, exec (.lightHoldWakeComplete) s = .next t ∧ t.dev = s.holdFrom ∧ t.prev = .lightHold ∧ t.getF
        Reg.dozeStatusWaking = 0 ∧ t.event 0 ∧ t.doze.compare = none ∧ t.analogWest = s.analogWest ∧
        t.analogEast = s.analogEast ∧ s.sameRoles t) ∧
    (s.phase = .run ∧ s.dev = .lightHold ∧ s.getF Reg.dozeStatusWaking = 0 →
      ∃ t, exec (.twinBridgeTraining) s = .next t ∧ s.lightRose t) ∧
    (s.dev ≠ .lightHold ∧ s.doze.light = none →
      ∃ t, exec (.twinBridgeTraining) s = .next t ∧ s.onlyRegs t [] ∧ t.doze = s.doze) ∧
    (∀ (e : LightEntry), s.phase = .run ∧ s.dev ≠ .lightHold ∧ s.doze.light = some e ∧ s.job ≠ some .lightHold →
      ∃ t, exec (.twinBridgeTraining) s = .next t ∧ s.onlyRegs t [Reg.dozeStatusLightPending] ∧ t.getF
        Reg.dozeStatusLightPending = 0 ∧ t.doze = { s.doze with light := none, compare := none }) ∧
    (s.bridge.paired = true ∧ s.bridge.checkSuspended = true ∧ s.dev ≠ .lightHold ∧ s.doze.light = none ∧
        s.beyondFret (s.tickNs (s.doze.wakeTick + 491520)) = false →
      ∃ t, exec (.heartbeatCheckResume) s = .next t ∧ t.bridge =
        { s.bridge with checkSuspended := false, heartbeatTick := t.drone.ticks } ∧ t.drone.ticks = max
        s.drone.ticks (s.doze.wakeTick + 491520) ∧ s.sameMemories t ∧ s.sameRoles t ∧ t.dev = s.dev ∧ t.journal
        = s.journal)

/-- For a port that may issue the command, in its states and roles: TIME_SET with no time set and WHEN 0 makes device
time its argument, sets STATE to VALID and raises EV_25; with WHEN 1 and PPS_IN enabled it waits for the edge, loads
then, and fails with NO_PPS after 1.1 s; a start that is pending makes TIME_STEP, and a waiting TIME_SET at its
edge, end BUSY; TIME_STEP with no armed compare that is to fire in it, or that it passes, adds its signed offset to
time as it stands one tick later, and while locked uses the one step; without a time it fails with reason 23, and
while locked with the step used it fails with 22. TIME_LOCK makes VALID LOCKED with the step unused, and TIME_UNLOCK
makes LOCKED VALID. A step leaves memories, roles, device state and journal as they were. Convention of the model it
rests on: log entry 119. -/
def Obligations.DeviceTimeIsSetAndStepped : Prop :=
  ∀ (p : Port) (s : State),
    (s.ready p ∧ s.phase = .run ∧ (s.dev = .bare ∨ s.dev = .unlathed ∨ s.dev = .lathed ∨ s.dev = .fault) ∧
        RoleRule.permits .keylessBoth s.dev (s.session p).role = true ∧ s.argW 2 < 1000000000 ∧ s.argW 3 = 0 ∧ s.getF
        Reg.timeStatusState = 0 ∧ s.bridge.passedStart = none ∧ s.bridge.autoStart = none →
      ∃ t, exec (.timeSet p) s = .next t ∧ s.ended t p 0x18 0 ∧ t.resultsAre [0] ∧ t.time.now = ((s.argW 0 +
        s.argW 1 % 65536 * 2 ^ 32) * 1000000000 + s.argW 2) * 2 ^ 32 ∧ t.time.fret = ((s.argW 0 + s.argW 1 %
        65536 * 2 ^ 32) * 1000000000 + s.argW 2) / 250000 ∧ t.getF Reg.timeStatusState = 1 ∧ t.event 25 ∧
        t.drone.ticks = s.drone.ticks + 1 ∧ s.sameMemories t ∧ s.sameRoles t ∧ t.dev = s.dev ∧ t.journal =
        s.journal) ∧
    (s.ready p ∧ (s.dev = .bare ∨ s.dev = .unlathed ∨ s.dev = .lathed ∨ s.dev = .fault) ∧ RoleRule.permits
        .keylessBoth s.dev (s.session p).role = true ∧ s.argW 2 < 1000000000 ∧ s.argW 3 = 1 ∧ s.getF Reg.ppsInEn = 1 ∧
        (s.getF Reg.timeStatusState = 2 → s.getF Reg.timeStatusStepUsed = 0) ∧ s.bridge.passedStart = none ∧
        s.bridge.autoStart = none ∧ s.dev ≠ .fault →
      ∃ t, exec (.timeSet p) s = .next t ∧ s.goesOn t p 0x18 ∧ t.job = some (.timeSetPps ((s.argW 0 + s.argW 1 %
        65536 * 2 ^ 32) * 1000000000 + s.argW 2) s.drone.ticks) ∧ s.onlyRegs t []) ∧
    (∀ (ns since : Nat), s.phase = .run ∧ s.getF Reg.ppsInEn = 1 ∧ s.job = some (.timeSetPps ns since) ∧ s.getF
        Reg.timeStatusState = 0 ∧ s.startPending = false ∧ (s.time.ppsSeen = true → s.time.ppsTick + 221184000 ≤
        s.drone.ticks) →
      ∃ t, exec (.ppsInEdge) s = .next t ∧ t.job = none ∧ t.getF Reg.cmdStatusCode = 0 ∧ t.getF
        Reg.cmdStatusRunning = 0 ∧ t.event 8 ∧ t.event 25 ∧ t.time.now = ns * 2 ^ 32 ∧ t.getF
        Reg.timeStatusState = 1 ∧ t.getF Reg.ppsInNs = ns % 1000000000 ∧ t.time.ppsSecLatch = ns / 1000000000 ∧
        t.getF Reg.ppsInCount = (s.getF Reg.ppsInCount + 1) % 2 ^ 32 ∧ t.getF Reg.timeStatusPpsMissing = 0 ∧
        t.time.ppsTick = s.drone.ticks ∧ s.sameMemories t ∧ s.sameRoles t ∧ t.dev = s.dev ∧ t.journal =
        s.journal ∧ t.drone = s.drone) ∧
    (∀ (ns since : Nat), s.phase = .run ∧ s.getF Reg.ppsInEn = 1 ∧ s.job = some (.timeSetPps ns since) ∧
        s.startPending = true ∧ (s.time.ppsSeen = true → s.time.ppsTick + 221184000 ≤ s.drone.ticks) →
      ∃ t, exec (.ppsInEdge) s = .next t ∧ t.job = none ∧ t.getF Reg.cmdStatusCode = 1 ∧ t.getF
        Reg.cmdStatusRunning = 0 ∧ t.event 8 ∧ t.time.now = s.time.now ∧ t.getF Reg.timeStatusState = s.getF
        Reg.timeStatusState ∧ s.sameMemories t ∧ s.sameRoles t ∧ t.dev = s.dev ∧ t.journal = s.journal) ∧
    (∀ (ns since : Nat), s.job = some (.timeSetPps ns since) ∧ s.beyondFret (s.tickNs (since + 270336000)) = false →
      ∃ t, exec (.timeSetNoPps) s = .next t ∧ t.job = none ∧ t.getF Reg.cmdStatusCode = 6 ∧ t.getF
        Reg.cmdStatusRunning = 0 ∧ t.resultsAre [24] ∧ t.event 8 ∧ t.drone.ticks = max s.drone.ticks (since +
        270336000) ∧ t.getF Reg.timeStatusState = s.getF Reg.timeStatusState ∧ s.sameMemories t ∧ s.sameRoles t
        ∧ t.dev = s.dev ∧ t.journal = s.journal) ∧
    (∀ (d : Int), s.ready p ∧ s.phase = .run ∧ (s.dev = .bare ∨ s.dev = .unlathed ∨ s.dev = .lathed ∨ s.dev =
        .fault) ∧ RoleRule.permits .keylessBoth s.dev (s.session p).role = true ∧ s.argW 0 = (d % 2 ^ 32).toNat ∧ -(2
        ^ 31) ≤ d ∧ d < 2 ^ 31 ∧ 0 ≤ s.nowNs + d ∧ s.nowNs + d < 2 ^ 48 * 1000000000 ∧ s.getF Reg.timeStatusState ≠ 0
        ∧ (s.getF Reg.timeStatusState = 2 → s.getF Reg.timeStatusStepUsed = 0) ∧ s.bridge.passedStart = none ∧
        s.bridge.autoStart = none ∧ (∀ k ∈ List.range 8, s.getF (Reg.cmpCtrlArm k) ≠ 0 → ((if s.getF (Reg.cmpCtrlMode
        k) < 2 then max 0 d else 0) : Int) + s.tickNs (s.drone.ticks + 1) < s.cmpFires k) →
      ∃ t, exec (.timeStep p) s = .next t ∧ s.ended t p 0x19 0 ∧ t.resultsAre [0] ∧ (t.time.now : Int) =
        s.time.now + s.inc + d * 2 ^ 32 ∧ t.event 25 ∧ t.getF Reg.timeStatusState = s.getF Reg.timeStatusState ∧
        t.getF Reg.timeStatusStepUsed = (if s.getF Reg.timeStatusState = 2 then 1 else s.getF
        Reg.timeStatusStepUsed) ∧ t.time.fret = t.nowNs / 250000 ∧ t.drone.ticks = s.drone.ticks + 1 ∧
        s.sameMemories t ∧ s.sameRoles t ∧ t.dev = s.dev ∧ t.journal = s.journal) ∧
    (s.ready p ∧ (s.dev = .bare ∨ s.dev = .unlathed ∨ s.dev = .lathed ∨ s.dev = .fault) ∧ RoleRule.permits
        .keylessBoth s.dev (s.session p).role = true ∧ s.argW 0 < 2 ^ 31 ∧ s.nowNs + s.argW 0 < 2 ^ 48 * 1000000000 ∧
        s.startPending = false ∧ (s.getF Reg.timeStatusState = 0 ∨ s.getF Reg.timeStatusState = 2 ∧ s.getF
        Reg.timeStatusStepUsed = 1) →
      ∃ t, exec (.timeStep p) s = .next t ∧ s.ended t p 0x19 6 ∧ t.resultsAre [if s.getF Reg.timeStatusState = 0
        then 23 else 22] ∧ s.onlyRegs t []) ∧
    (s.ready p ∧ (s.dev = .bare ∨ s.dev = .unlathed ∨ s.dev = .lathed ∨ s.dev = .fault) ∧ RoleRule.permits
        .keylessBoth s.dev (s.session p).role = true ∧ s.argW 0 < 2 ^ 31 ∧ s.nowNs + s.argW 0 < 2 ^ 48 * 1000000000 ∧
        s.startPending = true →
      ∃ t, exec (.timeStep p) s = .next t ∧ s.ended t p 0x19 1 ∧ s.onlyRegs t []) ∧
    (s.ready p ∧ s.dev ≠ .lightHold ∧ RoleRule.permits .both s.dev (s.session p).role = true →
      ∃ t, exec (.timeLock p) s = .next t ∧ (s.getF Reg.timeStatusState = 1 → s.ended t p 0x1A 0 ∧ t.resultsAre
        [0] ∧ t.getF Reg.timeStatusState = 2 ∧ t.getF Reg.timeStatusStepUsed = 0) ∧ (s.getF Reg.timeStatusState
        = 0 → s.ended t p 0x1A 6 ∧ t.resultsAre [23] ∧ t.getF Reg.timeStatusState = 0) ∧ (s.getF
        Reg.timeStatusState = 2 → s.ended t p 0x1A 0 ∧ t.getF Reg.timeStatusState = 2 ∧ t.getF
        Reg.timeStatusStepUsed = s.getF Reg.timeStatusStepUsed) ∧ s.onlyRegs t [Reg.timeStatusState,
        Reg.timeStatusStepUsed]) ∧
    (s.ready p ∧ s.dev ≠ .lightHold ∧ RoleRule.permits .both s.dev (s.session p).role = true →
      ∃ t, exec (.timeUnlock p) s = .next t ∧ s.ended t p 0x1B 0 ∧ t.getF Reg.timeStatusState = (if s.getF
        Reg.timeStatusState = 2 then 1 else s.getF Reg.timeStatusState) ∧ s.onlyRegs t [Reg.timeStatusState])

/-- Where no fret boundary lies before it and no consumer names the compare (or the device is in LIGHT_HOLD), an armed
compare fires at the instant found for it when it was armed or last judged: EV_16+k is raised, a ONE_SHOT disarms, a
PERIODIC one whose VALUE is reached then has VALUE raised by its clamped PERIOD, and a FRET or BAR compare stays
armed. An accepted edge of PPS_IN, 900 ms or more after the last, latches time, counts and clears PPS_MISSING; an
earlier one is only counted, and with IN_EN 0 nothing happens. 1.1 s after the last accepted edge, or the enable,
PPS_MISSING is set and EV_26 raised. PPS_OUT rises at a whole second plus the clamped offset, once in its tick, for
OUT_WIDTH. Conventions of the model it rests on: log entries 4, 118, 120. -/
def Obligations.ComparesAndPulsesPerSecond : Prop :=
  ∀ (s : State),
    (∀ (k : Fin 8), s.phase = .run ∧ s.getF (Reg.cmpCtrlArm k) = 1 ∧ s.getF Reg.timeStatusState ≠ 0 ∧ s.getF
        (Reg.cmpCtrlMode k) = 0 ∧ s.dev = .lightHold →
      ∃ t, exec (.timeCompare k) s = .next t ∧ t.event (16 + k) ∧ t.getF (Reg.cmpCtrlArm k) = 0 ∧ (0 < s.inc →
        mapGet 0 k s.time.cmpAt ≤ t.nowNs) ∧ t.getF (Reg.cmpValue k) = s.getF (Reg.cmpValue k) ∧ s.sameMemories
        t ∧ s.sameRoles t ∧ t.dev = s.dev ∧ t.journal = s.journal) ∧
    (∀ (k : Fin 8), s.phase = .run ∧ s.dev ≠ .lightHold ∧ s.getF (Reg.cmpCtrlArm k) = 1 ∧ s.getF Reg.timeStatusState
        ≠ 0 ∧ mapGet 0 k s.time.cmpAt ≤ s.nowNs ∧ s.getF (Reg.cmpCtrlMode k) < 2 ∧ s.beyondFret s.nowNs = false ∧ 0 <
        s.inc ∧ (∀ c ∈ List.range 8, s.getF (Reg.capConfigTrigger c) ≠ 8 + k) ∧ (∀ x ∈ List.range 4, ∀ h ∈ (s.synth
        x).pending, h.2 ≠ 8 + k) ∧ (∀ l ∈ List.range 96, ∀ h ∈ (s.layer l).select, h.edge ≠ 8 + k) ∧ (∀ x ∈ List.range
        2, s.getF (Reg.seqStatusArmed x) = 0) ∧ s.getF Reg.commitCtrlArm = 0 →
      ∃ t, exec (.timeCompare k) s = .next t ∧ t.event (16 + k) ∧ t.nowNs = s.nowNs ∧ (s.getF (Reg.cmpCtrlMode
        k) = 0 → t.getF (Reg.cmpCtrlArm k) = 0 ∧ t.getF (Reg.cmpValue k) = s.getF (Reg.cmpValue k)) ∧ (s.getF
        (Reg.cmpCtrlMode k) = 1 → t.getF (Reg.cmpCtrlArm k) = 1 ∧ t.getF (Reg.cmpValue k) = (s.getF
        (Reg.cmpValue k) + max 1000 (min 2147483647 (s.getF (Reg.cmpPeriod k)))) % 2 ^ 32 ∧ mapGet 0 k
        t.time.cmpAt = t.cmpJudged k) ∧ s.regsBut t ([Reg.cmpCtrlArm k, Reg.cmpValue k] ++ (List.range 64).map
        Reg.rxInvalidSamplesCount) ∧ s.sameMemories t ∧ s.sameRoles t ∧ t.dev = s.dev ∧ t.journal = s.journal) ∧
    (∀ (k : Fin 8) (b m : Nat), s.phase = .run ∧ s.dev ≠ .lightHold ∧ s.getF (Reg.cmpCtrlArm k) = 1 ∧ s.getF
        Reg.timeStatusState ≠ 0 ∧ m = (if s.getF (Reg.cmpCtrlMode k) = 2 then 250000 else 10000000) ∧ 2 ≤ s.getF
        (Reg.cmpCtrlMode k) ∧ mapGet 0 k s.time.cmpFired = b ∧ s.beyondFret (s.afterFret (max s.nowNs (b * m + min
        (s.getF (Reg.cmpValue k)) (m - 1)))) = false ∧ (∀ c ∈ List.range 8, s.getF (Reg.capConfigTrigger c) ≠ 8 + k) ∧
        (∀ x ∈ List.range 4, ∀ h ∈ (s.synth x).pending, h.2 ≠ 8 + k) ∧ (∀ l ∈ List.range 96, ∀ h ∈ (s.layer l).select,
        h.edge ≠ 8 + k) ∧ (∀ x ∈ List.range 2, s.getF (Reg.seqStatusArmed x) = 0) ∧ s.getF Reg.commitCtrlArm = 0 →
      ∃ t, exec (.timeCompare k) s = .next t ∧ t.event (16 + k) ∧ t.getF (Reg.cmpCtrlArm k) = 1 ∧ t.nowNs <
        mapGet 0 k t.time.cmpFired * m + min (s.getF (Reg.cmpValue k)) (m - 1) ∧ s.sameMemories t ∧ s.sameRoles
        t ∧ t.dev = s.dev ∧ t.journal = s.journal) ∧
    (s.phase = .run ∧ s.getF Reg.ppsInEn = 1 ∧ s.job = none ∧ (s.time.ppsSeen = true → s.time.ppsTick + 221184000 ≤
        s.drone.ticks) →
      ∃ t, exec (.ppsInEdge) s = .next t ∧ t.getF Reg.ppsInNs = s.nowNs % 1000000000 ∧ t.getF Reg.ppsInCount =
        (s.getF Reg.ppsInCount + 1) % 2 ^ 32 ∧ t.getF Reg.timeStatusPpsMissing = 0 ∧ t.time =
        { s.time with ppsTick := s.drone.ticks, ppsSeen := true, ppsWatch := s.drone.ticks, ppsSecLatch := s.nowNs / 1000000000 }
        ∧ s.regsBut t [Reg.ppsInNs, Reg.ppsInCount, Reg.timeStatusPpsMissing] ∧ s.sameMemories t ∧ s.sameRoles t
        ∧ t.dev = s.dev ∧ t.journal = s.journal) ∧
    (s.phase = .run ∧ s.getF Reg.ppsInEn = 1 ∧ s.time.ppsSeen = true ∧ s.drone.ticks < s.time.ppsTick + 221184000 →
      ∃ t, exec (.ppsInEdge) s = .next t ∧ t.getF (Reg.ptpCount 5) = min (s.getF (Reg.ptpCount 5) + 1) (2 ^ 32 -
        1) ∧ s.onlyRegs t [Reg.ptpCount 5]) ∧
    (s.getF Reg.ppsInEn = 0 →
      ∃ t, exec (.ppsInEdge) s = .next t ∧ s.onlyRegs t []) ∧
    (s.phase = .run ∧ s.getF Reg.ppsInEn = 1 ∧ s.getF Reg.timeStatusPpsMissing = 0 ∧ s.beyondFret (s.tickNs
        (s.time.ppsWatch + 270336000)) = false →
      ∃ t, exec (.ppsMissing) s = .next t ∧ t.getF Reg.timeStatusPpsMissing = 1 ∧ t.event 26 ∧ t.drone.ticks =
        max s.drone.ticks (s.time.ppsWatch + 270336000) ∧ s.sameMemories t ∧ s.sameRoles t ∧ t.dev = s.dev ∧
        t.journal = s.journal) ∧
    (∀ (d : Int) (k : Nat), s.phase = .run ∧ s.getF Reg.ppsOutEn = 1 ∧ s.getF Reg.timeStatusState ≠ 0 ∧ s.getF
        Reg.ppsOutOffset = (d % 2 ^ 32).toNat ∧ -999999999 ≤ d ∧ d ≤ 999999999 ∧ 0 ≤ k * 1000000000 + d ∧ (k *
        1000000000 + d ≤ s.nowNs ∧ s.time.now < (k * 1000000000 + d) * 2 ^ 32 + s.inc ∧ s.time.ppsRose ≠ s.drone.ticks
        + 1 ∨ s.nowNs < k * 1000000000 + d ∧ k * 1000000000 + d ≤ s.nowNs + 1000000000 ∧ ((k * 1000000000 + d -
        1000000000) * 2 ^ 32 + s.inc ≤ s.time.now ∨ s.time.ppsRose = s.drone.ticks + 1)) ∧ s.beyondFret (k *
        1000000000 + d).toNat = false →
      ∃ t, exec (.ppsOut) s = .next t ∧ t.time.ppsOut = t.drone.ticks + (1000 * max 1 (s.getF Reg.ppsOutWidth) *
        24576 + 99999) / 100000 ∧ t.time.ppsRose = t.drone.ticks + 1 ∧ (0 < s.inc → k * 1000000000 + d ≤
        t.nowNs) ∧ s.sameMemories t ∧ s.sameRoles t ∧ t.dev = s.dev ∧ t.journal = s.journal)

/-- For a port whose access is carried out at once: a write of an argument word changes exactly the enabled bytes; a
write to an address without a register, to a domain that is neither On nor Gated, or to a field that the port's role
may not change has no effect and is logged with its cause; a write of EVENTS.ENABLE changes it and writes a
FIELD_WRITE record if it changed; a write of a budget row goes to the shadow copies and notes the commit that will
take it, and the active copies stay; ARM and DISARM set and clear ARM; CLAIM takes a free claim and RELEASE gives
back the port's own; a write of 1s to EVENTS.STATUS clears just those bits; clearing a vector's Mask sends its
withheld message if its condition still holds; and PCIE_RESET resets the MSI-X table, ends the PCIe session and its
claim. Each leaves every other register as it was where nothing else waits for a write. Conventions of the model it
rests on: log entries 19, 145, 146, 147, 150. -/
def Obligations.HostRegisterWrites : Prop :=
  ∀ (p : Port) (s : State),
    (∀ (addr : BitVec 26) (value : Word) (be : BitVec 4) (k : Fin 16), s.ready p ∧ s.job = none ∧ s.portFree p ∧
        addr.toNat = 0x80 + 4 * k →
      ∃ t, exec (.registerWrite p addr value be) s = .next t ∧ (∀ i ∈ List.range 32, testBit (t.argW k) i = (if
        be.getLsbD (i / 8) then value.getLsbD i else testBit (s.argW k) i)) ∧ t.job = none ∧ s.onlyRegs t
        [Reg.arg k]) ∧
    (∀ (addr : BitVec 26) (value : Word) (be : BitVec 4), s.portFree p ∧ isRegister addr.toNat = false →
      ∃ t, exec (.registerWrite p addr value be) s = .next t ∧ s.loggedAs t p addr.toNat 1 4 ∧ s.onlyRegs t
        accessLogRegs) ∧
    (∀ (addr : BitVec 26) (value : Word) (be : BitVec 4), s.portFree p ∧ isRegister addr.toNat = true ∧ (∀ d ∈
        regDomains addr.toNat, s.domain d ≠ .on ∧ s.domain d ≠ .gated) →
      ∃ t, exec (.registerWrite p addr value be) s = .next t ∧ s.loggedAs t p addr.toNat 1 3 ∧ s.onlyRegs t
        accessLogRegs) ∧
    (∀ (addr : BitVec 26) (value : Word) (be : BitVec 4), s.portFree p ∧ addr.toNat = 0x180024 ∧ be.getLsbD 0 = true
        ∧ (s.session p).role ≠ some .operator →
      ∃ t, exec (.registerWrite p addr value be) s = .next t ∧ s.loggedAs t p 0x180024 1 1 ∧ t.inc = s.inc ∧
        t.journal = s.journal ∧ s.hostWrote t accessLogRegs) ∧
    (∀ (addr : BitVec 26) (value : Word) (be : BitVec 4) (k : Fin 4), s.portFree p ∧ s.mayRecord ∧ addr.toNat =
        0x100010 + 4 * k ∧ be = 15 ∧ RoleRule.permits .keylessBoth s.dev (s.session p).role = true →
      ∃ t, exec (.registerWrite p addr value be) s = .next t ∧ t.getF (Reg.evEnable k) = value.toNat ∧ (s.getF
        (Reg.evEnable k) ≠ value.toNat → s.recorded t 1 8 (sessionRole (s.session p))) ∧ (s.getF (Reg.evEnable
        k) = value.toNat → t.journal = s.journal) ∧ s.hostWrote t [Reg.evEnable k]) ∧
    (∀ (addr : BitVec 26) (value : Word) (be : BitVec 4) (c : Fin 16) (r : Fin 5), s.portFree p ∧ addr.toNat =
        0x200000 + 0x20 * c + 4 * r ∧ be = 15 ∧ (s.session p).role = some .operator →
      ∃ t, exec (.shadowWrite p addr value be) s = .next t ∧ t.getSh (Reg.budgetClassFloor c r) = value.toNat %
        65536 ∧ t.getSh (Reg.budgetClassCeil c r) = value.toNat / 65536 ∧ (s.inert → ∀ f : Fld, f.key ≠
        (Reg.budgetClassFloor c r).key → f.key ≠ (Reg.budgetClassCeil c r).key → t.getSh f = s.getSh f) ∧ t.getF
        (Reg.budgetClassFloor c r) = s.getF (Reg.budgetClassFloor c r) ∧ t.getF (Reg.budgetClassCeil c r) =
        s.getF (Reg.budgetClassCeil c r) ∧ t.getF (if p = .pcie then Reg.shadowWseqPcie else Reg.shadowWseqQspi)
        = (s.getF Reg.shadowSeq + 1) % 65536 ∧ t.journal = s.journal ∧ s.hostWrote t [if p = .pcie then
        Reg.shadowWseqPcie else Reg.shadowWseqQspi]) ∧
    (s.portFree p ∧ s.mayRecord ∧ ((s.session p).role = some .installer ∨ (s.session p).role = some .operator) →
      ∃ t, exec (.commitArm p) s = .next t ∧ t.getF Reg.commitCtrlArm = 1 ∧ (s.getF Reg.commitCtrlArm = 0 →
        s.recorded t 1 8 (sessionRole (s.session p))) ∧ s.hostWrote t [Reg.commitCtrlArm]) ∧
    (s.portFree p ∧ s.mayRecord ∧ ((s.session p).role = some .installer ∨ (s.session p).role = some .operator) →
      ∃ t, exec (.commitDisarm p) s = .next t ∧ t.getF Reg.commitCtrlArm = 0 ∧ s.hostWrote t
        [Reg.commitCtrlArm]) ∧
    (s.portFree p →
      ∃ t, exec (.cmdClaim p) s = .next t ∧ (s.getF Reg.cmdClaimOwner = 0 → t.getF Reg.cmdClaimOwner = 1 +
        portCode p) ∧ (s.getF Reg.cmdClaimOwner = 1 ∨ s.getF Reg.cmdClaimOwner = 2 → t.getF Reg.cmdClaimOwner =
        s.getF Reg.cmdClaimOwner) ∧ s.onlyRegs t [Reg.cmdClaimOwner]) ∧
    (s.portFree p →
      ∃ t, exec (.cmdRelease p) s = .next t ∧ (s.getF Reg.cmdClaimOwner = 1 + portCode p → t.getF
        Reg.cmdClaimOwner = 0) ∧ (s.getF Reg.cmdClaimOwner ≠ 1 + portCode p → t.getF Reg.cmdClaimOwner = s.getF
        Reg.cmdClaimOwner) ∧ s.onlyRegs t [Reg.cmdClaimOwner]) ∧
    (∀ (w : Fin 4) (mask : Word), s.portFree p ∧ s.inert ∧ s.jobWaits ∧ ((s.session p).role ≠ none ∨ s.dev = .bare ∨
        s.dev = .unlathed ∨ s.dev = .fault) →
      ∃ t, exec (.eventsStatusClear p w mask) s = .next t ∧ (∀ i ∈ List.range 32, testBit (t.getF (Reg.evStatus
        w)) i = (testBit (s.getF (Reg.evStatus w)) i && !mask.getLsbD i)) ∧ t.journal = s.journal ∧ s.hostWrote
        t [Reg.evStatus w]) ∧
    (∀ (v : Fin 32), s.portFree .pcie ∧ s.getF (Reg.msixControlMask v) = 1 →
      ∃ t, exec (.msixUnmask v) s = .next t ∧ t.getF (Reg.msixControlMask v) = 0 ∧ v.val ∉ t.events.withheld ∧
        (s.inert → v.val ∈ s.events.withheld → s.vectorTrue v = true → v.val ∈ t.out.msix) ∧ t.journal =
        s.journal ∧ s.hostWrote t [Reg.msixControlMask v]) ∧
    (s.portFree .pcie →
      ∃ t, exec (.pcieReset) s = .next t ∧ (∀ v ∈ List.range 32, t.getF (Reg.msixControlMask v) = 1 ∧ t.getF
        (Reg.msixAddrLo v) = 0 ∧ t.getF (Reg.msixAddrHi v) = 0 ∧ t.getF (Reg.msixData v) = 0) ∧ t.pcie.role =
        none ∧ t.qspi.role = s.qspi.role ∧ (s.getF Reg.cmdClaimOwner = 1 → t.getF Reg.cmdClaimOwner = 0) ∧
        (s.getF Reg.cmdClaimOwner = 2 → t.getF Reg.cmdClaimOwner = 2) ∧ (s.pcie.role ≠ none → s.mayRecord →
        s.recorded t 1 7 (sessionRole s.pcie)) ∧ t.dev = s.dev ∧ t.lath = s.lath ∧ s.otherMemories t .spine)

/-- For a port whose access is carried out at once: reading TIME.NOW_NS answers with the nanoseconds of the second and
latches NOW_SEC and NOW_FRAC; reading PPS_IN_NS latches PPS_IN_SEC; reading TXTS_ID answers with the ID of the head
timestamp and latches its time, and with EMPTY where the queue is empty; reading MEMINT.LOG_ADDR answers with the
head record's address and latches LOG_INFO and LOG_TIME; reading a slot's ACC_LO latches ACC_HI, with the count of
summed outputs. Each changes the latched registers alone. TXTS_POP and LOG_POP of a port with role installer or
operator remove the head. A read of a register that does not exist answers with no effect and is logged. Conventions
of the model it rests on: log entries 145, 146, 155. -/
def Obligations.HostReadsLatchAndPop : Prop :=
  ∀ (p : Port) (s : State),
    (∀ (addr : BitVec 26), s.portFree p ∧ addr = 0x180004 →
      ∃ t, exec (.latchingRead p addr) s = .next t ∧ t.answered p 0 (s.nowNs % 1000000000) ∧ t.getF Reg.nowSecLo
        = s.nowNs / 1000000000 % 2 ^ 32 ∧ t.getF Reg.nowSecHi = s.nowNs / 1000000000 / 2 ^ 32 % 2 ^ 16 ∧ t.getF
        Reg.nowFrac = s.time.now % 2 ^ 32 ∧ s.onlyRegs t [Reg.nowSecLo, Reg.nowSecHi, Reg.nowFrac]) ∧
    (∀ (addr : BitVec 26), s.portFree p ∧ addr = 0x180208 →
      ∃ t, exec (.latchingRead p addr) s = .next t ∧ t.answered p 0 (s.getF Reg.ppsInNs) ∧ t.getF Reg.ppsInSecLo
        = s.time.ppsSecLatch % 2 ^ 32 ∧ t.getF Reg.ppsInSecHi = s.time.ppsSecLatch / 2 ^ 32 % 2 ^ 16 ∧
        s.onlyRegs t [Reg.ppsInSecLo, Reg.ppsInSecHi]) ∧
    (∀ (addr : BitVec 26), s.portFree p ∧ isRegister addr.toNat = false →
      ∃ t, exec (.latchingRead p addr) s = .next t ∧ t.answered p 4 0 ∧ s.loggedAs t p addr.toNat 0 4 ∧
        s.onlyRegs t accessLogRegs) ∧
    (∀ (e : Nat × Nat) (l : List (Nat × Nat)), s.portFree p ∧ s.time.txts = e :: l →
      ∃ t, exec (.txtsIdRead p) s = .next t ∧ t.answered p 0 e.1 ∧ t.getF Reg.txtsNs = e.2 % 1000000000 ∧ t.getF
        Reg.txtsSecLo = e.2 / 1000000000 % 2 ^ 32 ∧ t.getF Reg.txtsSecHi = e.2 / 1000000000 / 2 ^ 32 % 2 ^ 16 ∧
        s.onlyRegs t [Reg.txtsNs, Reg.txtsSecLo, Reg.txtsSecHi]) ∧
    (s.portFree p ∧ s.time.txts = [] →
      ∃ t, exec (.txtsIdRead p) s = .next t ∧ t.answered p 0 65536 ∧ s.onlyRegs t []) ∧
    (s.portFree p ∧ ((s.session p).role = some .installer ∨ (s.session p).role = some .operator) →
      ∃ t, exec (.txtsPop p) s = .next t ∧ t.time = { s.time with txts := s.time.txts.drop 1 } ∧ t.journal =
        s.journal ∧ s.hostWrote t []) ∧
    (∀ (e : ErrRec) (l : List ErrRec), s.portFree p ∧ s.memint.log = e :: l →
      ∃ t, exec (.logAddrRead p) s = .next t ∧ t.answered p 0 (e.addr % 2 ^ 24) ∧ t.getF Reg.logInfoMem = e.mem
        % 8 ∧ t.getF Reg.logInfoKind = e.kind % 8 ∧ t.getF Reg.logInfoReq = e.req % 16 ∧ t.getF
        Reg.logInfoSymbol = e.symbol % 128 ∧ t.getF Reg.logTimeShort = e.time % 2 ^ 32 ∧ t.memint = s.memint ∧
        s.onlyRegs t [Reg.logInfoMem, Reg.logInfoKind, Reg.logInfoReq, Reg.logInfoSymbol, Reg.logTimeShort]) ∧
    (s.portFree p ∧ s.memint.log = [] →
      ∃ t, exec (.logAddrRead p) s = .next t ∧ t.answered p 0 (2 ^ 31) ∧ s.onlyRegs t []) ∧
    (s.portFree p ∧ ((s.session p).role = some .installer ∨ (s.session p).role = some .operator) →
      ∃ t, exec (.logPop p) s = .next t ∧ t.memint = { s.memint with log := s.memint.log.drop 1 } ∧ t.journal =
        s.journal ∧ s.hostWrote t []) ∧
    (∀ (x : Fin 2) (slot : Fin 16), s.portFree p ∧ s.reached .monitor = true →
      ∃ t, exec (.accLoRead p x slot) s = .next t ∧ t.answered p 0 (s.getF (Reg.slotAccLo x slot)) ∧ t.getF
        (Reg.slotAccHi x slot) = (((s.slot x slot).sum % 2 ^ 48).toNat / 2 ^ 32 + (s.slot x slot).count * 65536)
        % 2 ^ 32 ∧ s.onlyRegs t [Reg.slotAccHi x slot])

/-- For a port none of whose accesses waits, while the fret covers the words it touches for HOSTACC: a window read of a
clean word of capture memory answers with its dword; a poisoned or uncorrectable word answers poisoned; a write to
clean capture words outside a running load stores its bytes alone; an allowed write of host stencil rows stores its
bytes and a write to a scheduler's row is refused and counted; a write to the registry window is counted and stores
nothing; a write to the Faeror window by role operator reaches the data memory of the selected operator core, and by
any other role stores nothing. Without grains the access waits and class 10 is exhausted. DRONE_READ answers in
every state, and a read of WAKE_COUNT_LO latches HI; SPACE_READ answers a register with its status byte, and with no
effect at an address that is not a multiple of 4 or while the spine does not run; SPACE_WRITE writes registers, and
is dropped and counted while the spine does not run. Conventions of the model it rests on: log entries 78, 145, 151,
152. -/
def Obligations.HostWindowsAndFrames : Prop :=
  ∀ (p : Port) (s : State),
    (∀ (offset : Nat), s.portFree p ∧ 0x1000000 ≤ offset ∧ offset < 0x1400000 ∧ s.dev ≠ .lightHold ∧ s.covers 10 4 1
        = true ∧ s.wordMark .capture ((offset - 0x1000000) / 32) = .clean →
      ∃ t, exec (.hostWindowRead p offset) s = .next t ∧ t.answered p 0 (ofLe (s.bytesAt .capture ((offset -
        0x1000000) / 4 * 4) 4)) ∧ s.hostGrain t 4 ∧ s.onlyRegs t []) ∧
    (∀ (offset : Nat), s.portFree p ∧ 0x1000000 ≤ offset ∧ offset < 0x1400000 ∧ s.dev ≠ .lightHold ∧ s.covers 10 4 1
        = true ∧ (s.wordMark .capture ((offset - 0x1000000) / 32) = .poisoned ∨ s.wordMark .capture ((offset -
        0x1000000) / 32) = .uncorrectable) →
      ∃ t, exec (.hostWindowRead p offset) s = .next t ∧ t.answered p 3 (ofLe (s.bytesAt .capture ((offset -
        0x1000000) / 4 * 4) 4)) ∧ t.event 97 ∧ t.getF (Reg.memUeUeRead 2) = min (s.getF (Reg.memUeUeRead 2) + 1)
        65535 ∧ s.onlyRegs t [Reg.memUeUeRead 2, Reg.logStatusLost, Reg.evStatus 3]) ∧
    (∀ (offset : Nat), s.portFree p ∧ 0x1000000 ≤ offset ∧ offset < 0x1400000 ∧ s.dev ≠ .lightHold ∧ s.mayUse 10 4 =
        false ∧ s.part 10 4 = 0 →
      ∃ t, exec (.hostWindowRead p offset) s = .next t ∧ t.hostQueue = s.hostQueue ++ [⟨p, .winRead (offset / 4
        * 4)⟩] ∧ t.out.reads = [] ∧ t.out.qspi = [] ∧ testBit (t.getF Reg.exhausted) 10 = true ∧ s.onlyRegs t
        [Reg.exhausted, Reg.exhaustedNow]) ∧
    (∀ (offset : Nat) (bytes : List Byte), s.portFree p ∧ 0x1000000 ≤ offset ∧ offset + bytes.length ≤ 0x1400000 ∧
        bytes ≠ [] ∧ s.dev ≠ .lightHold ∧ s.covers 10 4 ((offset % 32 + bytes.length + 31) / 32) = true ∧ s.loadRange
        = none ∧ s.cleanAt .capture (offset - 0x1000000) bytes.length →
      ∃ t, exec (.hostWindowWrite p offset bytes) s = .next t ∧ t.bytesAre .capture (offset - 0x1000000)
        bytes.length (fun i => bytes.getD i 0) ∧ s.sameBytesBut t .capture (offset - 0x1000000) bytes.length ∧
        s.otherMemories t .capture ∧ s.regsBut t [] ∧ s.sameRoles t ∧ s.sameEngines t) ∧
    (∀ (offset : Nat) (bytes : List Byte), s.portFree p ∧ s.reached .spectral = true ∧ s.dev ≠ .lightHold ∧ s.covers
        10 3 ((offset % 32 + bytes.length + 31) / 32) = true ∧ bytes ≠ [] ∧ offset + bytes.length ≤ 0x20000 ∧
        (s.session p).role = some .operator ∧ (∀ i ∈ List.range bytes.length, s.rowInUse ((offset + i) / 256) = false)
        ∧ s.cleanAt .stencil offset bytes.length →
      ∃ t, exec (.stencilHostWrite p offset bytes) s = .next t ∧ t.bytesAre .stencil offset bytes.length (fun i
        => bytes.getD i 0) ∧ s.sameBytesBut t .stencil offset bytes.length ∧ s.otherMemories t .stencil ∧
        s.regsBut t [] ∧ s.sameRoles t ∧ s.sameEngines t) ∧
    (∀ (offset : Nat) (bytes : List Byte), s.portFree p ∧ s.reached .spectral = true ∧ s.dev ≠ .lightHold ∧ s.covers
        10 3 ((offset % 32 + bytes.length + 31) / 32) = true ∧ bytes ≠ [] ∧ 0x20000 ≤ offset ∧ offset + bytes.length ≤
        0x100000 →
      ∃ t, exec (.stencilHostWrite p offset bytes) s = .next t ∧ t.getF Reg.spectralCountsRefusedWrites = min
        (s.getF Reg.spectralCountsRefusedWrites + 1) 65535 ∧ s.onlyRegs t [Reg.spectralCountsRefusedWrites]) ∧
    (∀ (offset : Nat) (bytes : List Byte), s.portFree p ∧ s.reached .registry = true ∧ s.dev ≠ .lightHold ∧ s.covers
        10 0 ((offset % 32 + bytes.length + 31) / 32) = true ∧ bytes ≠ [] →
      ∃ t, exec (.registryWindowWrite p offset bytes) s = .next t ∧ t.getF (Reg.registryCount 9) = min (s.getF
        (Reg.registryCount 9) + 1) (2 ^ 32 - 1) ∧ s.onlyRegs t [Reg.registryCount 9]) ∧
    (∀ (offset n : Nat) (bytes : List Byte), s.portFree p ∧ s.reached .faeror = true ∧ s.dev ≠ .lightHold ∧ s.covers
        10 4 ((offset % 32 + bytes.length + 31) / 32) = true ∧ bytes ≠ [] ∧ offset + bytes.length ≤ 0x20000 ∧ s.getF
        Reg.faerorWindowCore = n ∧ n < 24 ∧ (s.core n).operator = true ∧ (s.session p).role = some .operator ∧
        s.cleanAt .faData (131072 * n + offset) bytes.length →
      ∃ t, exec (.faerorWindowWrite p offset bytes) s = .next t ∧ t.bytesAre .faData (131072 * n + offset)
        bytes.length (fun i => bytes.getD i 0) ∧ s.sameBytesBut t .faData (131072 * n + offset) bytes.length ∧
        s.otherMemories t .faData ∧ s.regsBut t [] ∧ s.sameRoles t ∧ s.sameEngines t) ∧
    (∀ (offset n : Nat) (bytes : List Byte), s.portFree p ∧ s.reached .faeror = true ∧ s.dev ≠ .lightHold ∧ s.covers
        10 4 ((offset % 32 + bytes.length + 31) / 32) = true ∧ s.getF Reg.faerorWindowCore = n ∧ (s.core n).operator =
        true ∧ (s.session p).role ≠ some .operator →
      ∃ t, exec (.faerorWindowWrite p offset bytes) s = .next t ∧ s.onlyRegs t []) ∧
    (∀ (offset : BitVec 8) (words : Nat), offset = 0 ∧ words = 1 →
      ∃ t, exec (.droneRead offset words) s = .next t ∧ t.out.qspi = leBytes 4 0x64640A01 ∧ t.drone =
        { s.drone with resetEnabled := false } ∧ s.regsBut t [] ∧ s.sameMemories t ∧ s.sameRoles t) ∧
    (∀ (offset : BitVec 8) (words : Nat), offset = 0x18 ∧ words = 2 →
      ∃ t, exec (.droneRead offset words) s = .next t ∧ t.out.qspi = leBytes 4 (s.wakeCount % 2 ^ 32) ++ leBytes
        4 (s.wakeCount / 2 ^ 32) ∧ t.drone =
        { s.drone with resetEnabled := false, countHi := s.wakeCount / 2 ^ 32 } ∧ s.regsBut t [] ∧
        s.sameMemories t ∧ s.sameRoles t) ∧
    (∀ (offset : BitVec 8) (words : Nat), offset = 0x14 ∧ words = 1 →
      ∃ t, exec (.droneRead offset words) s = .next t ∧ t.out.qspi = leBytes 4 ((if s.phase = .deepHold then 1
        else if s.spineRuns = true then 0 else if s.phase = .reset .deepWake then 2 else 3) + 256 *
        s.drone.wakeCause.code) ∧ s.regsBut t [] ∧ s.sameMemories t ∧ s.sameRoles t) ∧
    (∀ (addr : Word) (words : Nat), s.portFree .qspi ∧ addr = 4 ∧ words = 1 →
      ∃ t, exec (.spaceRead addr words) s = .next t ∧ t.answered .qspi 0 s.dev.code ∧ s.regsBut t [] ∧
        s.sameMemories t ∧ s.sameRoles t ∧ t.dev = s.dev) ∧
    (∀ (addr : Word) (words : Nat), words = 1 ∧ (∀ q ∈ s.hostQueue, q.port ≠ .qspi) ∧ s.noneDue ∧ (s.phase =
        .deepHold ∨ addr.toNat % 4 ≠ 0) →
      ∃ t, exec (.spaceRead addr words) s = .next t ∧ t.answered .qspi 4 0 ∧ s.regsBut t [] ∧ s.sameMemories t ∧
        s.sameRoles t ∧ t.dev = s.dev) ∧
    (∀ (addr : Word) (data : List Word) (k : Fin 16) (v : Word), s.ready .qspi ∧ s.portFree .qspi ∧ s.job = none ∧
        addr.toNat = 0x80 + 4 * k ∧ data = [v] →
      ∃ t, exec (.spaceWrite addr data) s = .next t ∧ t.argW k = v.toNat ∧ s.regsBut t [Reg.arg k] ∧
        s.sameMemories t ∧ s.sameRoles t ∧ t.dev = s.dev) ∧
    (∀ (addr : Word) (data : List Word), s.spineRuns = false →
      ∃ t, exec (.spaceWrite addr data) s = .next t ∧ t.drone =
        { s.drone with resetEnabled := false, writesDropped := if data = [] then s.drone.writesDropped else min 65535 (s.drone.writesDropped + data.length) }
        ∧ s.regsBut t [] ∧ s.sameMemories t ∧ s.sameRoles t ∧ t.dev = s.dev)

/-- For a port whose access is carried out at once, with the role that may change the field, the block's domain reached
and room in the journal: RUN starts a halted operator core at ENTRY with START 2, or halts a running one with cause
HOST; DOORBELL sets DBELL and makes line 0 pending; a bias CODE is staged and WRITTEN set, a changed RANGE drives
the safe output for 2 us, and a strobe loads the written codes and completes a tile whose two codes are applied;
REQ_BANK requests or cancels a bank switch; a DPD coefficient of an idle bank is written and of any other refused
and counted; LENGTH applies at once or is held while the channel runs; INC_HI applies the clamped increment with the
last INC_LO; a compare is armed; a one-way delay request is sent; ENABLE lets a refused pair be tried again or
leaves the pair; SKIM_EN restarts Skim at word 0; MUTE opens the switch at once. No other register changes where
nothing else waits for a write. Conventions of the model it rests on: log entries 19, 65, 145, 154. -/
def Obligations.BlockRegisterWrites : Prop :=
  ∀ (p : Port) (s : State),
    (∀ (n : Fin 24), s.portFree p ∧ s.reached .faeror = true ∧ (s.session p).role = some .operator ∧ (s.core
        n).operator = true ∧ (s.core n).loaded = true ∧ (s.core n).run = .halted ∧ s.mayUse 15 1 = true →
      ∃ t, exec (.faRun p n) s = .next t ∧ t.core n =
        { Core.blank with run := .running, loaded := true, operator := true, entry := (s.core n).entry, pc := (s.core n).entry % 16384, cls := 15, start := 2, irq := (s.core n).irq, haltPc := (s.core n).haltPc, cause := (s.core n).cause, haltAddr := (s.core n).haltAddr, restarts := (s.core n).restarts, cycles := (s.core n).cycles, inFret := (s.core n).inFret }
        ∧ (∀ k, k ≠ n.val → t.core k = s.core k) ∧ t.journal = s.journal ∧ s.hostWrote t []) ∧
    (∀ (n : Fin 24), s.portFree p ∧ s.reached .faeror = true ∧ (s.session p).role = some .operator ∧ (s.core
        n).operator = true ∧ (s.core n).run ≠ .halted →
      ∃ t, exec (.faHostHalt p n) s = .next t ∧ (t.core n).run = .halted ∧ (t.core n).cause = 2 ∧ (t.core
        n).haltPc = (s.core n).pc ∧ (t.core n).haltAddr = (s.core n).haltAddr ∧ (t.core n).late = [] ∧ (∀ k, k ≠
        n.val → t.core k = s.core k) ∧ t.journal = s.journal ∧ s.hostWrote t [Reg.evStatus 2]) ∧
    (∀ (n : Fin 24) (v : Word), s.portFree p ∧ s.reached .faeror = true ∧ (s.session p).role = some .operator ∧
        (s.core n).operator = true →
      ∃ t, exec (.doorbell p n v) s = .next t ∧ t.core n =
        { s.core n with dbell := v, irq := (s.core n).irq ||| 1 } ∧ (∀ k, k ≠ n.val → t.core k = s.core k) ∧
        t.journal = s.journal ∧ s.hostWrote t []) ∧
    (∀ (k : Fin 16) (c : BitVec 12), s.portFree p ∧ s.mayRecord ∧ s.reached .monitor = true ∧ (s.session p).role =
        some .installer ∧ s.getF (Reg.biasRange k) ≤ 1 →
      ∃ t, exec (.biasCodeWrite p k c) s = .next t ∧ t.getF (Reg.biasCode k) = c.toNat ∧ t.getF (Reg.biasWritten
        k) = 1 ∧ t.getF (Reg.biasCodeActive k) = s.getF (Reg.biasCodeActive k) ∧ t.getF (Reg.biasRange k) =
        s.getF (Reg.biasRange k) ∧ t.bias = s.bias ∧ s.hostWrote t [Reg.biasCode k, Reg.biasWritten k]) ∧
    (∀ (k : Fin 16) (r : Bool), s.portFree p ∧ s.mayRecord ∧ s.reached .monitor = true ∧ (s.session p).role = some
        .installer ∧ s.getF (Reg.biasCode k) < 4096 ∧ s.getF (Reg.biasRange k) = (if r then 0 else 1) →
      ∃ t, exec (.biasRangeWrite p k r) s = .next t ∧ t.getF (Reg.biasRange k) = (if r then 1 else 0) ∧ t.getF
        (Reg.biasCode k) = s.getF (Reg.biasCode k) ∧ t.getF (Reg.biasSafe k) = 1 ∧ t.getF (Reg.biasCodeActive k)
        = (if s.drone.straps.biasSafe.val = 1 ∨ s.drone.straps.biasSafe.val = 2 then 4095 else 0) ∧ t.getF
        (Reg.tileStatusBiasReady (k / 2)) = 0 ∧ t.inSafeHold k = true ∧ t.getF (Reg.tileStatusDrain (k / 2)) = 0
        ∧ s.hostWrote t [Reg.biasRange k, Reg.biasWritten k, Reg.biasSafe k, Reg.biasCodeActive k,
        Reg.tileStatusBiasReady (k / 2)]) ∧
    (s.portFree p ∧ s.mayRecord ∧ s.reached .monitor = true ∧ (s.session p).role = some .installer ∧ s.getF
        Reg.biasLoadFretStrobe ≤ 1 →
      ∃ t, exec (.biasStrobe p) s = .next t ∧ (∀ k ∈ List.range 16, (s.inSafeHold k = true → (t.biasOf
        k).strobed = true ∧ t.getF (Reg.biasCodeActive k) = s.getF (Reg.biasCodeActive k)) ∧ (s.inSafeHold k =
        false → s.getF (Reg.biasWritten k) = 1 → t.getF (Reg.biasCodeActive k) = s.getF (Reg.biasCode k) % 4096
        ∧ t.getF (Reg.biasSafe k) = 0) ∧ (s.inSafeHold k = false → s.getF (Reg.biasWritten k) = 0 → (s.biasOf
        k).ranged = false → t.getF (Reg.biasCodeActive k) = s.getF (Reg.biasCodeActive k))) ∧ (∀ h ∈ List.range
        8, s.getF (Reg.biasWritten (2 * h)) = 1 → s.getF (Reg.biasWritten (2 * h + 1)) = 1 → s.inSafeHold (2 *
        h) = false → s.inSafeHold (2 * h + 1) = false → t.getF (Reg.tileStatusBiasReady h) = 1) ∧ s.hostWrote t
        ((List.range 16).map Reg.biasCodeActive ++ (List.range 16).map Reg.biasSafe ++ (List.range 8).map
        Reg.tileStatusBiasReady)) ∧
    (∀ (k : Fin 16) (b : Nat), (s.biasOf k).safeSince = some b ∧ s.beyondFret (s.tickNs (b + 492)) = false →
      ∃ t, exec (.biasSafeHoldEnd k) s = .next t ∧ (t.biasOf k).safeSince = none ∧ (t.biasOf k).strobed = false
        ∧ t.drone.ticks = max s.drone.ticks (b + 492) ∧ ((s.biasOf k).strobed = true → t.getF
        (Reg.biasCodeActive k) = s.getF (Reg.biasCode k) % 4096 ∧ t.getF (Reg.biasSafe k) = 0) ∧ ((s.biasOf
        k).strobed = false → t.getF (Reg.biasCodeActive k) = s.getF (Reg.biasCodeActive k) ∧ t.getF
        (Reg.biasSafe k) = s.getF (Reg.biasSafe k)) ∧ s.sameMemories t ∧ s.sameRoles t ∧ t.dev = s.dev ∧
        t.journal = s.journal) ∧
    (∀ (n : Fin 64) (b : Bool), s.portFree p ∧ s.mayRecord ∧ s.reached (dfeOf (n / 32)) = true ∧ s.underTest n =
        false ∧ ((s.session p).role = some .installer ∨ (s.session p).role = some .operator) →
      ∃ t, exec (.reqBankWrite p n b) s = .next t ∧ t.getF (Reg.txDpdReqBank n) = (if b then 1 else 0) ∧
        (s.timingCarrier.isSome = true → t.getF (Reg.txDpdPending n) = (if s.getF (Reg.txDpdBankActive n) = (if
        b then 1 else 0) then 0 else 1)) ∧ (s.timingCarrier = none → t.getF (Reg.txDpdPending n) = 0 ∧ t.getF
        (Reg.txDpdBankActive n) = (if b then 1 else 0)) ∧ s.hostWrote t [Reg.txDpdReqBank n, Reg.txDpdPending
        n]) ∧
    (∀ (n : Fin 64) (b : Bool) (i : Fin 40) (v : Word), s.portFree p ∧ s.mayRecord ∧ s.reached (dfeOf (n / 32)) =
        true ∧ s.underTest n = false ∧ ((s.session p).role = some .installer ∨ (s.session p).role = some .operator) →
      ∃ t, exec (.dpdCoefWrite p n b i v) s = .next t ∧ (s.bankRefused n (if b then 1 else 0) = false → t.getF
        (if i.val = 0 then Reg.dpd0Re n (if b then 1 else 0) else Reg.dpdIRe n (if b then 1 else 0) (i - 1)) =
        v.toNat % 65536 ∧ t.getF (if i.val = 0 then Reg.dpd0Im n (if b then 1 else 0) else Reg.dpdIIm n (if b
        then 1 else 0) (i - 1)) = v.toNat / 65536 ∧ s.hostWrote t [if i.val = 0 then Reg.dpd0Re n (if b then 1
        else 0) else Reg.dpdIRe n (if b then 1 else 0) (i - 1), if i.val = 0 then Reg.dpd0Im n (if b then 1 else
        0) else Reg.dpdIIm n (if b then 1 else 0) (i - 1)]) ∧ (s.bankRefused n (if b then 1 else 0) = true →
        t.getF (Reg.txDpdRefusedWrites n) = min (s.getF (Reg.txDpdRefusedWrites n) + 1) 255 ∧ t.journal =
        s.journal ∧ s.hostWrote t [Reg.txDpdRefusedWrites n])) ∧
    (∀ (k : Fin 8) (n : BitVec 18), s.portFree p ∧ s.mayRecord ∧ (s.reached .dfeWest = true ∨ s.reached .dfeEast =
        true) ∧ ((s.session p).role = some .installer ∨ (s.session p).role = some .operator) →
      ∃ t, exec (.capLengthWrite p k n) s = .next t ∧ (s.getF (Reg.capStatusRunning k) = 1 → (t.cap k).held =
        some n.toNat ∧ t.getF (Reg.capStatusLenPending k) = 1 ∧ t.getF (Reg.capLengthLength k) = s.getF
        (Reg.capLengthLength k) % 2 ^ 18 ∧ s.hostWrote t [Reg.capLengthLength k, Reg.capStatusLenPending k]) ∧
        (s.getF (Reg.capStatusRunning k) = 0 → t.getF (Reg.capLengthLength k) = n.toNat ∧ (n.toNat ≤ s.getF
        (Reg.capRptrPtr k) → t.getF (Reg.capRptrPtr k) = 0 ∧ t.getF (Reg.capStatusFolded k) = 1 ∧ t.event 58) ∧
        (s.getF (Reg.capRptrPtr k) < n.toNat → t.getF (Reg.capRptrPtr k) = s.getF (Reg.capRptrPtr k)) ∧
        s.hostWrote t [Reg.capLengthLength k, Reg.capRptrPtr k, Reg.capStatusFolded k, Reg.evStatus 1])) ∧
    (∀ (k : Fin 8) (n : Nat), (s.cap k).held = some n ∧ (s.cap k).atEnd = true ∧ n < 2 ^ 18 →
      ∃ t, exec (.capLengthApply k) s = .next t ∧ (t.cap k).held = none ∧ t.getF (Reg.capLengthLength k) = n ∧
        t.getF (Reg.capStatusLenPending k) = 0 ∧ t.getF (Reg.capWptrPtr k) = 0 ∧ (n ≤ s.getF (Reg.capRptrPtr k)
        → t.getF (Reg.capRptrPtr k) = 0 ∧ t.getF (Reg.capStatusFolded k) = 1 ∧ t.event 58) ∧ (s.getF
        (Reg.capRptrPtr k) < n → t.getF (Reg.capRptrPtr k) = s.getF (Reg.capRptrPtr k)) ∧ s.onlyRegs t
        [Reg.capLengthLength k, Reg.capStatusLenPending k, Reg.capWptrPtr k, Reg.capRptrPtr k,
        Reg.capStatusFolded k, Reg.evStatus 1]) ∧
    (∀ (v : Word), s.portFree p ∧ (s.session p).role = some .operator →
      ∃ t, exec (.incHiWrite p v) s = .next t ∧ t.inc = max (0x411AAAAAB - 1747627) (min (0x411AAAAAB + 1747627)
        (v.toNat % 256 * 2 ^ 32 + s.time.incLoBuf)) ∧ t.time = s.time ∧ t.journal = s.journal ∧ s.hostWrote t
        [Reg.incHi, Reg.incLo]) ∧
    (∀ (k : Fin 8) (m : Fin 4), s.portFree p ∧ s.mayRecord ∧ ((s.session p).role = some .installer ∨ (s.session
        p).role = some .operator) ∧ (s.getF (Reg.cmpCtrlArm k) = 0 ∨ s.getF Reg.timeStatusState = 0 ∨ s.nowNs <
        s.cmpFires k) →
      ∃ t, exec (.cmpArm p k m) s = .next t ∧ t.getF (Reg.cmpCtrlArm k) = 1 ∧ t.getF (Reg.cmpCtrlMode k) = m ∧
        t.time.now = s.time.now ∧ (m.val = 2 → s.nowNs < mapGet 0 k t.time.cmpFired * 250000 + min (s.getF
        (Reg.cmpValue k)) 249999 ∧ mapGet 0 k t.time.cmpFired * 250000 ≤ s.nowNs + 250000) ∧ (m.val = 3 →
        s.nowNs < mapGet 0 k t.time.cmpFired * 10000000 + min (s.getF (Reg.cmpValue k)) 9999999 ∧ mapGet 0 k
        t.time.cmpFired * 10000000 ≤ s.nowNs + 10000000) ∧ (m.val < 2 → mapGet 0 k t.time.cmpAt = if 0 ≤
        shortDiff s.short (s.getF (Reg.cmpValue k)) then s.tickNs (s.drone.ticks + 1) else s.nowNs + (s.getF
        (Reg.cmpValue k) + 2 ^ 32 - s.short) % 2 ^ 32) ∧ s.hostWrote t [Reg.cmpCtrlArm k, Reg.cmpCtrlMode k]) ∧
    (s.portFree p ∧ s.reached .link = true ∧ ((s.session p).role = some .installer ∨ (s.session p).role = some
        .operator) ∧ s.getF Reg.owdCtrlBusy = 0 →
      ∃ t, exec (.owdStart p) s = .next t ∧ (s.getF Reg.linkStatusUp = 1 → s.getF Reg.linkStatusBbFound = 1 →
        s.getF Reg.timeStatusState ≠ 0 → t.getF Reg.owdCtrlMeasId = (s.getF Reg.owdCtrlMeasId + 1) % 256 ∧
        t.getF Reg.owdCtrlBusy = 1 ∧ t.fh.owd = some (s.nowNs, s.drone.ticks) ∧ t.out.link = [s.delayMsg s.bbMac
        (beBytes 1 ((s.getF Reg.owdCtrlMeasId + 1) % 256) ++ beBytes 1 0 ++ beBytes 6 (s.nowNs / 1000000000) ++
        beBytes 4 (s.nowNs % 1000000000) ++ beBytes 8 0)]) ∧ (s.getF Reg.linkStatusUp = 0 ∨ s.getF
        Reg.linkStatusBbFound = 0 ∨ s.getF Reg.timeStatusState = 0 → t.getF Reg.owdCtrlTimeout = 1 ∧ t.getF
        Reg.owdCtrlBusy = 0 ∧ t.fh = s.fh) ∧ t.journal = s.journal ∧ s.hostWrote t [Reg.owdCtrlMeasId,
        Reg.owdCtrlBusy, Reg.owdCtrlTimeout]) ∧
    (s.portFree p ∧ s.mayRecord ∧ s.reached .bridge = true ∧ (s.session p).role = some .installer ∧ s.bridge.refused
        = true →
      ∃ t, exec (.bridgeEnableWrite p true) s = .next t ∧ t.getF Reg.bridgeCtrlEnable = 1 ∧ t.bridge.refused =
        false ∧ t.getF Reg.bridgeStatusTrained = 0 ∧ t.getF Reg.bridgeStatusRefuse = 0 ∧ s.hostWrote t
        [Reg.bridgeCtrlEnable, Reg.bridgeStatusTrained, Reg.bridgeStatusRefuse]) ∧
    (s.portFree p ∧ s.mayRecord ∧ s.reached .bridge = true ∧ (s.session p).role = some .installer ∧ s.getF
        Reg.bridgeCtrlEnable = 1 ∧ s.bridge.forwarded = [] ∧ s.bridge.waits = [] →
      ∃ t, exec (.bridgeEnableWrite p false) s = .next t ∧ t.getF Reg.bridgeCtrlEnable = 0 ∧ t.bridge.paired =
        false ∧ t.bridge.mirrorOut = [] ∧ t.getF Reg.bridgeRole = 0 ∧ t.getF Reg.bridgeStatusTrained = 0 ∧
        t.getF Reg.bridgeStatusSynced = 0 ∧ t.getF Reg.bridgeStatusArbitrating = 0 ∧ t.getF
        Reg.bridgeStatusDecidedBy = 0 ∧ (s.getF Reg.bridgeRole ≠ 0 → t.event 85) ∧ s.hostWrote t
        [Reg.bridgeCtrlEnable, Reg.bridgeStatusTrained, Reg.bridgeStatusSynced, Reg.bridgeStatusArbitrating,
        Reg.bridgeStatusDecidedBy, Reg.bridgeRole, Reg.seamOk, Reg.evStatus 2]) ∧
    (∀ (m : BitVec 6), s.portFree p ∧ s.mayRecord ∧ (s.session p).role = some .installer →
      ∃ t, exec (.skimEnWrite p m) s = .next t ∧ t.getF Reg.memintCtrlSkimEn = m.toNat ∧ (∀ i ∈ List.range 6,
        t.getF (Reg.skimPos i) = (if m.getLsbD i then 0 else s.getF (Reg.skimPos i))) ∧ s.hostWrote t
        (Reg.memintCtrlSkimEn :: (List.range 6).map Reg.skimPos)) ∧
    (∀ (n : Fin 64) (b : Bool), s.portFree p ∧ s.mayRecord ∧ s.reached (dfeOf (n / 32)) = true ∧ s.underTest n =
        false ∧ s.underTest n = false ∧ ((s.session p).role = some .installer ∨ (s.session p).role = some .operator) ∧
        s.getSh (Reg.txCtrlCfrEn n) ≤ 1 ∧ s.getSh (Reg.txCtrlDpdEn n) ≤ 1 ∧ s.getF (Reg.txCtrlImageEn n) ≤ 1 ∧ s.getF
        (Reg.txCtrlDcEn n) ≤ 1 ∧ s.getF (Reg.txCtrlMute n) ≤ 1 →
      ∃ t, exec (.muteWrite p n b) s = .next t ∧ t.getF (Reg.txCtrlMute n) = (if b then 1 else 0) ∧ (b = true →
        n.val ∉ t.tx.closed) ∧ t.getF (Reg.txCtrlImageEn n) = s.getF (Reg.txCtrlImageEn n) ∧ t.getF
        (Reg.txCtrlDcEn n) = s.getF (Reg.txCtrlDcEn n) ∧ (s.inert → t.tx.inForce = s.tx.inForce) ∧ s.hostWrote t
        ([Reg.txCtrlMute n, Reg.shadowWseqPcie, Reg.shadowWseqQspi] ++ accessLogRegs))

/-- Where no host access waits and no command runs: FRET_BOUNDARY in a running device outside LIGHT_HOLD carries device
time to the next boundary, unless the boundary of the present fret is still to be carried out, and ends with the
work of the fret in which device time stands then done, so that the next one belongs to a later fret. In LIGHT_HOLD,
and while the spine does not run, none is carried out: no register, memory, role or time changes. Conventions of the
model it rests on: log entries 4, 104, 122. -/
def Obligations.FretBoundaryNumbersTheFret : Prop :=
  ∀ (peaks : List (Fin 64 × Byte)) (far : List (Fin 4)) (s : State),
    (s.phase = .run ∧ s.dev ≠ .lightHold ∧ s.hostQueue = [] ∧ s.job = none ∧ 0 < s.inc →
      ∃ t, exec (.fretBoundary peaks far) s = .next t ∧ t.time.fret = t.nowNs / 250000 ∧ s.time.now ≤ t.time.now
        ∧ (s.nowNs / 250000 ≤ s.time.fret → s.nowNs / 250000 < t.time.fret) ∧ (s.time.fret < s.nowNs / 250000 →
        t.time.now = s.time.now ∧ t.drone.ticks = s.drone.ticks)) ∧
    (s.phase = .run ∧ s.dev ≠ .lightHold ∧ s.hostQueue = [] ∧ s.job = none ∧ s.fh.queue = [] ∧ s.sched.waiting = []
        ∧ s.lath.pending = none ∧ s.getF Reg.sagStatusStage ≠ 4 ∧ 0 < s.inc ∧ s.inc < 2 ^ 40 ∧ s.nowNs / 250000 ≤
        s.time.fret →
      ∃ t, exec (.fretBoundary peaks far) s = .next t ∧ t.drone.ticks = s.drone.ticks + s.ticksTo ((s.nowNs /
        250000 + 1) * 250000) ∧ t.time.now = s.time.now + s.ticksTo ((s.nowNs / 250000 + 1) * 250000) * s.inc ∧
        t.time.fret = s.nowNs / 250000 + 1 ∧ t.phase = .run ∧ t.rx.backedOff = [] ∧ (s.getF Reg.commitCtrlArm =
        1 → s.getF Reg.commitCtrlPoint < 8 → t.getF Reg.commitCtrlArm = 0) ∧ (8 ≤ s.getF Reg.commitCtrlPoint →
        t.getF Reg.commitCtrlArm = s.getF Reg.commitCtrlArm) ∧ (s.dev = .bare ∨ s.dev = .unlathed → t.dev =
        s.dev ∧ t.sched.prep = [] ∧ t.sched.cur.wins = [] ∧ t.sched.cur.fret = s.fretNow + 1)) ∧
    (s.phase ≠ .run ∨ s.dev = .lightHold →
      ∃ t, exec (.fretBoundary peaks far) s = .next t ∧ s.onlyRegs t [])

/-- Where no fret boundary lies before the next symbol start of a carrier that has symbols, SYMBOL_START notes it as
carried out; an uplink symbol's first path sample is noted for the marks of its samples. In LATHED a start of the
timing carrier, without a transform, makes each path's requested pulse set active, and switches a pending DPD bank:
BANK_ACTIVE takes REQ_BANK, PENDING clears, SWITCHES counts and EV_39 is raised. A carrier without symbols changes
nothing. Conventions of the model it rests on: log entries 4, 65, 69, 81. -/
def Obligations.SymbolsStartAndSettingsTakeEffect : Prop :=
  ∀ (c : Fin 4) (runs : List TxRun) (before ended : List RxRun) (s : State),
    (s.symbolsOf 1 c = true ∧ s.dev = .lathed ∧ s.timingCarrier = some c.val ∧ s.getF (Reg.carConfigEnable 1 c) = 0
        ∧ s.beyondFret (max s.nowNs (s.nextSymbol 1 c).ns) = false →
      ∃ t, exec (.symbolStart 1 c runs before ended) s = .next t ∧ mapGet 0 (4 + c) t.spectral.symbols =
        (s.nextSymbol 1 c).ns + 1 ∧ (∀ p ∈ List.range 64, t.getF (Reg.txCfrPulseActive p) = s.getF
        (Reg.txCfrPulseSel p) % 2 ∧ t.getF (Reg.txDpdPending p) ≠ 1 ∧ (s.getF (Reg.txDpdPending p) = 1 → t.getF
        (Reg.txDpdBankActive p) = s.getF (Reg.txDpdReqBank p) % 2 ∧ t.getF (Reg.txDpdSwitches p) = (s.getF
        (Reg.txDpdSwitches p) + 1) % 65536 ∧ t.event 39)) ∧ s.sameMemories t ∧ s.sameRoles t ∧ t.dev = s.dev ∧
        t.journal = s.journal) ∧
    (s.symbolsOf 0 c = true ∧ s.beyondFret (max s.nowNs (s.nextSymbol 0 c).ns) = false →
      ∃ t, exec (.symbolStart 0 c runs before ended) s = .next t ∧ mapGet 0 c t.spectral.symbols = (s.nextSymbol
        0 c).ns + 1 ∧ (mapGet [] c t.spectral.latched).head?.map SymLatch.start = some t.pathSample ∧
        s.sameRoles t ∧ t.dev = s.dev ∧ t.journal = s.journal) ∧
    (∀ (d : Fin 2), s.symbolsOf d c = false →
      ∃ t, exec (.symbolStart d c runs before ended) s = .next t ∧ s.onlyRegs t [])

/-- For a port that may issue it with role installer or operator, RX_SYNC in LATHED or SERVICE waits for the next fret
boundary with its path mask, and changes no register but its status. OVERLOAD_BACKOFF on a path whose half is
powered sets OVERLOAD; where back-off is enabled and the path has not backed off in this fret, it sets BACKOFF,
makes the index 6 higher within MIN_INDEX and MAX_INDEX active, and marks the path's samples from here; else the
gain stays. On a half that is not powered it changes nothing. Conventions of the model it rests on: log entries 62,
63. -/
def Obligations.ReceivePathsSyncAndBackOff : Prop :=
  ∀ (s : State),
    (∀ (p : Port), s.ready p ∧ (s.dev = .lathed ∨ s.dev = .service) ∧ RoleRule.permits .both s.dev (s.session
        p).role = true →
      ∃ t, exec (.rxSync p) s = .next t ∧ s.goesOn t p 0x64 ∧ t.job = some (.rxSync (s.argW 0 + 2 ^ 32 * s.argW
        1)) ∧ s.onlyRegs t []) ∧
    (∀ (p : Fin 64), s.domain (dfeOf (p / 32)) = .on ∧ s.analogOn (p / 32) = true ∧ s.getF (Reg.rxCtrlOvlBackoffEn
        p) = 1 ∧ p.val ∉ s.rx.backedOff ∧ s.getF (Reg.rxAgcMinIndex p) ≤ s.getF (Reg.rxAgcMaxIndex p) →
      ∃ t, exec (.overloadBackoff p) s = .next t ∧ t.getF (Reg.rxStatusOverload p) = 1 ∧ t.getF
        (Reg.rxStatusBackoff p) = 1 ∧ p.val ∈ t.rx.backedOff ∧ t.getF (Reg.rxGainIndexActive p) % 32 = max
        (s.getF (Reg.rxAgcMinIndex p)) (min (s.getF (Reg.rxAgcMaxIndex p)) (s.getF (Reg.rxGainIndexActive p) +
        6)) % 32 ∧ (∃ x ∈ t.rx.spans, x.lo = p ∧ x.hi = p ∧ x.carrier = none ∧ x.cause = .backOff ∧ x.first ≤
        s.pathSample) ∧ s.onlyRegs t [Reg.rxStatusOverload p, Reg.rxStatusBackoff p, Reg.rxGainIndexActive p,
        Reg.rxStatusGainStep p]) ∧
    (∀ (p : Fin 64), s.domain (dfeOf (p / 32)) = .on ∧ s.analogOn (p / 32) = true ∧ (s.getF (Reg.rxCtrlOvlBackoffEn
        p) = 0 ∨ p.val ∈ s.rx.backedOff) →
      ∃ t, exec (.overloadBackoff p) s = .next t ∧ t.getF (Reg.rxStatusOverload p) = 1 ∧ t.rx.backedOff =
        s.rx.backedOff ∧ (∀ x ∈ t.rx.spans, x.cause ≠ .notActive → x ∈ s.rx.spans) ∧ s.onlyRegs t
        [Reg.rxStatusOverload p]) ∧
    (∀ (p : Fin 64), s.analogOn (p / 32) = false →
      ∃ t, exec (.overloadBackoff p) s = .next t ∧ s.onlyRegs t [] ∧ t.rx.backedOff = s.rx.backedOff ∧ (∀ x ∈
        t.rx.spans, x.cause ≠ .notActive → x ∈ s.rx.spans))

/-- In LATHED or SERVICE, for a port and role that may issue it: PATH_FENCE fences the paths of its mask with reason
HOST and leaves the reason of those that are fenced; PATH_UNFENCE takes those whose reason the role may lift to
IDLE, or to CAL where their tile is UP; PATH_PREPARE starts the passes of its IDLE paths and waits for them, or ends
at once where there is none; SYN_HOP at once starts a hop, or a calibration where the store has no entry near
enough, and with a later WHEN holds the hop; SYN_CAL starts a full calibration; SYN_STORE_CLEAR clears a slot that
does not hold the present channel. A lock shows LOCKED, counts the hop and raises EV_33; a fall-back without lock
goes on as a full calibration; an unlock raises EV_32, counts and relocks on the channel without the hop rule; a
failed relock goes OFF with FAILED and fences its half with reason SYNTH. Conventions of the model it rests on: log
entries 5, 68, 70, 73, 75. -/
def Obligations.PathsAndSynthesizers : Prop :=
  ∀ (s : State),
    (∀ (p : Port), s.ready p ∧ (s.dev = .lathed ∨ s.dev = .service ∨ s.dev = .doze) ∧ RoleRule.permits .both s.dev
        (s.session p).role = true →
      ∃ t, exec (.pathFence p) s = .next t ∧ s.ended t p 0x61 0 ∧ s.fencedFor t s.argPaths 1 ∧ s.pathsBut t
        s.argPaths ∧ s.onlyRegs t [Reg.evStatus 1]) ∧
    (∀ (p : Port), s.ready p ∧ (s.dev = .lathed ∨ s.dev = .service) ∧ RoleRule.permits .both s.dev (s.session
        p).role = true →
      ∃ t, exec (.pathUnfence p) s = .next t ∧ s.ended t p 0x62 0 ∧ (∀ q ∈ s.argPaths, s.path q = 5 → (s.getF
        (Reg.pathStateFenceReason q) = 1 ∨ (s.session p).role = some .installer ∧ (s.getF
        (Reg.pathStateFenceReason q) = 5 ∨ s.getF (Reg.pathStateFenceReason q) = 6)) → t.path q = (if s.getF
        (Reg.tileStatusState (q / 8)) = 3 then 1 else 0) ∧ t.getF (Reg.pathStateFenceReason q) = 0) ∧ (∀ q ∈
        List.range 64, s.path q = 5 → q ∉ s.argPaths ∨ s.getF (Reg.pathStateFenceReason q) = 2 ∨ s.getF
        (Reg.pathStateFenceReason q) = 3 ∨ s.getF (Reg.pathStateFenceReason q) = 4 → t.path q = 5) ∧ s.onlyRegs
        t []) ∧
    (∀ (p : Port), s.ready p ∧ (s.dev = .lathed ∨ s.dev = .service) ∧ RoleRule.permits .both s.dev (s.session
        p).role = true ∧ s.deferred 5 = false ∧ (∀ q ∈ s.argPaths, s.path q ≠ 1) →
      ∃ t, exec (.pathPrepare p) s = .next t ∧ ((∃ q ∈ s.argPaths, s.path q = 0) → s.goesOn t p 0x60 ∧ ∀ q ∈
        s.argPaths, s.path q = 0 → t.path q = 1) ∧ ((∀ q ∈ s.argPaths, s.path q ≠ 0) → s.ended t p 0x60 0 ∧
        t.resultsAre [0, 0]) ∧ s.pathsBut t (s.argPaths.filter fun q => s.path q == 0) ∧ s.onlyRegs t []) ∧
    (∀ (p : Port) (m f w : Nat), s.ready p ∧ (s.dev = .lathed ∨ s.dev = .service) ∧ (s.session p).role = some
        .operator ∧ s.argW 0 = m ∧ s.argW 1 = f ∧ s.argW 2 = w ∧ 1 ≤ m ∧ m < 16 ∧ (w = 1 ∨ 8 ≤ w ∧ w ≤ 15) ∧ 600000 ≤
        f ∧ f ≤ 4200000 ∧ (∀ x ∈ List.range 4, testBit m x = true → s.getF (Reg.synBandBandLo x) * 1000 ≤ f ∧ f ≤
        s.getF (Reg.synBandBandHi x) * 1000 ∧ s.getF (Reg.synStatusState x) ≠ 3 ∧ s.getF (Reg.synStatusState x) ≠ 4 ∧
        (s.synth x).pending = none) →
      ∃ t, exec (.synHop p) s = .next t ∧ s.goesOn t p 0x70 ∧ (∀ x ∈ List.range 4, (t.synth x).pending = if
        testBit m x then some (f, w) else (s.synth x).pending) ∧ s.onlyRegs t []) ∧
    (∀ (p : Port) (m f : Nat), s.ready p ∧ (s.dev = .lathed ∨ s.dev = .service) ∧ (s.session p).role = some
        .operator ∧ s.argW 0 = m ∧ s.argW 1 = f ∧ s.argW 2 = 0 ∧ 1 ≤ m ∧ m < 16 ∧ 600000 ≤ f ∧ f ≤ 4200000 ∧ (∀ x ∈
        List.range 4, testBit m x = true → s.getF (Reg.synBandBandLo x) * 1000 ≤ f ∧ f ≤ s.getF (Reg.synBandBandHi x)
        * 1000 ∧ s.getF (Reg.synStatusState x) ≠ 3 ∧ s.getF (Reg.synStatusState x) ≠ 4 ∧ (s.synth x).pending = none) →
      ∃ t, exec (.synHop p) s = .next t ∧ s.goesOn t p 0x70 ∧ (∀ x ∈ List.range 4, testBit m x = true → t.getF
        (Reg.synFreqFreqKhz x) = f ∧ (t.synth x).named = some f ∧ t.getF (Reg.synStatusState x) = (if s.synRule
        x f false = .hop then 4 else 3) ∧ (t.synth x).work = some (s.synRule x f false)) ∧ s.onlyRegs t
        ((List.range 4).map Reg.synFreqFreqKhz ++ (List.range 4).map Reg.synStatusState ++ (List.range 4).map
        Reg.synTxDropDropped ++ [Reg.evStatus 1] ++ (List.range 64).map Reg.rxStatusRetune)) ∧
    (∀ (p : Port) (x : Fin 4) (f : Nat), s.ready p ∧ (s.dev = .lathed ∨ s.dev = .service) ∧ (s.session p).role =
        some .installer ∧ s.argW 0 = x ∧ s.argW 1 = f ∧ s.argW 2 ≤ 1 ∧ 600000 ≤ f ∧ f ≤ 4200000 ∧ s.deferred 5 = false
        ∧ s.getF (Reg.synBandBandLo x) * 1000 ≤ f ∧ f ≤ s.getF (Reg.synBandBandHi x) * 1000 ∧ s.getF
        (Reg.synStatusState x) ≠ 3 ∧ s.getF (Reg.synStatusState x) ≠ 4 ∧ (s.synth x).pending = none ∧ (s.getF
        (Reg.synStatusState x) = 1 → (s.synth x).work = some .hop) →
      ∃ t, exec (.synCal p) s = .next t ∧ s.goesOn t p 0x71 ∧ t.getF (Reg.synFreqFreqKhz x) = f ∧ t.getF
        (Reg.synStatusState x) = 3 ∧ (t.synth x).work = some .full ∧ (t.synth x).cal = some (f, s.argW 2 == 1,
        s.getF (Reg.synFreqFreqKhz x)) ∧ s.onlyRegs t ([Reg.synFreqFreqKhz x, Reg.synStatusState x,
        Reg.synTxDropDropped x, Reg.evStatus 1] ++ (List.range 64).map Reg.rxStatusRetune)) ∧
    (∀ (p : Port) (x : Fin 4) (i : Fin 256), s.ready p ∧ (s.dev = .lathed ∨ s.dev = .service) ∧ (s.session p).role =
        some .installer ∧ s.argW 0 = x ∧ s.argW 1 = i →
      ∃ t, exec (.synStoreClear p) s = .next t ∧ s.ended t p 0x72 0 ∧ (s.synPresent x = some i.val → t.syn =
        s.syn ∧ s.onlyRegs t []) ∧ (s.synPresent x ≠ some i.val → t.getF (Reg.synStore0Valid x i) = 0 ∧ t.getF
        (Reg.synStore0Pinned x i) = 0 ∧ t.getF (Reg.synStore0FreqKhz x i) = 0 ∧ t.getF (Reg.synStore1Stamp x i)
        = 0 ∧ i.val ∉ (t.synth x).drift ∧ i.val ∉ (t.synth x).order ∧ s.onlyRegs t [Reg.synStore0Valid x i,
        Reg.synStore0Pinned x i, Reg.synStore0FreqKhz x i, Reg.synStore1Stamp x i])) ∧
    (∀ (x : Fin 4) (found : Bool), (s.synth x).work = some .hop ∧ s.getF (Reg.synStatusState x) ≠ 0 ∧ (s.synth
        x).cal = none ∧ s.job = none →
      ∃ t, exec (.synLock x found) s = .next t ∧ t.getF (Reg.synStatusState x) = 2 ∧ t.getF (Reg.synStatusFailed
        x) = 0 ∧ t.getF (Reg.synCountsHops x) = (s.getF (Reg.synCountsHops x) + 1) % 65536 ∧ t.event 33 ∧
        (t.synth x).work = none ∧ t.job = none ∧ s.onlyRegs t [Reg.synStatusState x, Reg.synStatusFailed x,
        Reg.synCountsHops x, Reg.synStatusSlot x, Reg.synStatusDrift x, Reg.evStatus 1]) ∧
    (∀ (x : Fin 4) (found : Bool), (s.synth x).work = some .fallback ∧ s.getF (Reg.synStatusState x) ≠ 0 ∧ found =
        false →
      ∃ t, exec (.synLock x found) s = .next t ∧ (t.synth x).work = some .full ∧ s.onlyRegs t []) ∧
    (∀ (x : Fin 4), s.getF (Reg.synStatusState x) = 2 →
      ∃ t, exec (.synUnlock x) s = .next t ∧ t.event 32 ∧ t.getF (Reg.synCountsUnlocks x) = min (s.getF
        (Reg.synCountsUnlocks x) + 1) 255 ∧ t.getF (Reg.synStatusState x) = 3 ∧ (t.synth x).work = some (if
        s.synSlot x (s.getF (Reg.synFreqFreqKhz x)) = none then .full else .fallback) ∧ (t.synth x).relock =
        true ∧ t.getF (Reg.synFreqFreqKhz x) = s.getF (Reg.synFreqFreqKhz x) % 2 ^ 23 ∧ s.onlyRegs t
        ([Reg.synCountsUnlocks x, Reg.synStatusState x, Reg.synFreqFreqKhz x, Reg.synTxDropDropped x,
        Reg.evStatus 1] ++ (List.range 64).map Reg.rxStatusRetune)) ∧
    (∀ (x : Fin 4), (s.synth x).relock = true ∧ (s.synth x).work = some .full →
      ∃ t, exec (.synCalFail x) s = .next t ∧ t.getF (Reg.synStatusState x) = 0 ∧ t.getF (Reg.synStatusFailed x)
        = 1 ∧ (t.synth x).work = none ∧ s.fencedFor t ((List.range 32).map fun i => 32 * (x.val / 2) + i) 4 ∧
        s.pathsBut t ((List.range 32).map fun i => 32 * (x.val / 2) + i) ∧ s.onlyRegs t [Reg.synStatusState x,
        Reg.synStatusFailed x, Reg.evStatus 1])

/-- A tile that arrives goes from ABSENT to DEBOUNCE where presence is sampled and is latched elsewhere; after 10 ms
with AUTO_ENUM set it is enumerated, or joins the queue of its bus; enumeration ends in UP with its identities, or
in REFUSED with a code and its paths fenced, and raises EV_34. TILE_ENUM reports the state and enumerates or queues
a tile that is present and not UP. A tile that leaves, or is released, has its bias safe, WRITTEN and BIAS_READY
clear, its drain low and its paths fenced with reason TILE, and raises EV_35. Once DRAIN_DELAY has passed, the drain
is high just where R203's conditions hold. AERIAL_TUNE waits where an ACTIVE path of its mask has tuner codes, and
else ends at once; RFFE_XFER sends its bytes, or reads free values, or waits while its bus enumerates. A due check
of a path's aerial asks for its observation time, starts with a symbol, and 16 µs later records the return loss or,
where its reference lay below -30 dBFS, asks again; the second low one in a row raises EV_37, counts, and fences
where ACTION says so. Conventions of the model it rests on: log entries 4, 72, 74, 180, 203. -/
def Obligations.TilesAndAerials : Prop :=
  ∀ (s : State),
    (∀ (h : Fin 8), (s.tile h).pin = false →
      ∃ t, exec (.tilePresent h) s = .next t ∧ t.getF (Reg.tileStatusPresent h) = 1 ∧ (t.tile h).pin = true ∧
        (s.inLathedUp = true → s.getF (Reg.tileStatusState h) = 0 → t.getF (Reg.tileStatusState h) = 1 ∧ (t.tile
        h).since = s.drone.ticks) ∧ (s.inLathedUp = false → (t.tile h).latched = true ∧ t.getF
        (Reg.tileStatusState h) = s.getF (Reg.tileStatusState h)) ∧ s.onlyRegs t [Reg.tileStatusPresent h,
        Reg.tileStatusState h]) ∧
    (∀ (h : Fin 8), s.getF (Reg.tileStatusState h) = 1 ∧ (s.tile h).pin = true ∧ s.beyondFret (s.tickNs ((s.tile
        h).since + 2457600)) = false →
      ∃ t, exec (.tileDebounceEnd h) s = .next t ∧ t.drone.ticks = max s.drone.ticks ((s.tile h).since +
        2457600) ∧ (s.getF (Reg.tileCtrlAutoEnum h) = 0 → t.tiles = s.tiles ∧ t.getF (Reg.tileStatusState h) =
        1) ∧ (s.getF (Reg.tileCtrlAutoEnum h) = 1 → (∃ u ∈ busTiles (h.val / 4), s.tileState u = 2) → (t.tile
        h).queued = true ∧ t.getF (Reg.tileStatusState h) = 1) ∧ (s.getF (Reg.tileCtrlAutoEnum h) = 1 → (∀ u ∈
        busTiles (h.val / 4), s.tileState u ≠ 2 ∧ (u ≠ h.val → (s.tile u).queued = false)) → (t.tile h).queued =
        false ∧ t.getF (Reg.tileStatusState h) = 2 ∧ (t.tile h).vio = true) ∧ s.sameMemories t ∧ s.sameRoles t ∧
        t.dev = s.dev ∧ t.journal = s.journal) ∧
    (∀ (h : Fin 8) (a b : Option (Nat × Nat)), s.inLathedUp = true ∧ s.getF (Reg.tileStatusState h) = 2 ∧ (s.tile
        h).queued = false →
      ∃ t, exec (.tileEnumeration h a b) s = .next t ∧ (s.fitted h = true → (∀ x ∈ Config.tileSlot s.tileMap h
        0, a = some x) → (∀ x ∈ Config.tileSlot s.tileMap h 1, b = some x) → t.getF (Reg.tileStatusState h) = 3
        ∧ t.getF (Reg.tileStatusRefuse h) = 0 ∧ (t.tile h).vio = true ∧ (∀ x ∈ Config.tileSlot s.tileMap h 0,
        t.getF (Reg.tileIdProductId h 0) = x.1 % 256 ∧ t.getF (Reg.tileIdManufacturerId h 0) = x.2 % 4096 ∧
        t.getF (Reg.tileIdUsid h 0) = 2 * (h % 4) + 1)) ∧ (s.fitted h = false → t.getF (Reg.tileStatusState h) =
        4 ∧ t.getF (Reg.tileStatusRefuse h) = 3 ∧ (t.tile h).vio = false ∧ s.fencedFor t ((List.range 8).map fun
        i => 8 * h.val + i) 3) ∧ (s.fitted h = true → (∃ x ∈ Config.tileSlot s.tileMap h 0, a = none) → t.getF
        (Reg.tileStatusState h) = 4 ∧ t.getF (Reg.tileStatusRefuse h) = 1) ∧ (t.tile h).queued = false ∧ t.event
        34 ∧ s.pathsBut t ((List.range 8).map fun i => 8 * h.val + i) ∧ s.onlyRegs t ([Reg.tileStatusRefuse h,
        Reg.tileIdProductId h 0, Reg.tileIdManufacturerId h 0, Reg.tileIdUsid h 0, Reg.tileIdProductId h 1,
        Reg.tileIdManufacturerId h 1, Reg.tileIdUsid h 1, Reg.evStatus 1] ++ ((List.range 4).map fun u =>
        Reg.tileStatusState (4 * (h.val / 4) + u)) ++ (List.range 7).map Reg.arg)) ∧
    (∀ (p : Port) (h : Fin 8), s.ready p ∧ s.job = none ∧ (s.dev = .lathed ∨ s.dev = .service ∨ s.dev = .doze) ∧
        (s.session p).role = some .installer ∧ s.argW 0 = h →
      ∃ t, exec (.tileEnum p) s = .next t ∧ s.ended t p 0x78 0 ∧ t.resultsAre [s.getF (Reg.tileStatusState h)] ∧
        (s.getF (Reg.tileStatusState h) = 1 ∨ s.getF (Reg.tileStatusState h) = 4 ∨ s.getF (Reg.tileStatusState
        h) = 5 → ((∃ u ∈ busTiles (h.val / 4), s.tileState u = 2) → (t.tile h).queued = true) ∧ ((∀ u ∈ busTiles
        (h.val / 4), s.tileState u ≠ 2 ∧ (u ≠ h.val → (s.tile u).queued = false)) → t.getF (Reg.tileStatusState
        h) = 2 ∧ (t.tile h).vio = true)) ∧ s.onlyRegs t ((List.range 4).map fun u => Reg.tileStatusState (4 *
        (h.val / 4) + u))) ∧
    (∀ (p : Port) (h : Fin 8), s.ready p ∧ s.job = none ∧ (s.dev = .lathed ∨ s.dev = .service ∨ s.dev = .doze) ∧
        (s.session p).role = some .installer ∧ s.argW 0 = h ∧ s.getF (Reg.tileStatusState h) ≠ 0 →
      ∃ t, exec (.tileRelease p) s = .next t ∧ s.ended t p 0x79 0 ∧ t.getF (Reg.tileStatusState h) = 5 ∧ (∀ k ∈
        [2 * h.val, 2 * h.val + 1], t.getF (Reg.biasSafe k) = 1 ∧ t.getF (Reg.biasWritten k) = 0) ∧ t.getF
        (Reg.tileStatusBiasReady h) = 0 ∧ t.getF (Reg.tileStatusDrain h) = 0 ∧ (t.tile h).vio = false ∧ t.event
        35 ∧ t.event 38 ∧ s.fencedFor t ((List.range 8).map fun i => 8 * h.val + i) 3 ∧ s.pathsBut t
        ((List.range 8).map fun i => 8 * h.val + i) ∧ s.onlyRegs t ([Reg.tileStatusRefuse h,
        Reg.tileStatusBiasReady h, Reg.biasSafe (2 * h), Reg.biasSafe (2 * h + 1), Reg.biasWritten (2 * h),
        Reg.biasWritten (2 * h + 1), Reg.biasCodeActive (2 * h), Reg.biasCodeActive (2 * h + 1), Reg.evStatus 1]
        ++ ((List.range 4).map fun u => Reg.tileStatusState (4 * (h.val / 4) + u)) ++ (List.range 7).map
        Reg.arg)) ∧
    (∀ (h : Fin 8), (s.tile h).pin = true ∧ s.inLathedUp = true ∧ s.getF (Reg.tileStatusState h) ≠ 0 →
      ∃ t, exec (.tileRemoved h) s = .next t ∧ t.getF (Reg.tileStatusPresent h) = 0 ∧ (t.tile h).pin = false ∧
        t.getF (Reg.tileStatusState h) = 0 ∧ (∀ k ∈ [2 * h.val, 2 * h.val + 1], t.getF (Reg.biasSafe k) = 1 ∧
        t.getF (Reg.biasWritten k) = 0) ∧ t.getF (Reg.tileStatusBiasReady h) = 0 ∧ t.getF (Reg.tileStatusDrain
        h) = 0 ∧ (t.tile h).vio = false ∧ t.event 35 ∧ t.event 38 ∧ s.fencedFor t ((List.range 8).map fun i => 8
        * h.val + i) 3 ∧ s.pathsBut t ((List.range 8).map fun i => 8 * h.val + i) ∧ s.onlyRegs t
        ([Reg.tileStatusPresent h, Reg.tileStatusRefuse h, Reg.tileStatusBiasReady h, Reg.biasSafe (2 * h),
        Reg.biasSafe (2 * h + 1), Reg.biasWritten (2 * h), Reg.biasWritten (2 * h + 1), Reg.biasCodeActive (2 *
        h), Reg.biasCodeActive (2 * h + 1), Reg.evStatus 1] ++ ((List.range 4).map fun u => Reg.tileStatusState
        (4 * (h.val / 4) + u)) ++ (List.range 7).map Reg.arg)) ∧
    (∀ (h : Fin 8), (s.tile h).pin = true ∧ (s.inLathedUp = false ∨ s.getF (Reg.tileStatusState h) = 0) →
      ∃ t, exec (.tileRemoved h) s = .next t ∧ t.getF (Reg.tileStatusPresent h) = 0 ∧ (t.tile h).pin = false ∧
        (s.inLathedUp = true → t.getF (Reg.tileStatusState h) = 0) ∧ (s.inLathedUp = false → (t.tile h).latched
        = true ∧ (t.tile h).removed = true ∧ t.getF (Reg.tileStatusState h) = s.getF (Reg.tileStatusState h)) ∧
        s.onlyRegs t [Reg.tileStatusPresent h, Reg.tileStatusState h]) ∧
    (∀ (h : Fin 8) (b : Nat), s.strobeTick h = some b ∧ s.phase = .run ∧ s.beyondFret (s.tickNs (b + (1000 * s.getF
        (Reg.tileCtrlDrainDelay h) * 24576 + 99999) / 100000)) = false →
      ∃ t, exec (.drainDelayEnd h) s = .next t ∧ t.drone.ticks = max s.drone.ticks (b + (1000 * s.getF
        (Reg.tileCtrlDrainDelay h) * 24576 + 99999) / 100000) ∧ (t.getF (Reg.tileStatusDrain h) = 1 ↔
        s.drainsRise (h / 4) = true ∧ s.analogOn (h / 4) = true ∧ s.getF (Reg.tileStatusState h) = 3 ∧ s.getF
        (Reg.tileCtrlDrainAllow h) = 1 ∧ s.getF (Reg.tileStatusBiasReady h) = 1) ∧ s.sameMemories t ∧
        s.sameRoles t ∧ t.dev = s.dev ∧ t.journal = s.journal) ∧
    (∀ (p : Port) (l : List Nat), s.ready p ∧ s.dev = .service ∧ (s.session p).role = some .installer ∧ s.deferred 5
        = false ∧ l = s.argPaths.filter (fun q => s.path q == 3 && decide (1 ≤ Config.tileTunerCodes s.tileMap (q /
        8))) →
      ∃ t, exec (.aerialTune p) s = .next t ∧ (l = [] → s.ended t p 0x7A 0 ∧ t.resultsAre [0, 0]) ∧ (l ≠ [] →
        s.goesOn t p 0x7A ∧ t.job = some (.aerialTune l 0 [])) ∧ s.onlyRegs t []) ∧
    (∀ (p : Port) (bus usid n a : Nat), s.ready p ∧ (s.dev = .lathed ∨ s.dev = .service ∨ s.dev = .doze) ∧
        (s.session p).role = some .installer ∧ s.argW 0 = bus ∧ bus < 2 ∧ s.argW 1 = usid ∧ 1 ≤ usid ∧ usid ≤ 8 ∧
        s.getF (Reg.tileStatusState (4 * bus + (usid - 1) / 2)) = 3 ∧ s.argW 2 = a + n * 65536 ∧ a < 65536 ∧ n < 16 ∧
        (∀ u ∈ busTiles bus, s.tileState u ≠ 2) →
      ∃ t, exec (.rffeXfer p) s = .next t ∧ s.ended t p 0x7B 0 ∧ t.out.rffe = [⟨bus, usid, a, (leBytes 4 (s.argW
        3) ++ leBytes 4 (s.argW 4) ++ leBytes 4 (s.argW 5) ++ leBytes 4 (s.argW 6)).take (n + 1)⟩] ∧ s.onlyRegs
        t []) ∧
    (∀ (p : Port) (bus usid n a : Nat), s.ready p ∧ (s.dev = .lathed ∨ s.dev = .service ∨ s.dev = .doze) ∧
        (s.session p).role = some .installer ∧ s.argW 0 = bus ∧ bus < 2 ∧ s.argW 1 = usid ∧ 1 ≤ usid ∧ usid ≤ 8 ∧
        s.getF (Reg.tileStatusState (4 * bus + (usid - 1) / 2)) = 3 ∧ s.argW 2 = a + n * 65536 + 2 ^ 24 ∧ a < 65536 ∧
        n < 16 ∧ (∀ u ∈ busTiles bus, s.tileState u ≠ 2) →
      ∃ t, exec (.rffeXfer p) s = .next t ∧ s.ended t p 0x7B 0 ∧ (∀ i, i ≤ n / 4 → t.getF (Reg.arg (3 + i)) =
        Config.freeValue (s.drawn + i) % 2 ^ 32) ∧ t.drawn = s.drawn + n / 4 + 1 ∧ t.out.rffe = [] ∧ s.onlyRegs
        t [Reg.arg 3, Reg.arg 4, Reg.arg 5, Reg.arg 6]) ∧
    (∀ (p : Port), s.ready p ∧ (s.dev = .lathed ∨ s.dev = .service ∨ s.dev = .doze) ∧ (s.session p).role = some
        .installer ∧ s.argW 0 < 2 ∧ 1 ≤ s.argW 1 ∧ s.argW 1 ≤ 8 ∧ s.getF (Reg.tileStatusState (4 * s.argW 0 + (s.argW
        1 - 1) / 2)) = 3 ∧ (∃ u ∈ busTiles (s.argW 0), s.tileState u = 2) →
      ∃ t, exec (.rffeXfer p) s = .next t ∧ s.goesOn t p 0x7B ∧ t.job = some (.rffeXfer (s.argW 0) (s.argW 1)
        (s.argW 2) ((List.range 4).flatMap fun i => leBytes 4 (s.argW (3 + i)))) ∧ t.out.rffe = [] ∧ s.onlyRegs
        t []) ∧
    (∀ (p : Fin 64) (ref : List (Int × Int)) (x : CouplerPair) (a b rl : Nat), s.aerialTurn p = true ∧ s.tunes p =
        false ∧ 16 ≤ s.obsHeld 5 p 0 ∧ 16 ≤ s.obsHeld 5 p 1 ∧ s.obsStarted 5 p 0 = some a ∧ s.obsStarted 5 p 1 = some
        b ∧ max a b + 3933 ≤ s.drone.ticks ∧ lowReference ref = false ∧ rl = s.returnLoss p x →
      ∃ t, exec (.aerialCheck p ref x) s = .next t ∧ t.getF (Reg.pathAerialRlLast p) = rl ∧ (s.getF
        Reg.mismatchThreshold ≤ rl → p.val ∉ t.aerialLow ∧ t.getF (Reg.pathAerialMismatches p) = s.getF
        (Reg.pathAerialMismatches p)) ∧ (rl < s.getF Reg.mismatchThreshold → p.val ∉ s.aerialLow → p.val ∈
        t.aerialLow ∧ t.getF (Reg.pathAerialMismatches p) = s.getF (Reg.pathAerialMismatches p)) ∧ (rl < s.getF
        Reg.mismatchThreshold → p.val ∈ s.aerialLow → t.event 37 ∧ t.getF (Reg.pathAerialMismatches p) = min
        (s.getF (Reg.pathAerialMismatches p) + 1) 255 ∧ (s.getF Reg.mismatchAction = 1 → t.path p = 5 ∧ t.getF
        (Reg.pathStateFenceReason p) = 6)) ∧ s.onlyRegs t ([Reg.pathAerialRlLast p, Reg.pathAerialMismatches p,
        Reg.evStatus 1] ++ (List.range 64).map Reg.rxInvalidSamplesCount)) ∧
    (∀ (p : Fin 64) (ref : List (Int × Int)) (x : CouplerPair) (a b : Nat), s.aerialTurn p = true ∧ 16 ≤ s.obsHeld 5
        p 0 ∧ 16 ≤ s.obsHeld 5 p 1 ∧ s.obsStarted 5 p 0 = some a ∧ s.obsStarted 5 p 1 = some b ∧ s.beyondFret
        (s.tickNs (max a b + 3933)) = false ∧ lowReference ref = true →
      ∃ t, exec (.aerialCheck p ref x) s = .next t ∧ t.drone.ticks = max s.drone.ticks (max a b + 3933) ∧ (∀ c ∈
        [0, 1], (t.tx.obs[p.val / 16]?).any (fun x => x.queue.any fun r => r.serves 5 p c) = true) ∧ t.aerialLow
        = s.aerialLow ∧ t.getF (Reg.pathAerialRlLast p) = s.getF (Reg.pathAerialRlLast p) ∧ t.getF
        (Reg.pathAerialMismatches p) = s.getF (Reg.pathAerialMismatches p)) ∧
    (∀ (p : Fin 64) (ref : List (Int × Int)) (x : CouplerPair), s.aerialTurn p = true ∧ (s.obsHeld 5 p 0 < 16 ∨
        s.obsHeld 5 p 1 < 16) →
      ∃ t, exec (.aerialCheck p ref x) s = .next t ∧ (∀ c ∈ [0, 1], 16 ≤ s.obsHeld 5 p c ∨ (t.tx.obs[p.val /
        16]?).any (fun x => x.queue.any fun r => r.serves 5 p c) = true) ∧ t.aerialLow = s.aerialLow ∧ (s.dev ≠
        .doze → s.onlyRegs t [])) ∧
    (∀ (p : Fin 64) (ref : List (Int × Int)) (x : CouplerPair), s.aerialTurn p = false ∧ s.tunes p = false ∨ 16 ≤
        s.obsHeld 5 p 0 ∧ 16 ≤ s.obsHeld 5 p 1 ∧ (s.obsStarted 5 p 0 = none ∨ s.obsStarted 5 p 1 = none) →
      ∃ t, exec (.aerialCheck p ref x) s = .next t ∧ t.aerialLow = s.aerialLow ∧ s.onlyRegs t [])

/-- For a port and role that may issue it, in service or LATHED: DPD_ADAPT starts one pass or repeated ones over the
ACTIVE paths of its mask, or stops; CAPTURE_START on a channel that is not armed configures and arms it, and with
TRIGGER 0 starts a capture of carrier or path samples at once, and asks for the receiver of the other sources;
CAPTURE_STOP ends and disarms it, drops its waiting request and reports WPTR. A running capture's word goes to the
ring's place and moves WPTR on; a capture whose words have come ends, disarms a channel with TRIGGER 0, and a
waiting trigger starts the next. A free observation receiver of a powered half that no Seam run needs is granted to
the waiting request and shows its path, source and class. An adaptation asks for its observation time, and a step
with a good capture of 16 µs writes the fitted coefficients to the idle bank and requests it. Conventions of the
model it rests on: log entries 18, 67, 157, 181. -/
def Obligations.CapturesObservationAndAdaptation : Prop :=
  ∀ (s : State),
    (∀ (p : Port), s.ready p ∧ s.dev = .service ∧ RoleRule.permits .both s.dev (s.session p).role = true ∧
        s.deferred 4 = false ∧ (s.argW 2 = 0 ∨ s.argW 2 = 2 ∨ s.argW 2 = 1 ∧ 1 ≤ s.argW 3 ∧ s.argW 3 ≤ 65535) →
      ∃ t, exec (.dpdAdapt p) s = .next t ∧ s.ended t p 0x68 0 ∧ (s.argW 2 = 2 → t.tx.dpd = none) ∧ (s.argW 2 ≠
        2 → t.tx.dpd = some ⟨s.argW 0 + 2 ^ 32 * s.argW 1, s.argW 2 == 1, s.argW 3, s.absFret, [], false, 0,
        false, 0⟩) ∧ (s.tx.dpd = none → t.tx.obs = s.tx.obs ∧ t.getF (Reg.capStatusRunning 7) = s.getF
        (Reg.capStatusRunning 7)) ∧ (s.tx.dpd ≠ none → t.getF (Reg.capStatusRunning 7) = 0) ∧ t.tx.caps =
        s.tx.caps ∧ s.onlyRegs t [Reg.capStatusRunning 7]) ∧
    (∀ (p : Port) (k : Fin 8) (kind trig : Nat), s.ready p ∧ (s.dev = .lathed ∨ s.dev = .service) ∧ RoleRule.permits
        .both s.dev (s.session p).role = true ∧ s.deferred 11 = false ∧ s.argW 0 = k ∧ s.argW 1 % 8 = kind ∧ kind ≤ 4
        ∧ 1 ≤ s.argW 3 ∧ s.argW 2 + s.argW 3 ≤ 131072 ∧ s.argW 5 = 0 ∧ s.argW 6 = trig ∧ (trig = 1 ∨ trig = 2 ∨ 8 ≤
        trig ∧ trig ≤ 15) ∧ 1 ≤ s.argW 4 ∧ s.argW 4 ≤ 1904 ∧ s.tx.dpd = none ∧ (∀ j ∈ List.range 8, s.getF
        (Reg.capConfigArmed j) = 0) →
      ∃ t, exec (.captureStart p) s = .next t ∧ s.ended t p 0x6A 0 ∧ t.getF (Reg.capConfigArmed k) = 1 ∧ t.getF
        (Reg.capConfigBase k) = s.argW 2 % 2 ^ 17 ∧ t.getF (Reg.capConfigSrcKind k) = kind ∧ t.getF
        (Reg.capConfigSrcIndex k) = s.argW 1 / 256 % 64 ∧ t.getF (Reg.capConfigMode k) = 0 ∧ t.getF
        (Reg.capConfigTrigger k) = trig ∧ t.getF (Reg.capLengthLength k) = s.argW 3 ∧ t.getF (Reg.capWptrPtr k)
        = 0 ∧ t.getF (Reg.capRptrPtr k) = 0 ∧ t.cap k = ⟨s.argW 4, none, 0, false, 0, []⟩ ∧ s.onlyRegs t
        [Reg.capConfigArmed k, Reg.capConfigBase k, Reg.capConfigSrcKind k, Reg.capConfigSrcIndex k,
        Reg.capConfigMode k, Reg.capConfigTrigger k, Reg.capLengthLength k, Reg.capWptrPtr k, Reg.capRptrPtr k,
        Reg.capStatusRunning k, Reg.capStatusWaiting k, Reg.capStatusLenPending k]) ∧
    (∀ (p : Port) (k : Fin 8) (kind : Nat), s.ready p ∧ (s.dev = .lathed ∨ s.dev = .service) ∧ RoleRule.permits
        .both s.dev (s.session p).role = true ∧ s.deferred 11 = false ∧ s.argW 0 = k ∧ s.argW 1 % 8 = kind ∧ (kind = 2
        ∨ kind = 4) ∧ 1 ≤ s.argW 3 ∧ s.argW 2 + s.argW 3 ≤ 131072 ∧ s.argW 5 ≤ 1 ∧ s.argW 6 = 0 ∧ 1 ≤ s.argW 4 ∧
        s.tx.dpd = none ∧ (∀ j ∈ List.range 8, s.getF (Reg.capConfigArmed j) = 0) →
      ∃ t, exec (.captureStart p) s = .next t ∧ s.ended t p 0x6A 0 ∧ t.getF (Reg.capConfigArmed k) = 1 ∧ t.getF
        (Reg.capStatusRunning k) = 1 ∧ t.getF (Reg.capStatusWaiting k) = 0 ∧ t.getF (Reg.capConfigMode k) =
        s.argW 5 ∧ t.cap k = ⟨s.argW 4, none, s.argW 4, false, s.drone.ticks, []⟩ ∧ s.sameMemories t ∧
        s.sameRoles t ∧ s.sameEngines t) ∧
    (∀ (p : Port) (k : Fin 8) (kind : Nat), s.ready p ∧ (s.dev = .lathed ∨ s.dev = .service) ∧ RoleRule.permits
        .both s.dev (s.session p).role = true ∧ s.deferred 11 = false ∧ s.argW 0 = k ∧ s.argW 1 % 8 = kind ∧ (kind = 0
        ∨ kind = 1 ∨ kind = 3) ∧ 1 ≤ s.argW 3 ∧ s.argW 2 + s.argW 3 ≤ 131072 ∧ s.argW 5 = 0 ∧ s.argW 6 = 0 ∧ 1 ≤
        s.argW 4 ∧ s.argW 4 ≤ 1904 ∧ s.tx.dpd = none ∧ (∀ j ∈ List.range 8, s.getF (Reg.capConfigArmed j) = 0) →
      ∃ t, exec (.captureStart p) s = .next t ∧ s.ended t p 0x6A 0 ∧ t.getF (Reg.capConfigArmed k) = 1 ∧ t.getF
        (Reg.capStatusRunning k) = 0 ∧ t.getF (Reg.capStatusWaiting k) = 1 ∧ (t.tx.obs[s.argW 1 / 256 % 64 /
        16]?).any (fun x => x.queue.any fun r => r.cls == 11 && r.by_ == k.val) = true ∧ s.sameMemories t ∧
        s.sameRoles t ∧ s.sameEngines t) ∧
    (∀ (p : Port) (k : Fin 8), s.ready p ∧ (s.dev = .lathed ∨ s.dev = .service) ∧ RoleRule.permits .both s.dev
        (s.session p).role = true ∧ s.argW 0 = k →
      ∃ t, exec (.captureStop p) s = .next t ∧ s.ended t p 0x6B 0 ∧ t.resultsAre [s.getF (Reg.capWptrPtr k)] ∧
        t.getF (Reg.capStatusRunning k) = 0 ∧ t.getF (Reg.capStatusWaiting k) = 0 ∧ t.getF (Reg.capConfigArmed
        k) = 0 ∧ (t.cap k).left = 0 ∧ s.onlyRegs t [Reg.capStatusRunning k, Reg.capStatusWaiting k,
        Reg.capConfigArmed k]) ∧
    (∀ (k : Fin 8) (x : CaptureIn), (s.capFresh k x.main x.other).length = 8 ∧ s.getF (Reg.capStatusRunning k) = 1 ∧
        s.getF (Reg.capConfigMode k) = 0 ∧ 1 ≤ (s.cap k).left ∧ (s.cap k).held = none ∧ s.getF (Reg.capWptrPtr k) + 1
        < s.getF (Reg.capLengthLength k) ∧ s.getF (Reg.capLengthLength k) ≤ 131072 →
      ∃ t, exec (.captureRun k x) s = .next t ∧ t.bytesAre .capture (32 * (s.getF (Reg.capConfigBase k) + s.getF
        (Reg.capWptrPtr k))) 32 (fun i => ((s.capFresh k x.main x.other).flatMap fun y => leBytes 2 (ofSigned 16
        y.1) ++ leBytes 2 (ofSigned 16 y.2)).getD i 0) ∧ t.wordMark .capture (s.getF (Reg.capConfigBase k) +
        s.getF (Reg.capWptrPtr k)) = .clean ∧ s.sameBytesBut t .capture (32 * (s.getF (Reg.capConfigBase k) +
        s.getF (Reg.capWptrPtr k))) 32 ∧ s.otherMemories t .capture ∧ t.getF (Reg.capWptrPtr k) = s.getF
        (Reg.capWptrPtr k) + 1 ∧ (t.cap k).left = (s.cap k).left - 1 ∧ (t.cap k).part = [] ∧ s.regsBut t
        [Reg.capWptrPtr k] ∧ s.sameRoles t ∧ s.sameEngines t) ∧
    (∀ (k : Fin 8), s.getF (Reg.capStatusRunning k) = 1 ∧ s.getF (Reg.capConfigMode k) = 0 ∧ (s.cap k).left = 0 →
      ∃ t, exec (.captureEnd k) s = .next t ∧ (s.getF (Reg.capStatusWaiting k) = 0 → t.getF
        (Reg.capStatusRunning k) = 0 ∧ (s.getF (Reg.capConfigTrigger k) = 0 → t.getF (Reg.capConfigArmed k) = 0)
        ∧ (s.getF (Reg.capConfigTrigger k) ≠ 0 → t.getF (Reg.capConfigArmed k) = s.getF (Reg.capConfigArmed k)))
        ∧ (s.getF (Reg.capStatusWaiting k) = 1 → (s.getF (Reg.capConfigSrcKind k) = 2 ∨ s.getF
        (Reg.capConfigSrcKind k) = 4) → t.getF (Reg.capStatusRunning k) = 1 ∧ t.getF (Reg.capStatusWaiting k) =
        0 ∧ (t.cap k).left = (s.cap k).count ∧ (t.cap k).start = s.drone.ticks) ∧ (s.dev ≠ .doze → s.onlyRegs t
        [Reg.capStatusRunning k, Reg.capStatusWaiting k, Reg.capConfigArmed k])) ∧
    (∀ (q : Fin 4) (x : ObsRx) (r : ObsReq), s.tx.obs[q] = x ∧ x.queue = [r] ∧ x.until_ ≤ s.drone.ticks ∧ s.analogOn
        (q / 2) = true ∧ s.coversObs r.cls (s.obsLength q x r) = true ∧ s.seamHolds q (s.obsLength q x r) = false ∧
        (r.cls = 4 ∨ r.cls = 5 ∨ r.cls = 6 ∨ r.cls = 11 ∧ r.by_ < 8) ∧ 1 ≤ r.grains →
      ∃ t, exec (.obsGrant q) s = .next t ∧ t.getF (Reg.obsStatusPath q) = r.path % 16 ∧ t.getF
        (Reg.obsStatusSource q) = r.source % 4 ∧ t.getF (Reg.obsStatusBusy q) = 1 ∧ t.getF (Reg.obsStatusClass
        q) = r.cls ∧ t.tx.obs[q].queue = [] ∧ s.drone.ticks < t.tx.obs[q].until_ ∧ t.used r.cls 2 = s.used r.cls
        2 + s.obsLength q x r ∧ (r.cls ≠ 11 → r ∈ t.tx.granted) ∧ (r.cls = 4 → t.getF (Reg.capStatusRunning 7) =
        1 ∧ t.getF (Reg.capConfigSrcKind 7) = 3) ∧ (r.cls = 11 → t.getF (Reg.capStatusRunning r.by_) = 1 ∧
        t.getF (Reg.capStatusWaiting r.by_) = 0 ∧ (t.cap r.by_).left = (s.cap r.by_).count) ∧ s.onlyRegs t
        ([Reg.obsStatusPath q, Reg.obsStatusSource q, Reg.obsStatusClass q] ++ (if r.cls = 4 then
        [Reg.capConfigSrcKind 7, Reg.capConfigSrcIndex 7, Reg.capStatusRunning 7] else if r.cls = 11 then
        [Reg.capStatusRunning r.by_, Reg.capStatusWaiting r.by_] else []))) ∧
    (∀ (q : Fin 4), s.drone.ticks < s.tx.obs[q].until_ ∨ s.analogOn (q / 2) = false →
      ∃ t, exec (.obsGrant q) s = .next t ∧ t.tx.obs = s.tx.obs ∧ s.onlyRegs t []) ∧
    (∀ (ref : List (Int × Int)) (coefs : List Word) (nmse : Byte) (r : DpdRun) (p b : Nat) (l : List Nat), s.tx.dpd
        = some r ∧ r.left = p :: l ∧ p < 64 ∧ r.nextFret ≤ s.absFret ∧ s.path p = 3 ∧ s.obsBad p = false ∧ 16 ≤
        s.obsHeld 4 p 0 ∧ r.taken = true ∧ r.since + 3933 ≤ s.drone.ticks ∧ s.dpdClean r p = true ∧ lowReference ref =
        false ∧ r.fitted = false ∧ coefs.length = 40 ∧ b < 2 ∧ s.getF (Reg.txDpdBankActive p) = 1 - b ∧ s.getF
        (Reg.txDpdPending p) = 0 ∧ s.timingCarrier.isSome = true →
      ∃ t, exec (.dpdAdaptPass ref coefs nmse) s = .next t ∧ t.getF (Reg.txDpdReqBank p) = b ∧ t.getF
        (Reg.txDpdPending p) = 1 ∧ t.getF (Reg.txDpdBankActive p) = 1 - b ∧ t.getF (Reg.txDpdQualityNmseOld p) =
        nmse.toNat ∧ t.tx.dpd = some { r with fitted := true, bank := b, taken := false } ∧ t.getF
        (Reg.capStatusRunning 7) = 0 ∧ t.getF (Reg.dpd0Re p b) = (coefs.getD 0 0).toNat % 65536 ∧ t.getF
        (Reg.dpd0Im p b) = (coefs.getD 0 0).toNat / 65536 ∧ (∀ i ∈ List.range 39, t.getF (Reg.dpdIRe p b i) =
        (coefs.getD (i + 1) 0).toNat % 65536 ∧ t.getF (Reg.dpdIIm p b i) = (coefs.getD (i + 1) 0).toNat / 65536)
        ∧ s.onlyRegs t ([Reg.capStatusRunning 7, Reg.txDpdReqBank p, Reg.txDpdPending p, Reg.txDpdQualityNmseOld
        p, Reg.dpd0Re p b, Reg.dpd0Im p b] ++ (List.range 39).map (Reg.dpdIRe p b) ++ (List.range 39).map
        (Reg.dpdIIm p b) ++ (List.range 64).map Reg.rxInvalidSamplesCount)) ∧
    (∀ (ref : List (Int × Int)) (coefs : List Word) (nmse : Byte) (r : DpdRun) (p : Nat) (l : List Nat), s.tx.dpd =
        some r ∧ r.left = p :: l ∧ p < 64 ∧ r.nextFret ≤ s.absFret ∧ s.path p = 3 ∧ s.obsBad p = false ∧ s.obsHeld 4 p
        0 < 16 ∧ (r.fitted = true → s.getF (Reg.txDpdPending p) = 0 ∧ s.getF (Reg.txDpdBankActive p) = r.bank) →
      ∃ t, exec (.dpdAdaptPass ref coefs nmse) s = .next t ∧ (t.tx.obs[p / 16]?).any (fun x => x.queue.any fun q
        => q.serves 4 p 0) = true ∧ t.tx.dpd = some { r with taken := false } ∧ (s.dev ≠ .doze → s.onlyRegs t
        [])) ∧
    (∀ (ref : List (Int × Int)) (coefs : List Word) (nmse : Byte), s.tx.dpd = none →
      ∃ t, exec (.dpdAdaptPass ref coefs nmse) s = .next t ∧ t.tx.dpd = none ∧ s.onlyRegs t [])

/-- For a port and role that may issue it: a pass, a test and a coupling ask for the observation time that they do not
hold; CAL_RUN and PATH_TEST wait for the paths of their mask that they act on, or end at once where there is none; a
preparation pass that succeeds makes the path READY and clears DUE and RESTORED, and one that fails fences it with
reason CAL; PLUMB_REF without a measurement clears PRESENT; a first run of the forward coupling of an ACTIVE path is
kept and a second asked for, and two runs that agree are taken and step its weight; a path whose four checks passed
counts a test and ends it; CAL_SAVE writes the image and CAL_RESTORE refuses one with another magic number, and else
restores the paths not in CAL if its target, unit and CRC are right; a Seam run takes OBS_0 under CAL, and a good
measurement of it that saw the twin sets OK, and 2 x PERIOD bars without one clear it; an ageing measurement records
the drifts; MARGIN_REPLAN computes the plan from the groups' drifts. Conventions of the model it rests on: log
entries 18, 131, 132, 137, 138, 181, 184, 185, 186. -/
def Obligations.CalibrationAndSelfTest : Prop :=
  ∀ (s : State),
    (∀ (p : Port) (n : Nat) (l : List Nat), s.ready p ∧ (s.dev = .lathed ∨ s.dev = .service) ∧ (s.session p).role =
        some .installer ∧ s.deferred 5 = false ∧ s.argW 0 = n ∧ (1 ≤ n ∧ n ≤ 7) ∧ l = (List.range 64).filter (fun q =>
        testBit (s.argW 1 + 2 ^ 32 * s.argW 2) q) ∧ (∀ q ∈ l, s.path q ≠ 1) →
      ∃ t, exec (.calRun p) s = .next t ∧ ((∃ q ∈ l, s.path q = 5 ∧ s.getF (Reg.pathStateFenceReason q) = 1) →
        s.goesOn t p 0x40 ∧ t.job = some (.calRun n (listMask (l.filter fun q => s.path q == 5 && [1, 3, 5,
        6].contains (s.getF (Reg.pathStateFenceReason q)))))) ∧ ((∀ q ∈ l, s.path q ≠ 5) → s.ended t p 0x40 0 ∧
        t.resultsAre [0, 0]) ∧ s.onlyRegs t []) ∧
    (∀ (p : Port) (l : List Nat), s.ready p ∧ (s.dev = .lathed ∨ s.dev = .service) ∧ (s.session p).role = some
        .installer ∧ s.deferred 5 = false ∧ l = (List.range 64).filter (fun q => testBit (s.argW 1 + 2 ^ 32 * s.argW
        2) q) ∧ (s.argW 0 = 0 ∨ s.argW 0 = 8 ∧ s.dev = .service ∧ (∀ q ∈ l, s.path q ≠ 1) ∧ ∃ q ∈ l, s.path q = 3 ∧
        s.getF (Reg.tileStatusState (q / 8)) = 3) →
      ∃ t, exec (.calRun p) s = .next t ∧ s.goesOn t p 0x40 ∧ t.job = some (if s.argW 0 = 0 then .calRun 0 0
        else .calRun 8 (listMask (l.filter fun q => s.path q == 3 && s.getF (Reg.tileStatusState (q / 8)) ==
        3))) ∧ s.onlyRegs t []) ∧
    (∀ (run : Bool) (l : List CalMeasure) (grains n mask : Nat) (k : List Nat), (run = false ∧ s.prepServed l ≠ [] ∧
        k = s.plumbPaths false ++ s.prepServed l ∨ run = true ∧ s.job = some (.calRun n mask) ∧ n ≠ 8 ∧ k =
        s.plumbPaths true ++ s.runServed l) ∧ (∃ q ∈ k, s.obsHeld 5 q 2 < grains) →
      ∃ t, exec (.calPassEnd run l grains) s = .next t ∧ (∀ q ∈ k, s.obsHeld 5 q 2 < grains → (t.tx.obs[q /
        16]?).any (fun x => x.queue.any fun r => r.serves 5 q 2) = true) ∧ (s.dev ≠ .doze → s.onlyRegs t [])) ∧
    (∀ (run : Bool) (l : List CalMeasure) (grains n mask : Nat), run = true ∧ s.job = some (.calRun n mask) ∧ n = 0
        ∧ l = [] ∧ s.dev ≠ .fault ∧ mapGet 0 128 s.cal.repeats < 4 ∧ (∀ q ∈ s.plumbPaths true, grains ≤ s.obsHeld 5 q
        2) →
      ∃ t, exec (.calPassEnd run l grains) s = .next t ∧ t.getF Reg.plumbStatusPresent = 0 ∧ t.job = none ∧
        t.getF Reg.cmdStatusCode = 0 ∧ t.getF Reg.cmdStatusRunning = 0 ∧ t.resultsAre [0, 0] ∧ t.event 8 ∧
        s.onlyRegs t [Reg.plumbStatusPresent]) ∧
    (∀ (run : Bool) (l : List CalMeasure) (grains : Nat) (m : CalMeasure), run = false ∧ l = [m] ∧ s.prepTurn m.path
        = true ∧ s.calReady m.path = true ∧ s.cal.plumbDone = true ∧ grains ≤ s.obsHeld 5 m.path 2 →
      ∃ t, exec (.calPassEnd run l grains) s = .next t ∧ ((s.calList m [1, 2, 3, 4, 5, 6, 7]).toOption.isSome =
        true → t.path m.path = 2 ∧ t.getF (Reg.calPathStatusRestored m.path) = 0 ∧ t.getF (Reg.calPathStatusDue
        m.path) = 0 ∧ t.getF (Reg.prepBar m.path) = s.bar) ∧ ((s.calList m [1, 2, 3, 4, 5, 6,
        7]).toOption.isSome = false → t.path m.path = 5 ∧ t.getF (Reg.pathStateFenceReason m.path) = 5 ∧ t.event
        38) ∧ s.sameRoles t ∧ t.dev = s.dev ∧ t.journal = s.journal) ∧
    (∀ (p : Port), s.ready p ∧ (s.dev = .lathed ∨ s.dev = .service) ∧ (s.session p).role = some .installer ∧
        s.deferred 6 = false ∧ (∀ q ∈ s.argPaths, s.path q ≠ 1) →
      ∃ t, exec (.pathTest p) s = .next t ∧ ((∃ q ∈ s.argPaths, s.path q = 5 ∧ s.getF (Reg.pathStateFenceReason
        q) = 1) → s.goesOn t p 0x44 ∧ t.job = some (.pathTest (listMask (s.argPaths.filter fun q => s.path q ==
        5 && [1, 3, 5, 6].contains (s.getF (Reg.pathStateFenceReason q)))) 0 0 0)) ∧ ((∀ q ∈ s.argPaths, s.path
        q ≠ 5) → s.ended t p 0x44 0 ∧ t.resultsAre [0, 0, 0, 0]) ∧ s.onlyRegs t [Reg.arg 2, Reg.arg 3]) ∧
    (∀ (q : PathTested) (c1 c2 c3 c4 : List Int) (passed failed : Nat), s.job = some (.pathTest (2 ^ q.path.val)
        passed failed 0) ∧ s.getF Reg.plumbStatusPresent = 1 ∧ s.dev ≠ .fault ∧ q.micros ≤ s.obsHeld 6 q.path 2 ∧
        mapGet 0 (2 * q.path) s.cal.repeats + mapGet 0 (2 * q.path + 1) s.cal.repeats < 4 ∧ s.testPasses q.path 1 c1 =
        true ∧ s.testPasses q.path 2 c2 = true ∧ s.testPasses q.path 3 c3 = true ∧ s.testPasses q.path 4 c4 = true ∧
        s.cal.testWrites = [] →
      ∃ t, exec (.pathTestEnd q c1 c2 c3 c4) s = .next t ∧ t.getF (Reg.bistPassed q.path) = 15 ∧ t.getF
        (Reg.bistSkipped q.path) = 0 ∧ t.getF (Reg.bistTests q.path) = (s.getF (Reg.bistTests q.path) + 1) %
        65536 ∧ t.obsBad q.path = false ∧ t.job = none ∧ t.getF Reg.cmdStatusCode = 0 ∧ t.getF
        Reg.cmdStatusRunning = 0 ∧ t.resultsAre [(passed + 2 ^ q.path.val) % 2 ^ 32, (passed + 2 ^ q.path.val) /
        2 ^ 32 % 2 ^ 32, failed % 2 ^ 32, failed / 2 ^ 32 % 2 ^ 32] ∧ s.onlyRegs t [Reg.bistPassed q.path,
        Reg.bistSkipped q.path, Reg.bistTests q.path, Reg.bistStatusObsBad, Reg.rxStatusSyncReset q.path,
        Reg.arg 2, Reg.arg 3]) ∧
    (∀ (q : PathTested) (c1 c2 c3 c4 : List Int) (left passed failed bad : Nat), s.job = some (.pathTest left passed
        failed bad) ∧ left ≠ 0 ∧ s.underTest q.path = true ∧ s.dev ≠ .fault ∧ s.obsHeld 6 q.path 2 < q.micros ∧
        s.noneDue →
      ∃ t, exec (.pathTestEnd q c1 c2 c3 c4) s = .next t ∧ (t.tx.obs[q.path.val / 16]?).any (fun x =>
        x.queue.any fun r => r.serves 6 q.path 2) = true ∧ t.job = s.job ∧ (s.dev ≠ .doze → s.onlyRegs t [])) ∧
    (∀ (m : CouplerRun) (ref : List (Int × Int)), s.couplerTurn m.path = true ∧ s.obsHeld 5 m.path 0 < 16 →
      ∃ t, exec (.txCouplerRun m ref) s = .next t ∧ (t.tx.obs[m.path.val / 16]?).any (fun x => x.queue.any fun r
        => r.serves 5 m.path 0) = true ∧ t.cal = s.cal ∧ (s.dev ≠ .doze → s.onlyRegs t [])) ∧
    (∀ (m : CouplerRun) (ref : List (Int × Int)) (a : Nat), s.couplerTurn m.path = true ∧ 16 ≤ s.obsHeld 5 m.path 0
        ∧ s.obsStarted 5 m.path 0 = some a ∧ a + 3933 ≤ s.drone.ticks ∧ s.repeatsOf m.path 8 < 4 ∧ lowReference ref =
        false ∧ ((s.viewsIn a (a + 3933)).all fun v => v.onAir.contains m.path.val) = true ∧ s.couplerRuns m.path = []
        →
      ∃ t, exec (.txCouplerRun m ref) s = .next t ∧ t.couplerRuns m.path = [[m.gain, m.phase]] ∧ t.cal.tx =
        s.cal.tx ∧ (t.tx.obs[m.path.val / 16]?).any (fun x => x.queue.any fun r => r.serves 5 m.path 0) = true ∧
        (s.dev ≠ .doze → s.onlyRegs t ((List.range 64).map Reg.rxInvalidSamplesCount))) ∧
    (∀ (m : CouplerRun) (ref : List (Int × Int)) (k : Nat) (a v : List Int), s.couplerTurn m.path = true ∧
        s.couplerAsked m.path = false ∧ 16 ≤ s.obsHeld 5 m.path 0 ∧ s.obsStarted 5 m.path 0 = some k ∧ k + 3933 ≤
        s.drone.ticks ∧ s.repeatsOf m.path 8 < 4 ∧ lowReference ref = false ∧ ((s.viewsIn k (k + 3933)).all fun v =>
        v.onAir.contains m.path.val) = true ∧ s.couplerRuns m.path = [a] ∧ v = s.withoutObs 8 m.path (runsMean 8 a
        [m.gain, m.phase]) ∧ a.length = 2 ∧ runsAgree 8 a [m.gain, m.phase] = true ∧ s.cal.loop.find? (fun x => x.1 ==
        m.path.val) = none →
      ∃ t, exec (.txCouplerRun m ref) s = .next t ∧ t.cal.tx.find? (fun x => x.1 == m.path.val) = some
        (m.path.val, v.getD 0 0, v.getD 1 0) ∧ t.getF (Reg.calPathStatusTraced m.path) = (if s.getF
        Reg.plumbStatusPresent = 1 then 1 else 0) ∧ (∃ x ∈ t.spectral.calSteps, x.row = 1 ∧ x.path = m.path ∧
        x.k = 0 ∧ x.new = (s.arrayWeight m.path (v.getD 0 0) (v.getD 1 0)).word) ∧ t.couplerRuns m.path = [] ∧
        s.onlyRegs t (Reg.calPathStatusTraced m.path :: (List.range 64).map Reg.rxInvalidSamplesCount)) ∧
    (∀ (p : Port), s.ready p ∧ (s.dev = .lathed ∨ s.dev = .service ∨ s.dev = .doze) ∧ RoleRule.permits .both s.dev
        (s.session p).role = true ∧ s.argW 0 % 4 = 0 ∧ s.argW 0 + 8272 ≤ 4194304 ∧ s.cleanAt .capture (s.argW 0) 8272
        →
      ∃ t, exec (.calSave p) s = .next t ∧ s.ended t p 0x48 0 ∧ t.resultsAre [8272] ∧ s.sameBytesBut t .capture
        (s.argW 0) 8272 ∧ s.otherMemories t .capture ∧ ofLe (t.bytesAt .capture (s.argW 0) 4) = 0x424C4143 ∧ (∀
        q ∈ List.range 64, ofLe (t.bytesAt .capture (s.argW 0 + 64 + 128 * q + 96) 4) = s.getF (Reg.prepBar q) %
        2 ^ 32) ∧ ofLe (t.bytesAt .capture (s.argW 0 + 8268) 4) = crc32 (t.bytesAt .capture (s.argW 0) 8268) % 2
        ^ 32 ∧ s.regsBut t [] ∧ s.sameRoles t ∧ s.sameEngines t) ∧
    (∀ (p : Port), s.ready p ∧ s.dev = .lathed ∧ (s.session p).role = some .installer ∧ s.argW 0 % 4 = 0 ∧ s.argW 0
        + 8272 ≤ 4194304 ∧ s.cleanAt .capture (s.argW 0) 8272 ∧ ofLe (s.bytesAt .capture (s.argW 0) 4) ≠ 0x424C4143 ∧
        s.loadRange = none →
      ∃ t, exec (.calRestore p) s = .next t ∧ s.ended t p 0x49 6 ∧ t.resultsAre [reasonBadHeader] ∧ s.onlyRegs t
        []) ∧
    (∀ (p : Port), s.ready p ∧ s.dev = .lathed ∧ (s.session p).role = some .installer ∧ s.argW 0 % 4 = 0 ∧ s.argW 0
        + 8272 ≤ 4194304 ∧ s.cleanAt .capture (s.argW 0) 8272 ∧ ofLe (s.bytesAt .capture (s.argW 0) 4) = 0x424C4143 ∧
        ofLe (s.bytesAt .capture (s.argW 0 + 4) 4) = 1 →
      ∃ t, exec (.calRestore p) s = .next t ∧ ((ofLe (s.bytesAt .capture (s.argW 0 + 8) 4) ≠ targetId ∨ ofLe
        (s.bytesAt .capture (s.argW 0 + 12) 8) ≠ Config.deviceUid.toNat) → s.ended t p 0x49 6 ∧ t.resultsAre
        [reasonTarget]) ∧ (ofLe (s.bytesAt .capture (s.argW 0 + 8) 4) = targetId → ofLe (s.bytesAt .capture
        (s.argW 0 + 12) 8) = Config.deviceUid.toNat → ofLe (s.bytesAt .capture (s.argW 0 + 8268) 4) = crc32
        (s.bytesAt .capture (s.argW 0) 8268) → s.ended t p 0x49 0 ∧ (∀ q ∈ List.range 64, s.path q ≠ 1 → t.getF
        (Reg.calPathStatusRestored q) = 1 ∧ t.getF (Reg.prepBar q) = ofLe (s.bytesAt .capture (s.argW 0 + 64 +
        128 * q + 96) 4)) ∧ (∀ q ∈ List.range 64, s.path q = 1 → t.getF (Reg.prepBar q) = s.getF (Reg.prepBar
        q))) ∧ s.sameRoles t ∧ t.dev = s.dev ∧ t.journal = s.journal) ∧
    (∀ (mean : Word) (residual : Nat) (seen : Bool), s.phase = .run ∧ s.dev = .lathed ∧ (s.getF Reg.bridgeRole = 1 ∨
        s.getF Reg.bridgeRole = 2) ∧ s.seamFret = true ∧ s.analogWest = true ∧ s.nowNs ≤ s.nowNs / 250000 * 250000 +
        98000 ∧ s.cal.seamRun = none ∧ s.coversObs 5 98 = true ∧ s.tx.obs[0].until_ ≤ s.drone.ticks ∧ 0 < s.inc ∧
        s.inc < 2 ^ 40 →
      ∃ t, exec (.seamMeasurement mean residual seen) s = .next t ∧ t.cal.seamRun = some (s.nowNs / 250000,
        true) ∧ t.getF (Reg.obsStatusSource 0) = 2 ∧ t.getF (Reg.obsStatusClass 0) = 5 ∧ t.getF
        (Reg.obsStatusBusy 0) = 1 ∧ t.drone.ticks < t.tx.obs[0].until_ ∧ t.used 5 2 = s.used 5 2 + 98 ∧ s.nowNs
        / 250000 * 250000 + 98000 ≤ t.nowNs ∧ t.getF Reg.seamOk = s.getF Reg.seamOk ∧ s.sameMemories t ∧
        s.sameRoles t ∧ t.dev = s.dev ∧ t.journal = s.journal) ∧
    (∀ (mean : Word) (residual : Nat) (seen : Bool), s.phase = .run ∧ s.dev = .lathed ∧ (s.getF Reg.bridgeRole = 1 ∨
        s.getF Reg.bridgeRole = 2) ∧ s.seamFret = true ∧ s.analogWest = true ∧ s.nowNs ≤ s.nowNs / 250000 * 250000 +
        196000 ∧ s.cal.seamRun = some (s.nowNs / 250000, true) ∧ s.inc < 2 ^ 40 ∧ (∀ r ∈ s.cal.roleNs, r < s.nowNs /
        250000 * 250000 + 96000) ∧ residual ≤ 30 ∧ seen = true ∧ 0 < s.inc →
      ∃ t, exec (.seamMeasurement mean residual seen) s = .next t ∧ t.getF Reg.seamOk = 1 ∧ t.getF
        Reg.seamStatusResidual = residual ∧ t.getF Reg.seamStatusTwinSeen = 1 ∧ t.cal.seamBar = t.nowNs /
        10000000 ∧ t.getF Reg.seamPhase = ofSigned 16 (roundDiv (toSigned 32 (mean.toNat + 2 ^ 32 - s.getF
        Reg.seamSkew * 2 ^ 16 % 2 ^ 32)) (2 ^ 17)) ∧ s.nowNs / 250000 * 250000 + 196000 ≤ t.nowNs ∧
        s.sameMemories t ∧ s.sameRoles t ∧ t.dev = s.dev ∧ t.journal = s.journal) ∧
    (s.getF Reg.seamOk = 1 ∧ s.cal.seamBar + 2 * s.getF Reg.seamCtrlPeriod ≤ s.nowNs / 10000000 →
      ∃ t, exec (.seamOkTimeout) s = .next t ∧ t.getF Reg.seamOk = 0 ∧ s.onlyRegs t [Reg.seamOk]) ∧
    (∀ (drifts : List Int), s.inLathedUp = true ∧ s.ageingDue = true ∧ s.deferred 14 = false ∧ drifts.length = 32 ∧
        s.covers 14 4 4 = true →
      ∃ t, exec (.ageingMeasurement drifts) s = .next t ∧ (∀ i ∈ List.range 32, t.getF (Reg.ageingDrift i) =
        (drifts.getD i 0 % 2 ^ 24).toNat ∧ t.getF (Reg.ageingValid i) = 1 ∧ t.getF (Reg.ageingBroken i) = (if
        drifts.getD i 0 < -2000 ∨ 50000 < drifts.getD i 0 then 1 else 0) ∧ (s.getF (Reg.ageingBroken i) ≠ 1 →
        t.getF (Reg.ageingBroken i) = 1 → t.event 115)) ∧ s.sameRoles t ∧ t.dev = s.dev ∧ t.journal = s.journal) ∧
    (∀ (drifts : List Int), s.inLathedUp = false ∨ s.ageingDue = false ∨ s.deferred 14 = true →
      ∃ t, exec (.ageingMeasurement drifts) s = .next t ∧ t.cal = s.cal ∧ s.onlyRegs t []) ∧
    (∀ (p : Port) (l m a : Nat), s.ready p ∧ (s.dev = .lathed ∨ s.dev = .service ∨ s.dev = .doze) ∧ RoleRule.permits
        .both s.dev (s.session p).role = true ∧ s.deferred 14 = false ∧ s.covers 14 4 1 = true ∧ s.groupDrift 0 = l ∧
        s.groupDrift 1 = m ∧ s.groupDrift 2 = a →
      ∃ t, exec (.marginReplan p) s = .next t ∧ s.ended t p 0x50 0 ∧ t.getF Reg.planAGuardMv = min 60 (20 + 5 *
        ((l + 399) / 400)) ∧ t.getF Reg.planAMemTiming = (if m < 2000 then 0 else if m < 5000 then 1 else if m <
        10000 then 2 else 3) ∧ t.getF Reg.planAPrepIntervalH = max 168 (2160 - a / 5) ∧ t.getF
        Reg.planBCouplerPeriod = max 100 (6000 - a) ∧ t.getF Reg.ageingStatusDue = 0 ∧ t.getF
        Reg.ageingStatusPlans = (s.getF Reg.ageingStatusPlans + 1) % 65536 ∧ t.cal.plan = [l, m, a] ∧
        s.otherMemories t .spine ∧ s.sameBytesBut t .spine 1130496 8 ∧ s.sameRoles t ∧ t.dev = s.dev ∧ t.journal
        = s.journal)

/-- LINK_UP on an enabled link that is down aligns and raises it with EV_80; LINK_DOWN lowers it with EV_81, keeps the
alignment that is left, and loses a found baseband with EV_83. FRAME_DISCARD counts in COUNT_8. Once a bar in LATHED
and up, without a baseband, ANNOUNCE sends its one message with the next sequence ID; with one, at a bar that is a
multiple of 100, it first counts the ANNOUNCE before it as unanswered, and the third in a row loses the baseband
with EV_83. Of sound frames within MAX_FRAME and of the device's VLAN: an accepted ANNOUNCE_ACK makes its source the
found baseband with EV_82; one that names BASEBAND_ID 0, or another destination, counts in COUNT_9. A one-way delay
request is answered with t2; REMOTE_REQUEST from the baseband starts a measurement and sends t1; its response within
1 ms gives (t2 − tCV2) − t1 in units of 2^-16 ns; without it TIMEOUT is set after 1 ms. A follow-up changes nothing.
Other registers, memories, roles and engines stay. Conventions of the model it rests on: log entries 4, 108, 110. -/
def Obligations.LinkDiscoveryAndDelay : Prop :=
  ∀ (s : State),
    (s.phase = .run ∧ s.reached .link = true ∧ s.flag Reg.linkCtrlEnable = true ∧ s.flag Reg.linkStatusUp = false →
      ∃ t, exec (.linkUp) s = .next t ∧ t.getF Reg.linkStatusUp = 1 ∧ t.getF Reg.linkStatusLaneAligned = 15 ∧
        t.getF Reg.linkStatusFecAligned = 1 ∧ t.event 80 ∧ t.out.link = [] ∧ s.onlyRegs t [Reg.linkStatusUp,
        Reg.linkStatusLaneAligned, Reg.linkStatusFecAligned, Reg.evStatus 2]) ∧
    (∀ (lanes : BitVec 4) (fec : Bool), s.linkUp = true →
      ∃ t, exec (.linkDown lanes fec) s = .next t ∧ t.getF Reg.linkStatusUp = 0 ∧ t.getF
        Reg.linkStatusLaneAligned = lanes.toNat ∧ t.getF Reg.linkStatusFecAligned = bit fec ∧ t.event 81 ∧
        (s.getF Reg.linkStatusBbFound = 1 → t.getF Reg.linkStatusBbFound = 0 ∧ t.getF Reg.linkStatusUnanswered =
        0 ∧ t.event 83 ∧ t.fh.announced = false) ∧ s.onlyRegs t [Reg.linkStatusUp, Reg.linkStatusLaneAligned,
        Reg.linkStatusFecAligned, Reg.linkStatusLpi, Reg.linkStatusBbFound, Reg.linkStatusUnanswered,
        Reg.evStatus 2]) ∧
    (s.linkUp = true →
      ∃ t, exec (.frameDiscard) s = .next t ∧ t.getF (Reg.linkCount 8) = min (s.getF (Reg.linkCount 8) + 1) (2 ^
        32 - 1) ∧ s.onlyRegs t [Reg.linkCount 8]) ∧
    (s.linkUp = true ∧ s.inLathedUp = true ∧ s.fh.announceBar ≠ barOfNs s.nowNs + 1 ∧ s.flag Reg.linkStatusBbFound =
        false →
      ∃ t, exec (.announce) s = .next t ∧ t.out.link = [s.idMsg (s.getF Reg.announceDaLo + s.getF
        Reg.announceDaHi * 2 ^ 32) 7 2 (32768 * s.sideBit + 1) (mapGet 0 (65536 * 2 + (32768 * s.sideBit + 1))
        s.fh.seqTx) s.announceBody] ∧ mapGet 0 (65536 * 2 + (32768 * s.sideBit + 1)) t.fh.seqTx = (mapGet 0
        (65536 * 2 + (32768 * s.sideBit + 1)) s.fh.seqTx + 1) % 256 ∧ t.fh.announced = true ∧ t.fh.announceBar =
        barOfNs s.nowNs + 1 ∧ s.onlyRegs t []) ∧
    (s.linkUp = true ∧ s.inLathedUp = true ∧ s.fh.announceBar ≠ barOfNs s.nowNs + 1 ∧ s.flag Reg.linkStatusBbFound =
        true ∧ s.bar % 100 = 0 →
      ∃ t, exec (.announce) s = .next t ∧ (s.fh.announced = true ∧ 2 ≤ s.getF Reg.linkStatusUnanswered → t.getF
        Reg.linkStatusBbFound = 0 ∧ t.getF Reg.linkStatusUnanswered = 0 ∧ t.event 83) ∧ (s.fh.announced = true ∧
        s.getF Reg.linkStatusUnanswered < 2 → t.getF Reg.linkStatusBbFound = 1 ∧ t.getF Reg.linkStatusUnanswered
        = s.getF Reg.linkStatusUnanswered + 1) ∧ (s.fh.announced = false → t.getF Reg.linkStatusBbFound = 1 ∧
        t.getF Reg.linkStatusUnanswered = s.getF Reg.linkStatusUnanswered) ∧ t.out.link.length = 1 ∧
        t.fh.announced = true ∧ t.fh.announceBar = barOfNs s.nowNs + 1 ∧ s.onlyRegs t [Reg.linkStatusBbFound,
        Reg.linkStatusUnanswered, Reg.evStatus 2]) ∧
    (∀ (h : CtlHead) (ident : BitVec 64), s.linkUp = true ∧ s.takes h.frame ∧ ctlSound h 16 = true ∧ s.dev ≠
        .lightHold ∧ s.flag Reg.dozeStatusLightPending = false ∧ ident ≠ 0 ∧ s.getF Reg.bbIdPinLo = 0 ∧ s.getF
        Reg.bbIdPinHi = 0 ∧ s.flag Reg.linkStatusBbFound = false →
      ∃ t, exec (.announceAck h Config.deviceUid ident) s = .next t ∧ t.getF Reg.linkStatusBbFound = 1 ∧ t.bbMac
        = h.frame.src.toNat ∧ t.getF Reg.bbIdLo = ident.toNat % 2 ^ 32 ∧ t.getF Reg.bbIdHi = ident.toNat / 2 ^
        32 ∧ t.event 82 ∧ t.fh.announced = false ∧ t.getF Reg.linkStatusUnanswered = 0 ∧ s.onlyRegs t
        [Reg.linkStatusBbFound, Reg.bbMacLo, Reg.bbMacHi, Reg.bbIdLo, Reg.bbIdHi, Reg.linkStatusUnanswered,
        Reg.evStatus 2]) ∧
    (∀ (h : CtlHead) (uid : BitVec 64), s.linkUp = true ∧ s.takes h.frame ∧ ctlSound h 16 = true ∧ s.dev ≠
        .lightHold ∧ s.flag Reg.dozeStatusLightPending = false →
      ∃ t, exec (.announceAck h uid 0) s = .next t ∧ t.getF (Reg.linkCount 9) = min (s.getF (Reg.linkCount 9) +
        1) (2 ^ 32 - 1) ∧ t.fh = s.fh ∧ s.onlyRegs t [Reg.linkCount 9]) ∧
    (∀ (h : CtlHead) (uid ident : BitVec 64), s.linkUp = true ∧ h.frame.length.toNat ≤ s.maxFrame ∧ s.vlanTaken
        (frameVlan h.frame) = true ∧ ctlSound h 16 = true ∧ h.frame.dst ≠ Config.linkMac →
      ∃ t, exec (.announceAck h uid ident) s = .next t ∧ t.getF (Reg.linkCount 9) = min (s.getF (Reg.linkCount
        9) + 1) (2 ^ 32 - 1) ∧ t.fh = s.fh ∧ s.onlyRegs t [Reg.linkCount 9]) ∧
    (∀ (f : FrameHead) (ident : Byte), s.linkUp = true ∧ s.takes f ∧ frameSound f (decide (20 ≤ f.size.toNat)) =
        true ∧ s.timeValid = true →
      ∃ t, exec (.oneWayDelayRequest f ident) s = .next t ∧ t.out.link = [s.delayMsg f.src.toNat ([ident, 2] ++
        beBytes 6 (s.nowNs / 1000000000) ++ beBytes 4 (s.nowNs % 1000000000) ++ beBytes 8 0)] ∧ t.fh = s.fh ∧
        s.onlyRegs t []) ∧
    (∀ (f : FrameHead), s.linkUp = true ∧ s.takes f ∧ frameSound f (decide (20 ≤ f.size.toNat)) = true ∧ s.flag
        Reg.linkStatusBbFound = true ∧ f.src.toNat = s.bbMac ∧ s.flag Reg.owdCtrlBusy = false ∧ s.timeValid = true →
      ∃ t, exec (.remoteRequest f) s = .next t ∧ t.getF Reg.owdCtrlMeasId = (s.getF Reg.owdCtrlMeasId + 1) % 256
        ∧ t.getF Reg.owdCtrlBusy = 1 ∧ t.fh.owd = some (s.nowNs, s.drone.ticks) ∧ t.out.link = [s.delayMsg
        f.src.toNat (beBytes 1 (s.getF Reg.owdCtrlMeasId + 1) ++ beBytes 1 0 ++ beBytes 6 (s.nowNs / 1000000000)
        ++ beBytes 4 (s.nowNs % 1000000000) ++ beBytes 8 0)] ∧ s.onlyRegs t [Reg.owdCtrlMeasId,
        Reg.owdCtrlBusy]) ∧
    (∀ (h : DelayHead) (sec : BitVec 48) (ns : Word) (cv : BitVec 64) (t1 tick : Nat), s.fh.owd = some (t1, tick) ∧
        s.takes h.frame ∧ frameSound h.frame (decide (20 ≤ h.frame.size.toNat)) = true ∧ s.linkUp = true ∧
        h.ident.toNat = s.getF Reg.owdCtrlMeasId ∧ s.drone.ticks ≤ tick + nsTicks 1000000 →
      ∃ t, exec (.oneWayDelayResponse h sec ns cv) s = .next t ∧ t.fh.owd = none ∧ t.getF Reg.owdResultLo =
        (((sec.toNat * 1000000000 + ns.toNat - t1 : Int) * 65536 - cv.toInt) % 2 ^ 32).toNat ∧ t.fh.owdLast =
        (((sec.toNat * 1000000000 + ns.toNat - t1 : Int) * 65536 - cv.toInt) % 2 ^ 64).toNat ∧ t.getF
        Reg.owdCtrlDone = 1 ∧ t.getF Reg.owdCtrlBusy = 0 ∧ s.onlyRegs t [Reg.owdResultLo, Reg.owdCtrlDone,
        Reg.owdCtrlBusy]) ∧
    (∀ (t1 tick : Nat), s.fh.owd = some (t1, tick) ∧ s.beyondFret (s.tickNs (tick + 245760)) = false →
      ∃ t, exec (.owdTimeout) s = .next t ∧ t.fh.owd = none ∧ t.getF Reg.owdCtrlTimeout = 1 ∧ t.getF
        Reg.owdCtrlBusy = 0 ∧ t.drone.ticks = max s.drone.ticks (tick + 245760) ∧ s.sameMemories t ∧ s.sameRoles
        t ∧ t.dev = s.dev ∧ t.journal = s.journal) ∧
    (∃ t, exec (.followUp) s = .next t ∧ t.fh = s.fh ∧ t.out.link = [] ∧ s.onlyRegs t [])

/-- On a link that is up, a LAYER_DATA_SECTION that R326 or R327 calls malformed counts in COUNT_8. For a well-formed
one of an enabled downlink layer and its carrier: one that is not from the found baseband counts in COUNT_9; one
from it whose header does not fit the layer and carrier in COUNT_8; in service, one whose symbol lies more than the
early window ahead in COUNT_3, one less than 35 µs ahead in COUNT_4, one that overlaps an accepted section of the
symbol in COUNT_6; in SERVICE every other one is accepted with its PRBs and counts in COUNT_2. The PC_ID's sequence
ID is noted, and a gap in it counts in COUNT_7. A frame longer than MAX_FRAME counts in COUNT_8, and one of another
VLAN or destination changes nothing. Memories, roles and engines stay, with every other register. Convention of the
model it rests on: log entry 107. -/
def Obligations.DownlinkDataIsTakenOrCounted : Prop :=
  ∀ (s : State),
    (∀ (f : FrameHead) (pcId seqId : BitVec 16) (head : BitVec 128) (blocks : List Byte), s.linkUp = true ∧
        (s.maxFrame < f.length.toNat ∨ s.takes f ∧ (frameSound f (f.size.toNat == 20 + blocks.length) = false ∨
        blocks.length ≠ (SectionHead.ofBits head).count * blockBytes (bfpWidth (SectionHead.ofBits head).width) ∨
        seqId.toNat % 256 ≠ 128 ∨ testBit pcId.toNat 14 = false ∨ pcId.toNat / 32768 ≠ s.sideBit ∨ 48 ≤ pcId.toNat %
        64 ∨ s.flag (Reg.layerConfigEnable 1 (pcId.toNat % 64)) = false)) →
      ∃ t, exec (.layerDataSection f pcId seqId head blocks) s = .next t ∧ t.getF (Reg.linkCount 8) = min
        (s.getF (Reg.linkCount 8) + 1) (2 ^ 32 - 1) ∧ t.fh = s.fh ∧ s.onlyRegs t [Reg.linkCount 8]) ∧
    (∀ (f : FrameHead) (pcId seqId : BitVec 16) (head : BitVec 128) (blocks : List Byte), s.linkUp = true ∧
        f.length.toNat ≤ s.maxFrame ∧ (s.vlanTaken (frameVlan f) = false ∨ f.dst ≠ Config.linkMac) →
      ∃ t, exec (.layerDataSection f pcId seqId head blocks) s = .next t ∧ t.fh = s.fh ∧ s.onlyRegs t []) ∧
    (∀ (f : FrameHead) (pcId seqId : BitVec 16) (head : BitVec 128) (blocks : List Byte) (l c : Nat), s.linkUp =
        true ∧ s.takes f ∧ frameSound f (f.size.toNat == 20 + blocks.length) = true ∧ s.sectionMalformed pcId.toNat
        seqId.toNat (.ofBits head) blocks.length = false ∧ l = pcId.toNat % 64 ∧ c = s.getF (Reg.layerConfigCarrier 1
        l) ∧ (s.dev = .service ∨ s.dev = .lathed) →
      ∃ t, exec (.layerDataSection f pcId seqId head blocks) s = .next t ∧ mapGet 0 pcId.toNat t.fh.seqRx =
        seqId.toNat / 256 + 1 ∧ t.getF (Reg.linkCount 7) = (if mapGet 0 pcId.toNat s.fh.seqRx = 0 ∨ mapGet 0
        pcId.toNat s.fh.seqRx % 256 = seqId.toNat / 256 then s.getF (Reg.linkCount 7) else min (s.getF
        (Reg.linkCount 7) + 1) (2 ^ 32 - 1)) ∧ s.onlyRegs t [Reg.linkCount 2, Reg.linkCount 3, Reg.linkCount 4,
        Reg.linkCount 6, Reg.linkCount 7, Reg.linkCount 8, Reg.linkCount 9] ∧ (s.flag Reg.linkStatusBbFound =
        false ∨ f.src.toNat ≠ s.bbMac → t.getF (Reg.linkCount 9) = min (s.getF (Reg.linkCount 9) + 1) (2 ^ 32 -
        1) ∧ t.fh.accepted = s.fh.accepted) ∧ (s.flag Reg.linkStatusBbFound = true ∧ f.src.toNat = s.bbMac →
        (s.sectionFits l c (SectionHead.ofBits head) = false → t.getF (Reg.linkCount 8) = min (s.getF
        (Reg.linkCount 8) + 1) (2 ^ 32 - 1) ∧ t.fh.accepted = s.fh.accepted) ∧ (s.sectionFits l c
        (SectionHead.ofBits head) = true ∧ s.dev = .lathed → t.getF (Reg.linkCount 6) = min (s.getF
        (Reg.linkCount 6) + 1) (2 ^ 32 - 1) ∧ t.fh.accepted = s.fh.accepted) ∧ (s.sectionFits l c
        (SectionHead.ofBits head) = true ∧ s.dev = .service → (s.nowNs + 1000 * max 40 (min 1000 (s.getF
        Reg.dlWindowEarlyUs)) < s.airTime c (SectionHead.ofBits head) → t.getF (Reg.linkCount 3) = min (s.getF
        (Reg.linkCount 3) + 1) (2 ^ 32 - 1) ∧ t.fh.accepted = s.fh.accepted) ∧ (s.airTime c (SectionHead.ofBits
        head) ≤ s.nowNs + 1000 * max 40 (min 1000 (s.getF Reg.dlWindowEarlyUs)) → (s.airTime c
        (SectionHead.ofBits head) < s.nowNs + 35000 → t.getF (Reg.linkCount 4) = min (s.getF (Reg.linkCount 4) +
        1) (2 ^ 32 - 1) ∧ t.fh.accepted = s.fh.accepted) ∧ (s.nowNs + 35000 ≤ s.airTime c (SectionHead.ofBits
        head) → ((∃ x ∈ s.fh.accepted, x.layer = l ∧ x.ns = s.airTime c (SectionHead.ofBits head) ∧ x.first <
        (SectionHead.ofBits head).first + (SectionHead.ofBits head).count ∧ (SectionHead.ofBits head).first <
        x.first + x.count) → t.getF (Reg.linkCount 6) = min (s.getF (Reg.linkCount 6) + 1) (2 ^ 32 - 1) ∧
        t.fh.accepted = s.fh.accepted) ∧ ((∀ x ∈ s.fh.accepted, ¬ (x.layer = l ∧ x.ns = s.airTime c
        (SectionHead.ofBits head) ∧ x.first < (SectionHead.ofBits head).first + (SectionHead.ofBits head).count
        ∧ (SectionHead.ofBits head).first < x.first + x.count)) → t.getF (Reg.linkCount 2) = (s.getF
        (Reg.linkCount 2) + 1) % 2 ^ 32 ∧ t.fh.accepted = s.fh.accepted ++ [⟨l, s.airTime c (SectionHead.ofBits
        head), (SectionHead.ofBits head).width, (SectionHead.ofBits head).first, (SectionHead.ofBits
        head).count, blocks⟩]))))))

/-- A well-formed REG_CMD of the found baseband counts in COUNT_10. With BB_CONTROL 0 it is answered with ROLE_REJECT
and counts in COUNT_11. One whose tag and opcode were answered before is answered so again, and nothing runs. A
REG_FREE in LATHED or SERVICE on a chip without a twin, with nothing queued before it, frees its entry: both words
read as clean zeros, every other byte of memory stays, and the answer carries DONE. REG_RESP sends the first answer
to the baseband and keeps it; without a baseband it counts in COUNT_12 and is not kept. A STATUS that is due, and
the first 16 waiting detections or signature records, go to the baseband with the next sequence ID. Conventions of
the model it rests on: log entries 108, 109, 112. -/
def Obligations.FronthaulCommandsAndReports : Prop :=
  ∀ (s : State),
    (∀ (h : CtlHead) (tag : BitVec 16) (opcode : Byte) (args : List Word) (images : List Byte), s.linkUp = true ∧
        s.flag Reg.linkStatusBbFound = true ∧ h.frame.src.toNat = s.bbMac ∧ s.takes h.frame ∧ ctlSound h (20 + 64 *
        regImages opcode.toNat ((List.range 4).map fun i => (args.getD i 0).toNat)) = true ∧ s.dev ≠ .lightHold ∧
        s.flag Reg.dozeStatusLightPending = false ∧ images.length = 64 * regImages opcode.toNat ((List.range 4).map
        fun i => (args.getD i 0).toNat) ∧ s.flag Reg.linkCtrlBbControl = false →
      ∃ t, exec (.regCmd h tag opcode args images) s = .next t ∧ t.getF (Reg.linkCount 10) = (s.getF
        (Reg.linkCount 10) + 1) % 2 ^ 32 ∧ t.getF (Reg.linkCount 11) = min (s.getF (Reg.linkCount 11) + 1) (2 ^
        32 - 1) ∧ t.fh.ready = s.fh.ready ++ [⟨tag.toNat, opcode.toNat, beBytes 2 tag.toNat ++ beBytes 1
        opcode.toNat ++ beBytes 1 3 ++ beBytes 4 0 ++ beBytes 4 0 ++ beBytes 4 s.dev.code⟩] ∧ t.sched =
        { s.sched with staleFrom := t.sched.staleFrom } ∧ s.onlyRegs t [Reg.linkCount 10, Reg.linkCount 11]) ∧
    (∀ (h : CtlHead) (tag : BitVec 16) (opcode : Byte) (args : List Word) (images : List Byte) (r : RegReply),
        s.linkUp = true ∧ s.flag Reg.linkStatusBbFound = true ∧ h.frame.src.toNat = s.bbMac ∧ s.takes h.frame ∧
        ctlSound h (20 + 64 * regImages opcode.toNat ((List.range 4).map fun i => (args.getD i 0).toNat)) = true ∧
        s.dev ≠ .lightHold ∧ s.flag Reg.dozeStatusLightPending = false ∧ images.length = 64 * regImages opcode.toNat
        ((List.range 4).map fun i => (args.getD i 0).toNat) ∧ s.flag Reg.linkCtrlBbControl = true ∧ s.fh.queue = [] ∧
        s.sched.waiting = [] ∧ s.fh.kept.find? (fun x => x.tag == tag.toNat && x.opcode == opcode.toNat) = some r →
      ∃ t, exec (.regCmd h tag opcode args images) s = .next t ∧ t.getF (Reg.linkCount 10) = (s.getF
        (Reg.linkCount 10) + 1) % 2 ^ 32 ∧ t.fh = { s.fh with ready := s.fh.ready ++ [r] } ∧ s.onlyRegs t
        [Reg.linkCount 10]) ∧
    (∀ (h : CtlHead) (tag : BitVec 16) (args : List Word) (i : Nat), s.linkUp = true ∧ s.flag Reg.linkStatusBbFound
        = true ∧ h.frame.src.toNat = s.bbMac ∧ s.takes h.frame ∧ ctlSound h 20 = true ∧ (s.dev = .lathed ∨ s.dev =
        .service) ∧ s.flag Reg.dozeStatusLightPending = false ∧ s.flag Reg.linkCtrlBbControl = true ∧ (∀ r ∈
        s.fh.kept, ¬ (r.tag = tag.toNat ∧ r.opcode = 0x8A)) ∧ s.fh.queue = [] ∧ s.sched.waiting = [] ∧ s.deferred 12 =
        false ∧ s.covers 12 0 2 = true ∧ s.getF Reg.bridgeRole = 0 ∧ s.bridge.diverging = false ∧ i = (args.getD 0
        0).toNat ∧ i < s.getF Reg.partitionEntryLimit →
      ∃ t, exec (.regCmd h tag 0x8A args []) s = .next t ∧ t.bytesAre .registry (64 * i) 64 (fun _ => 0) ∧
        t.wordMark .registry (2 * i) = .clean ∧ t.wordMark .registry (2 * i + 1) = .clean ∧ i ∉
        t.sched.suspended ∧ s.sameBytesBut t .registry (64 * i) 64 ∧ s.otherMemories t .registry ∧ t.fh.ready =
        s.fh.ready ++ [⟨tag.toNat, 0x8A, beBytes 2 tag.toNat ++ beBytes 1 0x8A ++ beBytes 1 0 ++ beBytes 4 0 ++
        beBytes 4 0 ++ beBytes 4 s.dev.code⟩] ∧ t.getF (Reg.linkCount 10) = (s.getF (Reg.linkCount 10) + 1) % 2
        ^ 32 ∧ s.regsBut t [Reg.linkCount 10, Reg.suspendCount, Reg.nextWindowBarBar, Reg.nextWindowFretFret,
        Reg.nextWindowFretNone] ∧ s.sameRoles t ∧ s.sameEngines t) ∧
    (∀ (r : RegReply) (l : List RegReply), s.fh.ready = r :: l ∧ s.absent .link = false →
      ∃ t, exec (.regResp) s = .next t ∧ t.fh.ready = l ∧ (s.bbReady = true → t.out.link = [s.idMsg s.bbMac 5 2
        (32768 * s.sideBit + 0x21) (mapGet 0 (65536 * 2 + (32768 * s.sideBit + 0x21)) s.fh.seqTx) r.body] ∧
        t.fh.kept.getLast? = some r ∧ t.fh.kept.length ≤ 64 ∧ s.onlyRegs t []) ∧ (s.bbReady = false → t.out.link
        = [] ∧ t.fh.kept = s.fh.kept ∧ t.getF (Reg.linkCount 12) = min (s.getF (Reg.linkCount 12) + 1) (2 ^ 32 -
        1) ∧ s.onlyRegs t [Reg.linkCount 12])) ∧
    (s.phase = .run ∧ s.reached .link = true ∧ (s.fh.statusDue = true ∨ s.inLathedUp = true ∧ s.fh.statusBar ≠
        barOfNs s.nowNs + 1) ∧ s.bbReady = true ∧ s.absent .link = false →
      ∃ t, exec (.status) s = .next t ∧ t.out.link = [s.idMsg s.bbMac 6 2 (32768 * s.sideBit + 0x40) (mapGet 0
        (65536 * 2 + (32768 * s.sideBit + 0x40)) s.fh.seqTx) s.statusBody] ∧ mapGet 0 (65536 * 2 + (32768 *
        s.sideBit + 0x40)) t.fh.seqTx = (mapGet 0 (65536 * 2 + (32768 * s.sideBit + 0x40)) s.fh.seqTx + 1) % 256
        ∧ t.fh.statusDue = false ∧ (s.inLathedUp = true → t.fh.statusBar = barOfNs s.nowNs + 1) ∧ s.onlyRegs t
        []) ∧
    (s.fh.detects ≠ [] ∧ s.bbReady = true ∧ s.absent .link = false →
      ∃ t, exec (.detectReport) s = .next t ∧ t.out.link = [s.idMsg s.bbMac 6 2 (32768 * s.sideBit + 0x30)
        (mapGet 0 (65536 * 2 + (32768 * s.sideBit + 0x30)) s.fh.seqTx) (beBytes 1 (min 16 s.fh.detects.length)
        ++ beBytes 3 0 ++ (s.fh.detects.take 16).flatten)] ∧ t.fh.detects = s.fh.detects.drop 16 ∧ s.onlyRegs t
        []) ∧
    (s.fh.sigs ≠ [] ∧ s.bbReady = true ∧ s.absent .link = false →
      ∃ t, exec (.sigReport) s = .next t ∧ t.out.link = [s.idMsg s.bbMac 6 2 (32768 * s.sideBit + 0x31) (mapGet
        0 (65536 * 2 + (32768 * s.sideBit + 0x31)) s.fh.seqTx) (beBytes 1 (min 16 s.fh.sigs.length) ++ beBytes 3
        0 ++ (s.fh.sigs.take 16).flatten)] ∧ t.fh.sigs = s.fh.sigs.drop 16 ∧ s.onlyRegs t [])

/-- While the combiner is clocked, in whatever state, for an uplink layer with a latched symbol that is not sent, of
which the oldest has groups that fit into one section and at least one of them VALID: with a baseband found, one
message of priority 3 goes to it under the layer's PC_ID and next sequence ID. It goes once every sample of the
symbol has passed. Its header carries the bar, slot and symbol, the layer's BFP width, the settle mask with the bits
of the slot's earlier sections, PRB 0, the carrier's PRB count, two path counts of which the first is at most the
second, and the tag of the lowest VALID group; a block for each PRB follows, of zeros where its group is not VALID.
COUNT_0 rises; without a baseband COUNT_1 rises instead and nothing is sent. Other registers, memories, roles and
the journal stay. Conventions of the model it rests on: log entries 18, 105, 106. -/
def Obligations.UplinkSectionsCarryTheirHeader : Prop :=
  ∀ (s : State),
    (∀ (l : Fin 48) (runs : List RxRun) (c g : Nat) (y : SymLatch) (x : LayerLatch), s.phase = .run ∧ s.combinerOn =
        true ∧ s.domain .link = .on ∧ s.sectionNext l = some (c, y, x) ∧ s.beyondFret (s.tickNs (4 * y.reachEnd)) =
        false ∧ (y.prbs + 3) / 4 ≤ s.sectionGroups (bfpWidth x.width) ∧ g < (y.prbs + 3) / 4 ∧ s.latchValid x g = true
        ∧ (∀ k ∈ List.range g, s.latchValid x k = false) →
      ∃ t, exec (.uplinkSectionSend l runs) s = .next t ∧ (s.bbReady = true → ∃ mask most least blocks,
        t.out.link = [s.idMsg s.bbMac 3 0 (32768 * s.sideBit + l) (mapGet 0 (32768 * s.sideBit + l) s.fh.seqTx)
        (beBytes 4 (barOfNs y.ns) ++ beBytes 1 y.slot ++ beBytes 1 (16 * y.sym + 8 + x.width) ++ beBytes 2 mask
        ++ beBytes 2 0 ++ beBytes 2 y.prbs ++ beBytes 1 least ++ beBytes 1 most ++ beBytes 2 (x.tag g) ++
        blocks)] ∧ mask % 2 ^ y.sym = s.settleBits l 0 y.prbs (barOfNs y.ns) y.slot % 2 ^ y.sym ∧ mask < 2 ^
        (y.sym + 1) ∧ least ≤ most ∧ most ≤ 64 ∧ blocks.length = y.prbs * (1 + 3 * bfpWidth x.width) ∧ (∀ j, j <
        y.prbs → s.latchValid x (j / 4) = false → slice (j * (1 + 3 * bfpWidth x.width)) (1 + 3 * bfpWidth
        x.width) blocks = List.replicate (1 + 3 * bfpWidth x.width) 0) ∧ t.getF (Reg.linkCount 0) = (s.getF
        (Reg.linkCount 0) + 1) % 2 ^ 32 ∧ s.regsBut t ([Reg.linkCount 0] ++ (List.range 64).map
        Reg.rxInvalidSamplesCount)) ∧ (s.bbReady = false → t.out.link = [] ∧ t.getF (Reg.linkCount 1) = min
        (s.getF (Reg.linkCount 1) + 1) (2 ^ 32 - 1) ∧ s.regsBut t ([Reg.linkCount 1] ++ (List.range 64).map
        Reg.rxInvalidSamplesCount)) ∧ (∃ r ∈ t.fh.settle, r.layer = l ∧ r.last = y.ns) ∧ t.drone.ticks = max
        s.drone.ticks (4 * y.reachEnd) ∧ s.sameMemories t ∧ s.sameRoles t ∧ t.dev = s.dev ∧ t.journal =
        s.journal) ∧
    (∀ (l : Fin 48) (runs : List RxRun), s.phase ≠ .run ∨ s.combinerOn = false ∨ s.domain .link ≠ .on ∨
        s.sectionNext l = none →
      ∃ t, exec (.uplinkSectionSend l runs) s = .next t ∧ t.out.link = [] ∧ t.fh = s.fh ∧ s.onlyRegs t [])

/-- On a chip without a twin, a refresh of an undamaged entry that still names the endpoint, is not FREE, has at least 8
ACTIVE paths that contributed to its copied pilots, and pilots at most 2 frets old: word 1 takes the phases of the
paths, word 0 takes TIMING_OFFSET, CFO, SIG_AGE, QUALITY and NO_SIG 0 and keeps its other fields, COUNT_4 rises,
EV_51 is raised once in the fret, and the entry's preparation is redone; with SIG_REPORT_EN and room a record of it
waits for SIG_REPORT. A late one only counts in COUNT_5. In LATHED, SERVICE and DOZE, a detection at or above
DET_THRESHOLD raises EV_50, counts in COUNT_6, goes into its ring at WPTR, which moves on, and, with
DETECT_REPORT_EN and room, waits for DETECT_REPORT. Both wait where their class's grains do not cover them. No other
byte of memory changes. Conventions of the model it rests on: log entries 18, 90. -/
def Obligations.SignaturesAndDetectionsAreWritten : Prop :=
  ∀ (s : State),
    (∀ (i : Fin 262144) (ident : BitVec 40) (paths : BitVec 64) (seq : List (Fin 14 × List (Int × Int))) (timing cfo
        : BitVec 16) (quality : BitVec 8) (fret : Nat) (r : Refresh), s.inLathedUp = true ∧ s.reached .registry = true
        ∧ s.sched.refreshes = [] ∧ s.covers 2 0 2 = true ∧ i.val ∉ s.sched.suspended ∧ s.wordMark .registry (2 * i) =
        .clean ∧ s.getF Reg.bridgeRole = 0 ∧ 8 ≤ ((List.range 64).filter fun p => testBit r.paths.toNat p && s.path p
        == 3).length ∧ entryState (s.word0 i) ≠ 0 ∧ entryId (s.word0 i) = ident.toNat ∧ s.absFret ≤ fret + 2 ∧ r =
        s.refreshOf i ident paths (seq.map fun x => (x.1.val, x.2)) timing cfo quality fret →
      ∃ t, exec (.signatureRefresh i ident paths seq timing cfo quality fret) s = .next t ∧ t.word1 i =
        s.refreshWord1 r ∧ entryTiming (t.word0 i) = timing.toNat ∧ entryCfo (t.word0 i) = cfo.toNat ∧
        entrySigAge (t.word0 i) = s.bar / 16 % 2 ^ 16 ∧ entryQuality (t.word0 i) = quality.toNat ∧ entryNoSig
        (t.word0 i) = false ∧ bits (t.word0 i) 0 60 = bits (s.word0 i) 0 60 ∧ bits (t.word0 i) 92 88 = bits
        (s.word0 i) 92 88 ∧ bits (t.word0 i) 205 51 = bits (s.word0 i) 205 51 ∧ t.wordMark .registry (2 * i) =
        .clean ∧ t.wordMark .registry (2 * i + 1) = .clean ∧ t.getF (Reg.registryCount 4) = min (s.getF
        (Reg.registryCount 4) + 1) (2 ^ 32 - 1) ∧ (s.sched.refreshed = false → t.event 51) ∧ t.sched.refreshed =
        true ∧ i.val ∈ t.sched.stale ∧ (s.flag Reg.linkCtrlSigReportEn = true ∧ s.fh.sigs.length < 64 → ∃ r,
        t.fh.sigs = s.fh.sigs ++ [r] ∧ r.take 9 = beBytes 4 i ++ beBytes 5 ident.toNat ∧ r.length = 56) ∧
        s.sameBytesBut t .registry (64 * i) 64 ∧ s.otherMemories t .registry ∧ s.regsBut t [Reg.registryCount 4,
        Reg.linkCount 12, Reg.evStatus 1] ∧ s.sameRoles t ∧ s.sameEngines t) ∧
    (∀ (i : Fin 262144) (ident : BitVec 40) (paths : BitVec 64) (seq : List (Fin 14 × List (Int × Int))) (timing cfo
        : BitVec 16) (quality : BitVec 8) (fret : Nat), s.inLathedUp = true ∧ s.reached .registry = true ∧
        s.sched.refreshes = [] ∧ s.covers 2 0 2 = true ∧ i.val ∉ s.sched.suspended ∧ s.wordMark .registry (2 * i) =
        .clean ∧ fret + 2 < s.absFret →
      ∃ t, exec (.signatureRefresh i ident paths seq timing cfo quality fret) s = .next t ∧ t.getF
        (Reg.registryCount 5) = min (s.getF (Reg.registryCount 5) + 1) (2 ^ 32 - 1) ∧ s.onlyRegs t
        [Reg.registryCount 5]) ∧
    (∀ (i : Fin 262144) (ident : BitVec 40) (paths : BitVec 64) (seq : List (Fin 14 × List (Int × Int))) (timing cfo
        : BitVec 16) (quality : BitVec 8) (fret : Nat), s.inLathedUp = true ∧ s.reached .registry = true ∧
        s.sched.refreshes = [] ∧ s.covers 2 0 2 = false →
      ∃ t, exec (.signatureRefresh i ident paths seq timing cfo quality fret) s = .next t ∧ t.sched.refreshes =
        [s.refreshOf i ident paths (seq.map fun x => (x.1.val, x.2)) timing cfo quality fret] ∧ s.onlyRegs t
        [Reg.exhausted, Reg.exhaustedNow]) ∧
    (∀ (short bar : Word) (beam slot sym pre : BitVec 8) (timing cfo : BitVec 16) (metric : BitVec 8) (car : Fin 4)
        (w n a : Nat), s.inLathedUp = true ∧ s.flag Reg.registryCtrlDetectEn = true ∧ s.getF
        Reg.registryCtrlDetThreshold ≤ metric.toNat ∧ s.sched.detections = [] ∧ s.covers 3 4 1 = true ∧ n = s.getF
        Reg.detLenWords ∧ n ≠ 0 ∧ n ≤ 131072 ∧ w = s.getF Reg.detWptrWords ∧ (w + 1) % n ≠ s.getF Reg.detRptrWords ∧ a
        = (s.getF Reg.detBaseWords + w) % 131072 →
      ∃ t, exec (.gridDetection short bar beam slot sym pre timing cfo metric car) s = .next t ∧ t.event 50 ∧
        t.getF (Reg.registryCount 6) = min (s.getF (Reg.registryCount 6) + 1) (2 ^ 32 - 1) ∧ t.getF
        Reg.detWptrWords = (w + 1) % n ∧ t.bytesAre .capture (32 * a) 32 (fun i => (leBytes 4 short.toNat ++
        leBytes 4 bar.toNat ++ [beam, slot, sym, pre] ++ leBytes 2 timing.toNat ++ leBytes 2 cfo.toNat ++
        [metric] ++ leBytes 1 car).getD i 0) ∧ t.wordMark .capture a = .clean ∧ s.sameBytesBut t .capture (32 *
        a) 32 ∧ s.otherMemories t .capture ∧ t.used 3 4 = s.used 3 4 + (1 - s.part 3 4) ∧ (s.flag
        Reg.linkCtrlDetectReportEn = true ∧ s.fh.detects.length < 64 → t.fh.detects = s.fh.detects ++ [beBytes 4
        short.toNat ++ beBytes 4 bar.toNat ++ [beam, slot, sym, pre] ++ beBytes 2 timing.toNat ++ beBytes 2
        cfo.toNat ++ [metric] ++ beBytes 1 car ++ [0, 0]]) ∧ s.regsBut t [Reg.registryCount 6, Reg.detWptrWords,
        Reg.linkCount 12, Reg.evStatus 1] ∧ s.sameRoles t ∧ s.sameEngines t) ∧
    (∀ (short bar : Word) (beam slot sym pre : BitVec 8) (timing cfo : BitVec 16) (metric : BitVec 8) (car : Fin 4),
        s.inLathedUp = true ∧ s.flag Reg.registryCtrlDetectEn = true ∧ s.getF Reg.registryCtrlDetThreshold ≤
        metric.toNat ∧ s.sched.detections = [] ∧ s.covers 3 4 1 = false →
      ∃ t, exec (.gridDetection short bar beam slot sym pre timing cfo metric car) s = .next t ∧
        t.sched.detections = [⟨short, bar, beam, slot, sym, pre, timing, cfo, metric, car⟩] ∧ s.onlyRegs t
        [Reg.exhausted, Reg.exhaustedNow]) ∧
    (∀ (short bar : Word) (beam slot sym pre : BitVec 8) (timing cfo : BitVec 16) (metric : BitVec 8) (car : Fin 4),
        s.inLathedUp = false ∨ s.flag Reg.registryCtrlDetectEn = false ∨ metric.toNat < s.getF
        Reg.registryCtrlDetThreshold →
      ∃ t, exec (.gridDetection short bar beam slot sym pre timing cfo metric car) s = .next t ∧
        t.sched.detections = s.sched.detections ∧ s.onlyRegs t [])

/-- An accepted PTP frame on a link that is up, with RX_EN, counts in COUNT_0; with nothing held before it, HOSTACC
grains and a free slot it goes into the slot at WPTR with its length, marks and corrected timestamp, and WPTR moves
on; with no free slot it counts in COUNT_1. One longer than MAX_FRAME counts in LINK.COUNT_8, and one that is not
accepted changes nothing. A transmit slot with TX_EN between RPTR and WPTR, undamaged and well formed, is sent as a
PTP frame, RPTR moves on and COUNT_2 rises; with TS set and room its ID and time enter the timestamp queue, without
room COUNT_4 rises with EV_24. A malformed slot counts in COUNT_3. No other byte of memory changes. Convention of
the model it rests on: log entry 117. -/
def Obligations.PtpFramesInAndOut : Prop :=
  ∀ (s : State),
    (∀ (f : List Byte) (n w a : Nat), s.linkUp = true ∧ f.length + 4 ≤ s.maxFrame ∧ s.ptpAccepted f = true ∧ s.flag
        Reg.ptpCtrlRxEn = true ∧ s.time.ptpHeld = [] ∧ s.dev ≠ .lightHold ∧ s.covers 10 4 8 = true ∧ n = s.getF
        Reg.ptpRxLen ∧ n ≤ 2 ^ 22 ∧ w = s.getF Reg.ptpRxWptr ∧ s.getF Reg.ptpRxBase % 32 = 0 ∧ a = (s.getF
        Reg.ptpRxBase + 256 * w) % 4194304 ∧ a + 256 ≤ 4194304 →
      ∃ t, exec (.ptpFrame f) s = .next t ∧ t.getF (Reg.ptpCount 0) = (s.getF (Reg.ptpCount 0) + 1) % 2 ^ 32 ∧
        t.time.ptpHeld = [] ∧ (n = 0 ∨ (w + 1) % n = s.getF Reg.ptpRxRptr → t.getF (Reg.ptpCount 1) = min
        (s.getF (Reg.ptpCount 1) + 1) (2 ^ 32 - 1) ∧ s.sameMemories t) ∧ (n ≠ 0 ∧ (w + 1) % n ≠ s.getF
        Reg.ptpRxRptr → t.getF Reg.ptpRxWptr = (w + 1) % n ∧ t.bytesAre .capture a 256 (fun i => (rxSlot
        (s.stamp Reg.tsAdjRxAdj) s.timeValid (frameTagged f) f).getD i 0) ∧ t.cleanAt .capture a 256 ∧
        s.sameBytesBut t .capture a 256 ∧ s.otherMemories t .capture) ∧ s.regsBut t [Reg.ptpCount 0,
        Reg.ptpCount 1, Reg.ptpRxWptr] ∧ s.sameRoles t ∧ t.dev = s.dev ∧ t.journal = s.journal ∧ t.time.now =
        s.time.now) ∧
    (∀ (f : List Byte), s.linkUp = true ∧ f.length + 4 ≤ s.maxFrame ∧ s.ptpAccepted f = false →
      ∃ t, exec (.ptpFrame f) s = .next t ∧ t.time = s.time ∧ s.onlyRegs t []) ∧
    (∀ (f : List Byte), s.linkUp = true ∧ s.maxFrame < f.length + 4 →
      ∃ t, exec (.ptpFrame f) s = .next t ∧ t.getF (Reg.linkCount 8) = min (s.getF (Reg.linkCount 8) + 1) (2 ^
        32 - 1) ∧ t.time = s.time ∧ s.onlyRegs t [Reg.linkCount 8]) ∧
    (∀ (n r a : Nat) (d : List Byte), s.linkUp = true ∧ s.dev ≠ .lightHold ∧ s.flag Reg.ptpCtrlTxEn = true ∧ n =
        s.getF Reg.ptpTxLen ∧ n ≠ 0 ∧ n ≤ 2 ^ 22 ∧ r = s.getF Reg.ptpTxRptr ∧ r ≠ s.getF Reg.ptpTxWptr ∧ s.covers 10 4
        8 = true ∧ a = (s.getF Reg.ptpTxBase + 256 * r) % 4194304 ∧ s.cleanAt .capture a 256 ∧ d = s.bytesAt .capture
        a 256 →
      ∃ t, exec (.ptpTxSlot) s = .next t ∧ t.getF Reg.ptpTxRptr = (r + 1) % n ∧ (txSlotOk d = false → t.getF
        (Reg.ptpCount 3) = min (s.getF (Reg.ptpCount 3) + 1) (2 ^ 32 - 1) ∧ t.out.link = [] ∧ t.time = s.time) ∧
        (txSlotOk d = true → t.getF (Reg.ptpCount 2) = (s.getF (Reg.ptpCount 2) + 1) % 2 ^ 32 ∧ t.out.link =
        [s.ptpMsg (ofBe ((s.ptpTxFrame (slice 16 (leAt 0 2 d) d)).take 6)) (s.ptpTxFrame (slice 16 (leAt 0 2 d)
        d))] ∧ (testBit (leAt 2 1 d) 0 = true ∧ s.time.txts.length < 8 → t.time.txts = s.time.txts ++ [(leAt 4 2
        d, s.stamp Reg.tsAdjTxAdj)]) ∧ (testBit (leAt 2 1 d) 0 = true ∧ 8 ≤ s.time.txts.length → t.time.txts =
        s.time.txts ∧ t.event 24 ∧ t.getF (Reg.ptpCount 4) = min (s.getF (Reg.ptpCount 4) + 1) (2 ^ 32 - 1)) ∧
        (testBit (leAt 2 1 d) 0 = false → t.time.txts = s.time.txts)) ∧ s.sameMemories t ∧ s.sameRoles t ∧ t.dev
        = s.dev ∧ t.journal = s.journal ∧ t.time.now = s.time.now ∧ s.regsBut t [Reg.ptpTxRptr, Reg.ptpCount 2,
        Reg.ptpCount 3, Reg.ptpCount 4])

/-- For a port and role that may issue it, STENCIL_SELECT of an enabled host-directed layer requests its bank, fade
length and edge, replacing a request that waits, and sets PENDING; of the active bank, while no fade runs, it only
clears PENDING and the request. Other layers stay, with every other register, memory and engine. GRID_BUILD in
LATHED with GRID.MODE 0 writes the 256 grid rows of each direction that its mask names as chapter 07 gives them, as
clean words, and leaves every other byte as it was. Convention of the model it rests on: log entry 76. -/
def Obligations.StencilBanksAndGridRows : Prop :=
  ∀ (p : Port) (s : State),
    (∀ (d : Fin 2) (l : Fin 48) (b f e : Nat), s.ready p ∧ (s.dev = .lathed ∨ s.dev = .service ∨ s.dev = .doze) ∧
        RoleRule.permits .op s.dev (s.session p).role = true ∧ s.argW 0 % 2 = d ∧ s.argW 0 / 256 % 64 = l ∧ s.flag
        (Reg.layerConfigEnable d l) = true ∧ s.flag (Reg.layerConfigSource d l) = true ∧ s.argW 1 = b ∧ b ≤ 1 ∧ s.argW
        2 = f ∧ f ≤ 1023 ∧ s.argW 3 = e ∧ (e ≤ 1 ∨ 8 ≤ e ∧ e ≤ 15) →
      ∃ t, exec (.stencilSelect p) s = .next t ∧ s.ended t p 0x80 0 ∧ (b = s.getF (Reg.layerStatusBankActive d
        l) ∧ (s.layer (48 * d + l)).fade = none → t.getF (Reg.layerStatusPending d l) = 0 ∧ (t.layer (48 * d +
        l)).select = none) ∧ (b ≠ s.getF (Reg.layerStatusBankActive d l) ∨ (s.layer (48 * d + l)).fade ≠ none →
        t.getF (Reg.layerStatusPending d l) = 1 ∧ (t.layer (48 * d + l)).select = some ⟨b, f, e⟩) ∧ (t.layer (48
        * d + l)).fade = (s.layer (48 * d + l)).fade ∧ (∀ k ∈ List.range 96, k ≠ 48 * d + l → t.layer k =
        s.layer k) ∧ s.onlyRegs t [Reg.layerStatusPending d l]) ∧
    (s.ready p ∧ s.dev = .lathed ∧ RoleRule.permits .inst s.dev (s.session p).role = true ∧ s.flag Reg.gridMode =
        false ∧ s.absent .spectral = false →
      ∃ t, exec (.gridBuild p) s = .next t ∧ s.ended t p 0x81 0 ∧ (∀ d ∈ List.range 2, testBit (s.argW 0) d =
        true → ∀ b ∈ List.range 256, t.bytesAre .stencil (256 * (4096 + 256 * d + b)) 256 (fun i => ((s.gridRow
        d b).flatMap fun w => leBytes 4 w.word).getD i 0) ∧ t.cleanAt .stencil (256 * (4096 + 256 * d + b)) 256)
        ∧ (∀ d ∈ List.range 2, testBit (s.argW 0) d = false → ∀ b ∈ List.range 65536, (t.mem .stencil).byte
        (1048576 + 65536 * d + b) = (s.mem .stencil).byte (1048576 + 65536 * d + b)) ∧ s.sameBytesBut t .stencil
        1048576 131072 ∧ s.otherMemories t .stencil ∧ s.regsBut t [] ∧ s.sameRoles t ∧ s.sameEngines t)

/-- For a port with role operator in LATHED or SERVICE, on a chip without a twin and with REGMAINT grains: REG_WRITE of
both words of an entry below ENTRY_LIMIT, from an undamaged image that breaks no rule of R276, writes the image and
resumes the entry; a duplicate ENDPOINT_ID is rejected with reason 19 and changes no entry. REG_BULK of word 1 of
COUNT undamaged entries, none FREE or suspended, writes each and reports COUNT. REG_FREE leaves clean zeros.
REG_FIND answers the first entry with the ENDPOINT_ID, or 0xFFFFFFFF. REG_WINDOW in SERVICE, for a fret to come of
an entry not FREE, adds a one-off window, or, for ACTION 1 and an occurrence that starts there, cancels it. Every
other byte of memory stays. Conventions of the model it rests on: log entries 84, 85, 86. -/
def Obligations.RegistryCommandsOfTheHost : Prop :=
  ∀ (p : Port) (s : State),
    (∀ (i off e : Nat), s.ready p ∧ (s.dev = .lathed ∨ s.dev = .service) ∧ RoleRule.permits .op s.dev (s.session
        p).role = true ∧ s.getF Reg.bridgeRole = 0 ∧ s.bridge.diverging = false ∧ s.deferred 12 = false ∧
        s.sched.waiting = [] ∧ s.covers 12 0 2 = true ∧ s.covers 12 4 2 = true ∧ s.argW 0 = i ∧ i < s.getF
        Reg.partitionEntryLimit ∧ s.argW 1 = 3 ∧ s.argW 2 = off ∧ off % 4 = 0 ∧ off + 64 ≤ 4194304 ∧ s.cleanAt
        .capture off 64 ∧ e = ofLe (s.bytesAt .capture off 32) ∧ entryState e < 3 ∧ bits e 212 44 = 0 ∧ (entryState e
        ≠ 0 → s.entryFits e = true) ∧ s.duplicate i (entryId e) = false ∧ (s.word0Bad i = true ∨ entryState (s.word0
        i) ≠ 3 ∨ entryState e ≠ 2) →
      ∃ t, exec (.regWrite p) s = .next t ∧ s.ended t p 0x88 0 ∧ t.resultsAre [0] ∧ t.bytesAre .registry (64 *
        i) 64 (fun k => (s.mem .capture).byte (off + k)) ∧ t.wordMark .registry (2 * i) = .clean ∧ t.wordMark
        .registry (2 * i + 1) = .clean ∧ i ∉ t.sched.suspended ∧ i ∈ t.sched.stale ∧ s.sameBytesBut t .registry
        (64 * i) 64 ∧ s.otherMemories t .registry ∧ s.regsBut t [Reg.suspendCount, Reg.nextWindowBarBar,
        Reg.nextWindowFretFret, Reg.nextWindowFretNone] ∧ s.sameRoles t ∧ s.sameEngines t) ∧
    (∀ (i j off e : Nat), s.ready p ∧ (s.dev = .lathed ∨ s.dev = .service) ∧ RoleRule.permits .op s.dev (s.session
        p).role = true ∧ s.getF Reg.bridgeRole = 0 ∧ s.deferred 12 = false ∧ s.sched.waiting = [] ∧ s.covers 12 0 2 =
        true ∧ s.covers 12 4 2 = true ∧ s.argW 0 = i ∧ i < s.getF Reg.partitionEntryLimit ∧ s.argW 1 = 3 ∧ s.argW 2 =
        off ∧ off % 4 = 0 ∧ off + 64 ≤ 4194304 ∧ s.cleanAt .capture off 64 ∧ e = ofLe (s.bytesAt .capture off 32) ∧
        entryState e < 3 ∧ bits e 212 44 = 0 ∧ (entryState e ≠ 0 → s.entryFits e = true) ∧ j ∈ s.heldEntries ∧ j ≠ i ∧
        entryId (s.word0 j) = entryId e →
      ∃ t, exec (.regWrite p) s = .next t ∧ s.ended t p 0x88 4 ∧ t.resultsAre [19] ∧ s.onlyRegs t
        [Reg.nextWindowBarBar, Reg.nextWindowFretFret, Reg.nextWindowFretNone]) ∧
    (∀ (i n off : Nat), s.ready p ∧ (s.dev = .lathed ∨ s.dev = .service) ∧ RoleRule.permits .op s.dev (s.session
        p).role = true ∧ s.getF Reg.bridgeRole = 0 ∧ s.bridge.diverging = false ∧ s.deferred 12 = false ∧
        s.sched.waiting = [] ∧ s.covers 12 0 n = true ∧ s.covers 12 4 (2 * n) = true ∧ s.argW 0 = i ∧ s.argW 1 = n ∧ 1
        ≤ n ∧ n ≤ 4096 ∧ i + n ≤ s.getF Reg.partitionEntryLimit ∧ s.argW 2 = 2 ∧ s.argW 3 = off ∧ off % 4 = 0 ∧ off +
        64 * n ≤ 4194304 ∧ s.cleanAt .capture off (64 * n) ∧ (∀ k, k < n → i + k ∉ s.sched.suspended ∧ s.wordMark
        .registry (2 * (i + k)) = .clean ∧ entryState (s.word0 (i + k)) ≠ 0) →
      ∃ t, exec (.regBulk p) s = .next t ∧ s.ended t p 0x89 0 ∧ t.resultsAre [0, n] ∧ (∀ k, k < n → t.bytesAre
        .registry (64 * (i + k) + 32) 32 (fun b => (s.mem .capture).byte (off + 64 * k + 32 + b)) ∧ t.wordMark
        .registry (2 * (i + k) + 1) = .clean ∧ i + k ∈ t.sched.stale) ∧ (∀ k, k < n → t.word0 (i + k) = s.word0
        (i + k)) ∧ s.sameBytesBut t .registry (64 * i) (64 * n) ∧ s.otherMemories t .registry ∧ s.regsBut t
        [Reg.nextWindowBarBar, Reg.nextWindowFretFret, Reg.nextWindowFretNone] ∧ s.sameRoles t ∧ s.sameEngines
        t) ∧
    (∀ (i : Nat), s.ready p ∧ (s.dev = .lathed ∨ s.dev = .service) ∧ RoleRule.permits .op s.dev (s.session p).role =
        true ∧ s.getF Reg.bridgeRole = 0 ∧ s.bridge.diverging = false ∧ s.deferred 12 = false ∧ s.sched.waiting = [] ∧
        s.covers 12 0 2 = true ∧ s.argW 0 = i ∧ i < s.getF Reg.partitionEntryLimit →
      ∃ t, exec (.regFree p) s = .next t ∧ s.ended t p 0x8A 0 ∧ t.resultsAre [0] ∧ t.bytesAre .registry (64 * i)
        64 (fun _ => 0) ∧ t.wordMark .registry (2 * i) = .clean ∧ t.wordMark .registry (2 * i + 1) = .clean ∧ i
        ∉ t.sched.suspended ∧ i ∈ t.sched.stale ∧ s.sameBytesBut t .registry (64 * i) 64 ∧ s.otherMemories t
        .registry ∧ s.regsBut t [Reg.suspendCount, Reg.nextWindowBarBar, Reg.nextWindowFretFret,
        Reg.nextWindowFretNone] ∧ s.sameRoles t ∧ s.sameEngines t) ∧
    (∀ (n : Nat), s.ready p ∧ (s.dev = .lathed ∨ s.dev = .service) ∧ RoleRule.permits .op s.dev (s.session p).role =
        true ∧ s.deferred 12 = false ∧ s.sched.waiting = [] ∧ s.covers 12 0 (max 1 s.liveEntries.length) = true ∧
        s.argW 1 < 256 ∧ (∀ i ∈ s.entries, s.word0Bad i = false) ∧ n = (s.liveEntries.find? fun i => entryId (s.word0
        i) == s.argW 0 + s.argW 1 * 2 ^ 32).getD 0xFFFFFFFF →
      ∃ t, exec (.regFind p) s = .next t ∧ s.ended t p 0x8B 0 ∧ t.resultsAre [n] ∧ s.onlyRegs t
        [Reg.nextWindowBarBar, Reg.nextWindowFretFret, Reg.nextWindowFretNone]) ∧
    (∀ (i w : Nat) (f : Int), s.ready p ∧ s.phase = .run ∧ s.dev = .service ∧ RoleRule.permits .op s.dev (s.session
        p).role = true ∧ s.getF Reg.bridgeRole = 0 ∧ s.deferred 12 = false ∧ s.sched.waiting = [] ∧ s.covers 12 0 1 =
        true ∧ s.argW 0 = i ∧ i < s.getF Reg.partitionEntryLimit ∧ i ∉ s.sched.suspended ∧ s.wordMark .registry (2 *
        i) = .clean ∧ entryState (s.word0 i) ≠ 0 ∧ s.argW 2 = w ∧ w < 131072 ∧ bits w 6 2 = 0 ∧ bits w 14 2 = 0 ∧ bits
        w 0 6 < 40 ∧ 1 ≤ bits w 8 6 ∧ bits w 8 6 ≤ 40 ∧ f = s.fretAt (s.argW 1) (bits w 0 6) ∧ s.fretNow < f ∧ 4000 ≤
        f * 250000 - s.nowNs ∧ (testBit w 16 = true → (entryState (s.word0 i) = 2 ∨ entryState (s.word0 i) = 3) ∧
        s.occStart (s.word0 i) f = some f) →
      ∃ t, exec (.regWindow p) s = .next t ∧ s.ended t p 0x8C 0 ∧ t.resultsAre [0] ∧ (testBit w 16 = false →
        t.sched.oneOffs = s.sched.oneOffs ++ [⟨i, f, f + bits w 8 6 - 1, true⟩] ∧ t.sched.cancels =
        s.sched.cancels) ∧ (testBit w 16 = true → t.sched.cancels = s.sched.cancels ++ [(i, f, f)] ∧
        t.sched.oneOffs = s.sched.oneOffs.filter fun o => !(o.index == i && o.start == f)) ∧ i ∈ t.sched.stale ∧
        s.onlyRegs t [Reg.nextWindowBarBar, Reg.nextWindowFretFret, Reg.nextWindowFretNone])

/-- While the scheduler runs and has followed the frets, with nothing to undo: FRET_PREPARATION adds the list of the
next fret behind those prepared, fewer than 8; it opens at most 64 windows and holds at most 1,024, and none in
LATHED with no service start pending. RUNAHEAD_REBUILD makes lists again for the same frets, and changes none where
nothing is stale, unbuilt or without a staging map. After the first 70 µs of a fret WINDOW_LIST_CLOSE closes the
next fret's list. In service, with a baseband found, WINDOW_MAP sends the records of the next fret's closed list, in
window-list order, in as many messages as they need, once, with REVISION 0; WINDOW_MAP_REVISION sends those of a
fret that changed since, with the next REVISION. Only stencil memory is written; device state, lath, roles and
journal stay. Conventions of the model it rests on: log entries 42, 83, 88, 89, 92. -/
def Obligations.SchedulerPreparesTheFretsToCome : Prop :=
  ∀ (s : State),
    (∀ (prev : PrepFret), s.schedRuns = true ∧ s.sched.cur.fret = s.fretNow ∧ s.sched.stale = [] ∧ s.sched.staleFrom
        = none ∧ s.sched.prep.length < 8 ∧ prev = (s.sched.prep.getLast?).getD s.sched.cur →
      ∃ t, exec (.fretPreparation) s = .next t ∧ t.sched.prep.length = s.sched.prep.length + 1 ∧
        t.sched.prep.take s.sched.prep.length = s.sched.prep ∧ t.sched.cur = s.sched.cur ∧ (∀ q ∈
        t.sched.prep.getLast?, q.fret = prev.fret + 1 ∧ q.closed = false ∧ q.revision = none ∧ ((∀ w ∈
        prev.wins, w.opens ≤ prev.fret) ∧ prev.wins.length ≤ 1024 → q.wins.length ≤ 1024 ∧ (q.wins.filter fun w
        => w.opens == q.fret).length ≤ 64) ∧ (s.dev = .lathed ∧ s.startBar = none → q.wins = [])) ∧
        s.otherMemories t .stencil ∧ s.sameRoles t ∧ t.phase = s.phase ∧ t.dev = s.dev ∧ t.lath = s.lath ∧
        t.journal = s.journal ∧ t.time = s.time ∧ t.drone = s.drone) ∧
    (s.schedRuns = true ∧ s.sched.cur.fret = s.fretNow →
      ∃ t, exec (.runaheadRebuild) s = .next t ∧ t.sched.prep.map PrepFret.fret = s.sched.prep.map PrepFret.fret
        ∧ t.sched.cur = s.sched.cur ∧ t.sched.stale = [] ∧ (s.sched.stale = [] ∧ s.sched.staleFrom = none ∧ (∀ q
        ∈ s.sched.prep, q.unbuilt = [] ∧ s.mapsMissing q = false) → t.sched.prep = s.sched.prep ∧ s.sameMemories
        t) ∧ s.otherMemories t .stencil ∧ s.sameRoles t ∧ t.phase = s.phase ∧ t.dev = s.dev ∧ t.lath = s.lath ∧
        t.journal = s.journal ∧ t.time = s.time ∧ t.drone = s.drone) ∧
    (∀ (q : PrepFret) (l : List PrepFret), s.schedRuns = true ∧ s.sched.cur.fret = s.fretNow ∧ s.sched.stale = [] ∧
        s.sched.staleFrom = none ∧ s.sched.prep = q :: l ∧ s.absFret * 250000 + 70000 ≤ s.nowNs →
      ∃ t, exec (.windowListClose) s = .next t ∧ t.sched.prep = { q with closed := true } :: l ∧ t.sched.cur =
        s.sched.cur ∧ (s.dev = .lathed → t.doze = s.doze) ∧ s.sameMemories t ∧ s.sameRoles t ∧ t.phase = s.phase
        ∧ t.dev = s.dev ∧ t.lath = s.lath ∧ t.journal = s.journal ∧ t.time = s.time ∧ t.drone = s.drone) ∧
    (∀ (q : PrepFret) (l : List PrepFret), s.inService = true ∧ s.bbReady = true ∧ s.absent .link = false ∧
        s.sched.stale = [] ∧ s.sched.staleFrom = none ∧ s.sched.prep = q :: l ∧ q.closed = true ∧ q.revision = none ∧
        (∀ x ∈ l, x.fret ≠ q.fret) →
      ∃ t, exec (.windowMap) s = .next t ∧ (∃ a b, t.sched.prep =
        { q with revision := some 0, changed := a, offsets := b } :: l) ∧ (t.out.link.flatMap fun m =>
        m.body.drop 16) = q.wins.flatMap (s.mapRecord q) ∧ t.out.link.length = max 1 ((q.wins.length +
        (s.maxFrame - s.frameOverhead - 16) / 20 - 1) / ((s.maxFrame - s.frameOverhead - 16) / 20)) ∧ (∀ m ∈
        t.out.link, m.dst = s.bbMac ∧ m.prio = 4 ∧ m.typ = 2 ∧ m.id = 32768 * s.sideBit + 0x10 ∧ m.body.take 8 =
        beBytes 4 (ofSigned 32 (q.fret / 40)) ++ beBytes 1 (q.fret % 40).toNat ++ beBytes 1 0 ++ beBytes 2
        q.wins.length) ∧ s.onlyRegs t []) ∧
    (∀ (q : PrepFret) (l : List PrepFret) (r : Nat), s.inService = true ∧ s.bbReady = true ∧ s.absent .link = false
        ∧ s.sched.stale = [] ∧ s.sched.staleFrom = none ∧ s.sched.prep = q :: l ∧ q.changed = true ∧ q.revision = some
        r ∧ (∀ x ∈ l, x.fret ≠ q.fret ∧ (x.revision = none ∨ x.changed = false)) →
      ∃ t, exec (.windowMapRevision) s = .next t ∧ t.sched.prep =
        { q with revision := some ((r + 1) % 256), changed := false } :: l ∧ (t.out.link.flatMap fun m =>
        m.body.drop 16) = q.wins.flatMap (s.mapRecord q) ∧ (∀ m ∈ t.out.link, m.dst = s.bbMac ∧ m.prio = 4 ∧
        m.typ = 2 ∧ m.id = 32768 * s.sideBit + 0x10 ∧ m.body.take 8 = beBytes 4 (ofSigned 32 (q.fret / 40)) ++
        beBytes 1 (q.fret % 40).toNat ++ beBytes 1 ((r + 1) % 256) ++ beBytes 2 q.wins.length) ∧ s.onlyRegs t
        [])

/-- For a port and role that may issue them: TWIN_INFO reports role, status, EPOCH and divergence count; DIVERGENCE_COPY
copies the undamaged records from FIRST_SEQ on and reports how many; DIVERGENCE_CLEAR empties the log, and reports
BUSY while roles are arbitrated or a re-formed pair is not SYNCED. Training starts under R355, and again after 1 ms;
trained lanes give the latency and send IDENT with the next SEQ, and once IDENT has come too TRAINED is set and
EV_88 raised. An IDENT that fails a test of R356 leaves REFUSE and role SOLO; one that passes forms the pair with
the roles and reason of R359 and R373, and the follow takes the lead's EPOCH. A trained pair sends a heartbeat 10 µs
after the last, and a received one gives PEER_STATE and SKEW, and tells the lead when the follow is SYNCED.
SYNC_MARK starts the sync map, or ends the sync once every held entry is marked and every MIRROR applied. A start
that the twin proposes and this chip accepts is passed on. A bad frame counts in COUNT_6. Conventions of the model
it rests on: log entries 10, 114, 115. -/
def Obligations.TwinCommandsAndFormation : Prop :=
  ∀ (s : State),
    (∀ (p : Port), s.ready p ∧ s.dev ≠ .lightHold →
      ∃ t, exec (.twinInfo p) s = .next t ∧ s.ended t p 0xA0 0 ∧ t.resultsAre [s.regValue 0x1500000, s.regValue
        0x1500008, s.getF Reg.linkEpoch, s.getF Reg.divergenceCount] ∧ s.onlyRegs t [Reg.arg 2, Reg.arg 3]) ∧
    (∀ (p : Port) (n m k a : Nat), s.ready p ∧ s.dev ≠ .lightHold ∧ RoleRule.permits .both s.dev (s.session p).role
        = true ∧ s.argW 2 = a ∧ a % 4 = 0 ∧ 1 ≤ s.argW 1 ∧ s.argW 1 ≤ 256 ∧ a + 64 * s.argW 1 ≤ 4194304 ∧ s.deferred
        10 = false ∧ s.covers 10 4 (2 * k) = true ∧ n = s.getF Reg.divergenceCount ∧ n ≤ 1024 ∧ m = s.argW 0 -
        (s.bridge.divNext - n) ∧ k = min (s.argW 1) (n - m) ∧ s.cleanAt .spine divergenceAddr 65536 ∧ s.cleanAt
        .capture a (64 * s.argW 1) →
      ∃ t, exec (.divergenceCopy p) s = .next t ∧ s.ended t p 0xA4 0 ∧ t.resultsAre [k] ∧ t.bytesAre .capture a
        (64 * k) (fun i => (s.mem .spine).byte (divergenceAddr + 64 * m + i)) ∧ s.sameBytesBut t .capture a (64
        * k) ∧ s.otherMemories t .capture ∧ s.regsBut t [] ∧ s.sameRoles t ∧ s.sameEngines t) ∧
    (∀ (p : Port), s.ready p ∧ s.dev ≠ .lightHold ∧ RoleRule.permits .op s.dev (s.session p).role = true →
      ∃ t, exec (.divergenceClear p) s = .next t ∧ (s.flag Reg.bridgeStatusArbitrating = true ∨ s.bridge.paired
        = true ∧ s.bridge.reformed = true ∧ s.flag Reg.bridgeStatusSynced = false → s.ended t p 0xA5 1 ∧
        s.onlyRegs t []) ∧ (s.flag Reg.bridgeStatusArbitrating = false ∧ (s.bridge.paired = false ∨
        s.bridge.reformed = false ∨ s.flag Reg.bridgeStatusSynced = true) → s.ended t p 0xA5 0 ∧ t.getF
        Reg.divergenceCount = 0 ∧ t.bytesAre .spine divergenceAddr 65536 (fun _ => 0) ∧ s.sameBytesBut t .spine
        divergenceAddr 65536 ∧ s.otherMemories t .spine ∧ s.regsBut t [Reg.divergenceCount] ∧ s.sameRoles t ∧
        s.sameEngines t)) ∧
    (∀ (k : Nat), s.bridgeOn = true ∧ s.flag Reg.bridgeCtrlEnable = true ∧ s.inLathedUp = true ∧ s.bridge.refused =
        false ∧ s.flag Reg.bridgeStatusTrained = false ∧ k = (if s.bridge.training = true then max s.drone.ticks
        (s.bridge.trainTick + 245760) else s.drone.ticks) ∧ s.beyondFret (s.tickNs k) = false →
      ∃ t, exec (.bridgeTraining) s = .next t ∧ (s.side ≠ 0 → t.bridge =
        { s.bridge with training := true, trainTick := k, identSent := false, identGot := none } ∧ t.drone.ticks
        = k) ∧ (s.side = 0 → t.bridge = s.bridge) ∧ s.sameMemories t ∧ s.sameRoles t ∧ t.dev = s.dev ∧ t.lath =
        s.lath ∧ t.journal = s.journal) ∧
    (∀ (rt : Nat), s.bridgeOn = true ∧ s.flag Reg.bridgeCtrlEnable = true ∧ s.inLathedUp = true ∧ s.bridge.refused =
        false ∧ s.bridge.training = true ∧ s.bridge.identSent = false ∧ (s.bridge.identGot = none ∨ s.bridge.paired =
        true) →
      ∃ t, exec (.bridgeTrained rt) s = .next t ∧ (s.side ≠ 0 → t.getF Reg.bridgeLatencyOneWayNs = min 1023 (rt
        / 2) ∧ t.bridge.paired = s.bridge.paired ∧ t.out.bridge = [⟨1, if s.bridge.paired then mapGet 0 1
        s.bridge.seqTx else 0, s.getF Reg.linkEpoch, s.ident.bytes⟩] ∧ (s.bridge.identGot = none →
        t.bridge.training = true ∧ t.bridge.identSent = true ∧ t.getF Reg.bridgeStatusTrained = s.getF
        Reg.bridgeStatusTrained) ∧ (s.bridge.identGot ≠ none → t.getF Reg.bridgeStatusTrained = 1 ∧ t.event 88 ∧
        t.bridge.training = false ∧ t.bridge.heartbeatTick = s.drone.ticks ∧ t.bridge.checkSuspended = false)) ∧
        (s.side = 0 → t.bridge = s.bridge ∧ t.out.bridge = [] ∧ t.getF Reg.bridgeStatusTrained = s.getF
        Reg.bridgeStatusTrained) ∧ s.onlyRegs t [Reg.bridgeStatusTrained, Reg.bridgeLatencyOneWayNs,
        Reg.evStatus 2]) ∧
    (∀ (uid : BitVec 64) (side : Fin 3) (st : Fin 8) (role : Fin 4) (elder : Bool) (inst op : BitVec 128) (by_ : Fin
        8) (div entries : Nat) (epoch : Word) (q : Peer) (c : Nat), s.bridgeOn = true ∧ s.flag Reg.bridgeCtrlEnable =
        true ∧ s.inLathedUp = true ∧ s.bridge.refused = false ∧ s.bridge.training = true ∧ s.bridge.identSent = true ∧
        s.bridge.paired = false ∧ q = ⟨uid.toNat, side, st, role, elder, beBytes 16 inst.toNat, beBytes 16 op.toNat,
        by_, div, entries⟩ ∧ c = s.refuseCode q →
      ∃ t, exec (.ident uid side st role elder inst op by_ div entries epoch) s = .next t ∧ (s.side = 0 →
        t.bridge = s.bridge ∧ s.onlyRegs t []) ∧ (s.side ≠ 0 → t.getF Reg.bridgeStatusTrained = 1 ∧ t.event 88 ∧
        t.bridge.training = false ∧ t.peerUid = uid.toNat ∧ t.getF Reg.bridgeStatusPeerState = s.getF
        Reg.bridgeStatusPeerState ∧ t.bridge.peer = some q ∧ t.getF Reg.bridgeStatusRefuse = c ∧ (c ≠ 0 →
        t.bridge.paired = false ∧ t.bridge.refused = true ∧ t.getF Reg.bridgeRole = 0 ∧ t.getF Reg.linkEpoch =
        s.getF Reg.linkEpoch) ∧ (c = 0 → t.bridge.paired = true ∧ t.getF Reg.bridgeRole = (if (leadOf s.ident
        q).1 then 1 else 2) ∧ t.getF Reg.bridgeStatusDecidedBy = (leadOf s.ident q).2 % 8 ∧ t.getF
        Reg.bridgeStatusArbitrating = 0 ∧ t.getF Reg.bridgeStatusSynced = 0 ∧ t.getF Reg.linkEpoch = (if (leadOf
        s.ident q).1 then s.getF Reg.linkEpoch else epoch.toNat)) ∧ (s.getF Reg.bridgeRole ≠ t.getF
        Reg.bridgeRole → t.event 85 ∧ t.fh.statusDue = true)) ∧ s.sameMemories t ∧ s.sameRoles t ∧ t.dev = s.dev
        ∧ t.lath = s.lath ∧ t.time = s.time) ∧
    (∀ (k : Nat), s.bridgeOn = true ∧ s.inPair = true ∧ k = max s.drone.ticks (s.bridge.beatTick + 2458) ∧
        s.beyondFret (s.tickNs k) = false →
      ∃ t, exec (.heartbeatSend) s = .next t ∧ (∃ b, t.out.bridge = [⟨2, mapGet 0 2 s.bridge.seqTx, s.getF
        Reg.linkEpoch, b⟩] ∧ b.length = 16) ∧ mapGet 0 2 t.bridge.seqTx = (mapGet 0 2 s.bridge.seqTx + 1) %
        65536 ∧ t.bridge.beatTick = k ∧ t.drone.ticks = k ∧ s.sameMemories t ∧ s.sameRoles t ∧ t.dev = s.dev ∧
        t.lath = s.lath ∧ t.journal = s.journal) ∧
    (∀ (st : Fin 8) (short : Word) (synced : Bool), s.bridgeOn = true ∧ s.inPair = true →
      ∃ t, exec (.heartbeat st short synced) s = .next t ∧ t.getF Reg.bridgeStatusPeerState = st ∧
        t.bridge.heartbeatTick = s.drone.ticks ∧ t.bridge.checkSuspended = s.bridge.checkSuspended ∧ t.getF
        Reg.bridgeSkewSkewNs = ofSigned 16 (clampInt (-32768) 32767 (shortDiff (short.toNat + s.getF
        Reg.bridgeLatencyOneWayNs) s.short)) ∧ (synced = true ∧ s.getF Reg.bridgeRole = 1 → t.getF
        Reg.bridgeStatusSynced = 1) ∧ (synced = false ∨ s.getF Reg.bridgeRole ≠ 1 → t.getF
        Reg.bridgeStatusSynced = s.getF Reg.bridgeStatusSynced) ∧ s.onlyRegs t [Reg.bridgeStatusPeerState,
        Reg.bridgeSkewSkewNs, Reg.bridgeStatusSkewHigh, Reg.bridgeStatusSynced, Reg.evStatus 2]) ∧
    (∀ (last : Bool) (n : Nat) (l : List Nat), s.inPair = true ∧ s.getF Reg.bridgeRole = 2 ∧ s.dev ≠ .doze ∧ (last =
        true → s.bridge.syncMap = some l ∧ n ≤ s.bridge.syncSeen ∧ s.bridge.mirrorHeld = [] ∧ (∀ i ∈ s.heldEntries, i
        ∈ l)) →
      ∃ t, exec (.syncMark last n) s = .next t ∧ (last = false → t.bridge =
        { s.bridge with syncMap := some [], syncSeen := 0, syncEnd := none } ∧ t.getF Reg.bridgeStatusSynced =
        0) ∧ (last = true → t.bridge.syncMap = none ∧ t.bridge.syncEnd = none ∧ t.getF Reg.bridgeStatusSynced =
        1 ∧ t.bridge.diverging = false ∧ (s.getF Reg.divergenceCount ≠ 0 → t.event 87)) ∧ s.onlyRegs t
        [Reg.bridgeStatusSynced, Reg.nextWindowBarBar, Reg.nextWindowFretFret, Reg.nextWindowFretNone,
        Reg.evStatus 2]) ∧
    (∀ (bar : Word) (digest : BitVec 128) (compare : BitVec 64), s.inPair = true ∧ s.job = none ∧ s.bridge.autoStart
        = none ∧ s.acceptsStart bar.toNat = true →
      ∃ t, exec (.agree 1 0 bar digest compare) s = .next t ∧ t.bridge.passedStart = some bar.toNat ∧
        t.out.bridge.map BridgeMsg.kind = [0x50] ∧ s.onlyRegs t []) ∧
    (s.bridgeOn = true →
      ∃ t, exec (.bridgeFrameDiscard) s = .next t ∧ t.getF (Reg.bridgeCount 6) = min (s.getF (Reg.bridgeCount 6)
        + 1) (2 ^ 32 - 1) ∧ s.onlyRegs t [Reg.bridgeCount 6])

/-- In a pair: the MIRROR that is next in SEQ order is applied on the follow beside this chip's own fields, or frees its
entry, and is acknowledged; an acknowledgement takes the MIRROR out of the lead's list, and completes the host
command that waited for it alone; a MIRROR unacknowledged for 4 µs is sent again with its SEQ. A FORWARD of REG_FREE
frees the entry on the lead, mirrors it and answers; the answer completes the host's forwarded REG_FREE on the
follow once the lead's earlier MIRRORs are applied. REPAIR_REQ of an undamaged entry that is not FREE is answered
with its word 0, and one of a FREE entry with none; a repair rewrites a suspended entry, sets its REPAIRED flag and
takes it off the list; without a word it changes nothing. A twin's journal record goes into the next place of its
ring. Every other byte of memory stays. Conventions of the model it rests on: log entries 10, 88, 114, 158. -/
def Obligations.TwinMirrorsAndForwards : Prop :=
  ∀ (s : State),
    (∀ (q : BitVec 16) (i : Fin 262144) (w : BitVec 256), s.inPair = true ∧ s.getF Reg.bridgeRole = 2 ∧ q.toNat =
        s.bridge.mirrorNext ∧ s.bridge.mirrorHeld = [] ∧ s.bridge.forwarded = [] ∧ s.bridge.syncMap = none ∧ s.covers
        9 0 1 = true ∧ s.dev ≠ .doze →
      ∃ t, exec (.mirror q i w) s = .next t ∧ (entryState w.toNat = 0 → t.bytesAre .registry (64 * i) 64 (fun _
        => 0) ∧ t.wordMark .registry (2 * i) = .clean) ∧ (entryState w.toNat ≠ 0 → t.word0 i = s.mergeWord0 i
        (leBytes 32 w.toNat) ∧ t.wordMark .registry (2 * i) = .clean ∧ t.word1 i = s.word1 i) ∧
        t.bridge.mirrorNext = (s.bridge.mirrorNext + 1) % 65536 ∧ t.getF (Reg.bridgeCount 2) = (s.getF
        (Reg.bridgeCount 2) + 1) % 2 ^ 32 ∧ i.val ∉ t.sched.suspended ∧ t.out.bridge = [⟨0x11, mapGet 0 0x11
        s.bridge.seqTx, s.getF Reg.linkEpoch, beBytes 4 q.toNat⟩] ∧ s.sameBytesBut t .registry (64 * i) 64 ∧
        s.otherMemories t .registry ∧ s.regsBut t [Reg.bridgeCount 2, Reg.suspendCount, Reg.nextWindowBarBar,
        Reg.nextWindowFretFret, Reg.nextWindowFretNone] ∧ s.sameRoles t ∧ s.sameEngines t) ∧
    (∀ (q : BitVec 16), s.inPair = true ∧ s.bridge.waits = [] →
      ∃ t, exec (.mirrorAck q) s = .next t ∧ t.bridge =
        { s.bridge with mirrorOut := s.bridge.mirrorOut.filter fun m => m.seq != q.toNat } ∧ s.onlyRegs t []) ∧
    (∀ (q : BitVec 16) (w : RegWait) (p : Port), s.inPair = true ∧ s.bridge.waits = [w] ∧ w.seqs = [q.toNat] ∧
        w.msg.origin = .host p ∧ w.msg.opcode = 0x8A ∧ w.code ≤ 6 →
      ∃ t, exec (.mirrorAck q) s = .next t ∧ t.bridge.waits = [] ∧ t.job = none ∧ t.getF Reg.cmdStatusCode =
        w.code ∧ t.getF Reg.cmdStatusRunning = 0 ∧ t.getF Reg.cmdStatusSeq = (s.getF Reg.cmdStatusSeq + 1) %
        65536 ∧ t.resultsAre [w.r0] ∧ t.event 8 ∧ s.onlyRegs t []) ∧
    (∀ (l r : List MirrorRec) (m : MirrorRec) (k : Nat), s.inPair = true ∧ s.bridge.mirrorOut = l ++ m :: r ∧
        m.sentTick = some k ∧ (∀ x ∈ l, x.sentTick.all (fun j => decide (k < j)) = true) ∧ (∀ x ∈ r, x.sentTick.all
        (fun j => decide (k ≤ j)) = true) ∧ s.beyondFret (s.tickNs (k + nsTicks 4000)) = false ∧ (s.passTickCount (k +
        nsTicks 4000)).covers 9 0 1 = true ∧ (s.passTickCount (k + nsTicks 4000)).covers 9 4 2 = true →
      ∃ t, exec (.mirrorResend) s = .next t ∧ t.out.bridge = [⟨0x10, m.seq, s.getF Reg.linkEpoch, beBytes 4
        m.index ++ m.image⟩] ∧ t.getF (Reg.bridgeCount 3) = min (s.getF (Reg.bridgeCount 3) + 1) (2 ^ 32 - 1) ∧
        t.drone.ticks = max s.drone.ticks (k + nsTicks 4000) ∧ s.sameMemories t ∧ s.sameRoles t ∧ t.dev = s.dev
        ∧ t.journal = s.journal) ∧
    (∀ (q : BitVec 16) (args : List Word) (i a b : Nat), s.inPair = true ∧ s.getF Reg.bridgeRole = 1 ∧ i =
        (args.getD 0 0).toNat ∧ i < s.getF Reg.partitionEntryLimit ∧ s.inLathedUp = true ∧ s.deferred 12 = false ∧
        s.sched.waiting = [] ∧ s.covers 12 0 2 = true ∧ ((s.grantRest 12 0 2).grantRest 12 4 0).covers 9 0 1 = true ∧
        ((s.grantRest 12 0 2).grantRest 12 4 0).covers 9 4 2 = true ∧ s.dev ≠ .doze ∧ a = mapGet 0 0x10 s.bridge.seqTx
        ∧ b = mapGet 0 0x21 s.bridge.seqTx →
      ∃ t, exec (.forward q 0x8A args []) s = .next t ∧ t.bytesAre .registry (64 * i) 64 (fun _ => 0) ∧
        t.wordMark .registry (2 * i) = .clean ∧ t.wordMark .registry (2 * i + 1) = .clean ∧ s.sameBytesBut t
        .registry (64 * i) 64 ∧ s.otherMemories t .registry ∧ t.bridge.mirrorOut.map MirrorRec.seq =
        s.bridge.mirrorOut.map MirrorRec.seq ++ [a] ∧ t.out.bridge = [⟨0x10, a, s.getF Reg.linkEpoch, beBytes 4
        i ++ List.replicate 32 0⟩, ⟨0x21, b, s.getF Reg.linkEpoch, beBytes 4 q.toNat ++ beBytes 4 0 ++ beBytes 4
        0 ++ beBytes 4 0⟩] ∧ s.regsBut t [Reg.bridgeCount 1, Reg.suspendCount, Reg.nextWindowBarBar,
        Reg.nextWindowFretFret, Reg.nextWindowFretNone] ∧ s.sameRoles t ∧ s.sameEngines t) ∧
    (∀ (q : BitVec 16) (code : Fin 7) (r0 r1 : Word) (next : BitVec 16) (f : Forwarded) (p : Port), s.inPair = true
        ∧ s.bridge.forwarded = [f] ∧ f.seq = q.toNat ∧ f.msg.opcode = 0x8A ∧ f.msg.origin = .host p ∧ seqBefore
        s.bridge.mirrorNext next.toNat = false →
      ∃ t, exec (.forwardResp q code r0 r1 next) s = .next t ∧ t.bridge.forwarded = [] ∧ t.job = none ∧ t.getF
        Reg.cmdStatusCode = code ∧ t.getF Reg.cmdStatusRunning = 0 ∧ t.getF Reg.cmdStatusSeq = (s.getF
        Reg.cmdStatusSeq + 1) % 65536 ∧ t.resultsAre [r0.toNat] ∧ t.event 8 ∧ s.onlyRegs t []) ∧
    (∀ (i : Fin 262144), s.inPair = true ∧ s.wordMark .registry (2 * i) = .clean ∧ s.bridge.repairs = [] ∧ s.covers
        9 0 1 = true ∧ s.covers 9 4 1 = true →
      ∃ t, exec (.repairReq i) s = .next t ∧ (entryState (s.word0 i) ≠ 0 → t.out.bridge = [⟨0x31, mapGet 0 0x31
        s.bridge.seqTx, s.getF Reg.linkEpoch, beBytes 4 i ++ beBytes 4 1 ++ s.bytesAt .registry (64 * i) 32⟩] ∧
        t.getF (Reg.bridgeCount 5) = min (s.getF (Reg.bridgeCount 5) + 1) (2 ^ 32 - 1)) ∧ (entryState (s.word0
        i) = 0 → t.out.bridge = [⟨0x31, mapGet 0 0x31 s.bridge.seqTx, s.getF Reg.linkEpoch, beBytes 4 i ++
        beBytes 36 0⟩] ∧ t.getF (Reg.bridgeCount 5) = s.getF (Reg.bridgeCount 5)) ∧ s.onlyRegs t
        [Reg.bridgeCount 5]) ∧
    (∀ (i : Fin 262144) (w : BitVec 256), s.reached .registry = true ∧ s.reached .bridge = true ∧ s.inPair = true ∧
        i.val ∈ s.sched.suspended ∧ entryState w.toNat ≠ 0 ∧ s.dev ≠ .doze →
      ∃ t, exec (.repairResp i (some w)) s = .next t ∧ ((∀ x ∈ s.sched.lapsed, x.1 ≠ i.val) → t.word0 i =
        withBits (s.mergeWord0 i (leBytes 32 w.toNat)) 207 1 1 ∧ t.getF (Reg.registryCount 2) = s.getF
        (Reg.registryCount 2)) ∧ withBits (t.word0 i) 206 1 0 = withBits (withBits (s.mergeWord0 i (leBytes 32
        w.toNat)) 207 1 1) 206 1 0 ∧ t.wordMark .registry (2 * i) = .clean ∧ i.val ∉ t.sched.suspended ∧ i.val ∈
        t.sched.stale ∧ t.getF (Reg.registryCount 8) = min (s.getF (Reg.registryCount 8) + 1) (2 ^ 32 - 1) ∧
        s.sameBytesBut t .registry (64 * i) 32 ∧ s.otherMemories t .registry ∧ s.regsBut t [Reg.registryCount 2,
        Reg.registryCount 8, Reg.suspendCount, Reg.nextWindowBarBar, Reg.nextWindowFretFret,
        Reg.nextWindowFretNone] ∧ s.sameRoles t ∧ s.sameEngines t) ∧
    (∀ (i : Fin 262144), ∃ t, exec (.repairResp i none) s = .next t ∧ t.sched =
        { s.sched with staleFrom := t.sched.staleFrom } ∧ s.onlyRegs t []) ∧
    (∀ (entry : BitVec 1024), s.inPair = true →
      ∃ t, exec (.journal entry) s = .next t ∧ t.bytesAre .spine (524288 + s.journal.twinNext % 4096 * 128) 128
        (fun k => (leBytes 128 entry.toNat).getD k 0) ∧ t.cleanAt .spine (524288 + s.journal.twinNext % 4096 *
        128) 128 ∧ t.journal =
        { s.journal with twinNext := s.journal.twinNext + 1, twinHeld := min 4096 (s.journal.twinHeld + 1) } ∧
        s.sameBytesBut t .spine (524288 + s.journal.twinNext % 4096 * 128) 128 ∧ s.otherMemories t .spine ∧
        s.regsBut t [] ∧ s.sameRoles t ∧ t.dev = s.dev ∧ t.lath = s.lath)

/-- 50 µs after the last valid heartbeat of a pair that checks them, the loss is declared: EPOCH and COUNT_0 rise, EV_84
is raised, the pair ends with its forwarded and waiting commands, roles are arbitrated with the role as it was, the
divergence log starts, and with WITNESS_EN and a baseband a WITNESS_REQ names both chips and the new EPOCH; it is
repeated every 50 µs for up to 2 frets. A valid vote within them makes the chip it names SOLO and the other
ISOLATED; a vote for another EPOCH only counts in COUNT_15. Without a vote EV_86 is raised and the elder is SOLO. A
NOTICE makes the chip SOLO at once. A SERVICE_START whose twin has not agreed two frets before its boundary fails
with reason 12, and the twin is told. Device state, lath, roles and all memory but stencil memory stay. Conventions
of the model it rests on: log entries 4, 10, 113. -/
def Obligations.TwinLossIsArbitrated : Prop :=
  ∀ (s : State),
    (∀ (k : Nat), s.bridgeOn = true ∧ s.bridge.paired = true ∧ s.bridge.checkSuspended = false ∧ s.beyondFret
        (s.tickNs (s.bridge.heartbeatTick + 12288)) = false ∧ k = max s.drone.ticks (s.bridge.heartbeatTick + 12288) →
      ∃ t, exec (.bridgeLossDeclare) s = .next t ∧ t.getF Reg.linkEpoch = (s.getF Reg.linkEpoch + 1) % 2 ^ 32 ∧
        t.getF (Reg.bridgeCount 0) = min (s.getF (Reg.bridgeCount 0) + 1) (2 ^ 32 - 1) ∧ t.event 84 ∧ t.getF
        Reg.bridgeStatusArbitrating = 1 ∧ t.getF Reg.bridgeStatusTrained = 0 ∧ t.getF Reg.bridgeStatusSynced = 0
        ∧ t.getF Reg.bridgeRole = s.getF Reg.bridgeRole ∧ t.bridge.paired = false ∧ t.bridge.roleBefore = s.getF
        Reg.bridgeRole ∧ t.bridge.declaredTick = some k ∧ t.bridge.diverging = true ∧ t.bridge.forwarded = [] ∧
        t.bridge.waits = [] ∧ t.bridge.mirrorOut = [] ∧ t.drone.ticks = k ∧ (s.flag Reg.linkCtrlWitnessEn = true
        ∧ s.bbReady = true ∧ s.absent .link = false → (∃ b, t.out.link = [s.idMsg s.bbMac 2 2 (32768 * s.sideBit
        + 0x50) (mapGet 0 (65536 * 2 + (32768 * s.sideBit + 0x50)) s.fh.seqTx) b] ∧ b.take 20 = beBytes 8
        Config.deviceUid.toNat ++ beBytes 8 s.peerUid ++ beBytes 4 (s.getF Reg.linkEpoch + 1)) ∧
        t.fh.witnessSent = 1) ∧ s.otherMemories t .stencil ∧ s.sameRoles t ∧ t.dev = s.dev ∧ t.lath = s.lath ∧
        t.journal = s.journal) ∧
    (∀ (k a : Nat), s.bridge.declaredTick = some k ∧ a = max s.drone.ticks (s.fh.witnessTick + 12288) ∧ a ≤ k +
        122880 ∧ s.beyondFret (s.tickNs a) = false ∧ s.flag Reg.linkCtrlWitnessEn = true ∧ s.bbReady = true ∧ s.absent
        .link = false →
      ∃ t, exec (.witnessReqRepeat) s = .next t ∧ t.fh.witnessSent = s.fh.witnessSent + 1 ∧ t.fh.witnessTick = a
        ∧ t.drone.ticks = a ∧ t.out.link.map LinkMsg.id = [32768 * s.sideBit + 0x50] ∧ t.bridge = s.bridge ∧
        s.sameMemories t ∧ s.sameRoles t ∧ t.dev = s.dev ∧ t.lath = s.lath ∧ t.journal = s.journal) ∧
    (∀ (h : CtlHead) (lead other : BitVec 64) (epoch : Word) (k : Nat), s.linkUp = true ∧ s.takes h.frame ∧ ctlSound
        h 20 = true ∧ s.flag Reg.linkStatusBbFound = true ∧ h.frame.src.toNat = s.bbMac ∧ s.dev ≠ .lightHold ∧ s.flag
        Reg.dozeStatusLightPending = false ∧ s.bridge.declaredTick = some k ∧ s.drone.ticks ≤ k + 122880 ∧ (lead =
        Config.deviceUid ∧ other.toNat = s.peerUid ∨ other = Config.deviceUid ∧ lead.toNat = s.peerUid) →
      ∃ t, exec (.witnessVote h lead other epoch) s = .next t ∧ (epoch.toNat = s.getF Reg.linkEpoch → t.getF
        Reg.bridgeRole = (if lead = Config.deviceUid then 0 else 3) ∧ t.getF Reg.bridgeStatusDecidedBy = 3 ∧
        t.getF Reg.bridgeStatusArbitrating = 0 ∧ t.bridge.declaredTick = none ∧ (s.getF Reg.bridgeRole ≠ t.getF
        Reg.bridgeRole → t.event 85 ∧ t.fh.statusDue = true) ∧ t.getF (Reg.linkCount 15) = s.getF (Reg.linkCount
        15)) ∧ (epoch.toNat ≠ s.getF Reg.linkEpoch → t.bridge = s.bridge ∧ t.getF Reg.bridgeRole = s.getF
        Reg.bridgeRole ∧ t.getF (Reg.linkCount 15) = min (s.getF (Reg.linkCount 15) + 1) (2 ^ 32 - 1)) ∧
        s.onlyRegs t [Reg.bridgeRole, Reg.bridgeStatusDecidedBy, Reg.bridgeStatusArbitrating, Reg.seamOk,
        Reg.linkCount 15, Reg.evStatus 2]) ∧
    (∀ (k : Nat), s.bridge.declaredTick = some k ∧ s.beyondFret (s.tickNs (k + 122880)) = false →
      ∃ t, exec (.witnessTimeout) s = .next t ∧ t.event 86 ∧ t.getF Reg.bridgeRole = (if s.isElder then 0 else
        3) ∧ t.getF Reg.bridgeStatusDecidedBy = 4 ∧ t.getF Reg.bridgeStatusArbitrating = 0 ∧
        t.bridge.declaredTick = none ∧ t.drone.ticks = max s.drone.ticks (k + 122880) ∧ s.sameMemories t ∧
        s.sameRoles t ∧ t.dev = s.dev ∧ t.lath = s.lath ∧ t.journal = s.journal) ∧
    (s.bridgeOn = true ∧ (s.bridge.paired = true ∨ s.flag Reg.bridgeStatusArbitrating = true) →
      ∃ t, exec (.notice) s = .next t ∧ t.getF Reg.linkEpoch = (s.getF Reg.linkEpoch + 1) % 2 ^ 32 ∧ t.event 84
        ∧ t.getF Reg.bridgeRole = 0 ∧ t.getF Reg.bridgeStatusDecidedBy = 2 ∧ t.getF Reg.bridgeStatusArbitrating
        = 0 ∧ t.getF Reg.bridgeStatusTrained = 0 ∧ t.bridge.paired = false ∧ t.bridge.declaredTick = none ∧
        t.bridge.diverging = true ∧ t.bridge.forwarded = [] ∧ t.bridge.waits = [] ∧ t.bridge.mirrorOut = [] ∧
        s.otherMemories t .stencil ∧ s.sameRoles t ∧ t.phase = s.phase ∧ t.dev = s.dev ∧ t.lath = s.lath ∧
        t.journal = s.journal ∧ t.time = s.time) ∧
    (∀ (bar : Nat), s.job = some (.serviceStart bar false) ∧ s.beyondFret (max s.nowNs (s.barBoundary bar - 500000))
        = false →
      ∃ t, exec (.twinAgreementTimeout) s = .next t ∧ t.job = none ∧ t.getF Reg.cmdStatusCode = 6 ∧ t.getF
        Reg.cmdStatusRunning = 0 ∧ t.resultsAre [12] ∧ t.event 8 ∧ t.out.bridge.map (fun m => (m.kind,
        m.payload.take 8)) = [(0x50, beBytes 1 1 ++ beBytes 1 2 ++ beBytes 2 0 ++ beBytes 4 bar)] ∧
        s.sameMemories t ∧ s.sameRoles t ∧ t.dev = s.dev ∧ t.lath = s.lath ∧ t.journal = s.journal)

/-- For a port and role that may issue them, HK_START arms a sequence that is neither armed nor running, with trigger 0
starting it, and is BUSY otherwise; HK_STOP disarms it and ends a run at its next round; HK_CLEAR clears the
accumulators and trackers that its masks name, and no others. A run whose trigger has come sets RUNNING, resets the
CIC of each of its slots, and disarms mode 1; the end of a run clears RUNNING, in mode 0 once its rounds have
passed, or after HK_STOP. A conversion of a running slot shows in COARSE; with R = 1 and N = 1 without shift, after
the first output, FINE is the conversion less 2,048, VALID, and is added to the accumulator. A temperature below 125
°C of a sensor that is not broken shows in TEMP and is VALID; a second one in a row at or above 125 °C enters FAULT;
a VDD_CORE reading shows in CORE_SUPPLY. All memory stays where no FAULT is entered. Conventions of the model it
rests on: log entries 18, 124, 125. -/
def Obligations.HousekeepingSequencesAndReadings : Prop :=
  ∀ (s : State),
    (∀ (p : Port) (x : Fin 2), s.ready p ∧ s.dev ≠ .lightHold ∧ s.dev ≠ .maker ∧ RoleRule.permits .both s.dev
        (s.session p).role = true ∧ s.argW 0 = x →
      ∃ t, exec (.hkStart p) s = .next t ∧ (s.getF (Reg.seqStatusArmed x) = 1 ∨ s.getF (Reg.seqStatusRunning x)
        = 1 → s.ended t p 0xD8 1 ∧ t.mon = s.mon ∧ s.onlyRegs t []) ∧ (s.getF (Reg.seqStatusArmed x) ≠ 1 ∧
        s.getF (Reg.seqStatusRunning x) ≠ 1 → s.ended t p 0xD8 0 ∧ t.getF (Reg.seqStatusArmed x) = 1 ∧ (s.getF
        (Reg.seqCtrlTrigger x) = 0 → (t.seq x).start = true) ∧ (s.getF (Reg.seqCtrlTrigger x) = 1 ∨ s.getF
        (Reg.seqCtrlTrigger x) = 2 → t.mon = s.mon) ∧ s.onlyRegs t [Reg.seqStatusArmed x])) ∧
    (∀ (p : Port) (x : Fin 2), s.ready p ∧ s.dev ≠ .lightHold ∧ s.dev ≠ .maker ∧ RoleRule.permits .both s.dev
        (s.session p).role = true ∧ s.argW 0 = x →
      ∃ t, exec (.hkStop p) s = .next t ∧ s.ended t p 0xD9 0 ∧ t.getF (Reg.seqStatusArmed x) = 0 ∧ t.seq x =
        ⟨false, s.flag (Reg.seqStatusRunning x), (s.seq x).begun⟩ ∧ s.onlyRegs t [Reg.seqStatusArmed x]) ∧
    (∀ (p : Port) (x : Fin 2), s.ready p ∧ s.dev ≠ .lightHold ∧ s.dev ≠ .maker ∧ RoleRule.permits .both s.dev
        (s.session p).role = true ∧ s.argW 0 = x →
      ∃ t, exec (.hkClear p) s = .next t ∧ s.ended t p 0xDA 0 ∧ (∀ k ∈ List.range 16, testBit (s.argW 1) k =
        true → testBit (s.argW 2) 0 = true → t.getF (Reg.slotAccLo x k) = 0 ∧ t.getF (Reg.slotAccHi x k) = 0 ∧
        (t.slot x k).sum = 0 ∧ (t.slot x k).count = 0) ∧ (∀ k ∈ List.range 16, testBit (s.argW 1) k = true →
        testBit (s.argW 2) 1 = true → t.getF (Reg.slotMinmaxMin x k) = 0x7FFF ∧ t.getF (Reg.slotMinmaxMax x k) =
        0x8000) ∧ (∀ k ∈ List.range 16, testBit (s.argW 1) k = false ∨ testBit (s.argW 2) 0 = false → t.slot x k
        = s.slot x k ∧ t.getF (Reg.slotAccLo x k) = s.getF (Reg.slotAccLo x k) ∧ t.getF (Reg.slotAccHi x k) =
        s.getF (Reg.slotAccHi x k)) ∧ (∀ k ∈ List.range 16, testBit (s.argW 1) k = false ∨ testBit (s.argW 2) 1
        = false → t.getF (Reg.slotMinmaxMin x k) = s.getF (Reg.slotMinmaxMin x k) ∧ t.getF (Reg.slotMinmaxMax x
        k) = s.getF (Reg.slotMinmaxMax x k)) ∧ s.onlyRegs t ((List.range 16).flatMap fun k => [Reg.slotAccLo x
        k, Reg.slotAccHi x k, Reg.slotMinmaxMin x k, Reg.slotMinmaxMax x k])) ∧
    (∀ (x : Fin 2), s.monitorOn = true ∧ (s.seq x).start = true ∧ s.getF (Reg.seqCtrlSlots x) < 16 →
      ∃ t, exec (.hkRunStart x) s = .next t ∧ t.getF (Reg.seqStatusRunning x) = 1 ∧ t.seq x = ⟨false, (s.seq
        x).stopping, s.drone.ticks⟩ ∧ t.getF (Reg.seqStatusArmed x) = (if s.getF (Reg.seqCtrlMode x) = 1 then 0
        else s.getF (Reg.seqStatusArmed x)) ∧ (∀ k ∈ List.range 16, k ≤ s.getF (Reg.seqCtrlSlots x) → (t.slot x
        k).ints = [0, 0, 0, 0] ∧ (t.slot x k).combs = [0, 0, 0, 0] ∧ (t.slot x k).phase = 0 ∧ (t.slot x
        k).outputs = 0 ∧ (s.getF (Reg.seqCtrlClrOnRun x) = 1 → (t.slot x k).sum = 0 ∧ (t.slot x k).count = 0) ∧
        (s.getF (Reg.seqCtrlClrOnRun x) ≠ 1 → (t.slot x k).sum = (s.slot x k).sum)) ∧ (∀ k ∈ List.range 16,
        s.getF (Reg.seqCtrlSlots x) < k → t.slot x k = s.slot x k) ∧ s.onlyRegs t ([Reg.seqStatusRunning x,
        Reg.seqStatusArmed x] ++ (List.range 16).flatMap fun k => [Reg.slotAccLo x k, Reg.slotAccHi x k,
        Reg.slotMinmaxMin x k, Reg.slotMinmaxMax x k])) ∧
    (∀ (x : Fin 2), s.monitorOn = true ∧ s.getF (Reg.seqStatusRunning x) = 1 ∧ ((s.seq x).stopping = true ∨ s.getF
        (Reg.seqCtrlMode x) = 1 ∨ s.beyondFret (s.tickNs ((s.seq x).begun + s.runTicks x)) = false) →
      ∃ t, exec (.hkRunEnd x) s = .next t ∧ (s.getF (Reg.seqCtrlMode x) ≠ 1 ∨ (s.seq x).stopping = true → t.getF
        (Reg.seqStatusRunning x) = 0 ∧ (t.seq x).stopping = false) ∧ (s.getF (Reg.seqCtrlMode x) ≠ 1 ∧ (s.seq
        x).stopping = false → t.drone.ticks = max s.drone.ticks ((s.seq x).begun + s.runTicks x)) ∧ (s.getF
        (Reg.seqCtrlMode x) = 1 ∧ (s.seq x).stopping = false → t.getF (Reg.seqStatusRunning x) = 1 ∧ t.mon =
        s.mon) ∧ s.regsBut t (Reg.seqStatusRunning x :: (List.range 64).map Reg.rxInvalidSamplesCount) ∧
        s.sameMemories t ∧ s.sameRoles t ∧ t.phase = s.phase ∧ t.dev = s.dev ∧ t.journal = s.journal) ∧
    (∀ (x : Fin 2) (k : Fin 16) (codes : List (BitVec 12)) (c : BitVec 12), s.monitorOn = true ∧ s.getF
        (Reg.seqStatusRunning x) = 1 ∧ k ≤ s.getF (Reg.seqCtrlSlots x) ∧ codes = [c] ∧ s.getF (Reg.slotCmpCtrlMode x
        k) = 0 ∧ (s.slot x k).phase + 1 < s.slotRate x k →
      ∃ t, exec (.cicOutput x k codes) s = .next t ∧ t.getF (Reg.slotResultCoarse x k) = c.toNat ∧ (t.slot x
        k).phase = (s.slot x k).phase + 1 ∧ (t.slot x k).sum = (s.slot x k).sum ∧ s.onlyRegs t
        [Reg.slotResultCoarse x k]) ∧
    (∀ (x : Fin 2) (k : Fin 16) (codes : List (BitVec 12)) (c : BitVec 12) (y : SlotState) (a : Nat) (v : Int),
        s.monitorOn = true ∧ s.getF (Reg.seqStatusRunning x) = 1 ∧ k ≤ s.getF (Reg.seqCtrlSlots x) ∧ codes = [c] ∧
        s.getF (Reg.slotCmpCtrlMode x k) = 0 ∧ s.getF (Reg.slotCfgOrder x k) = 0 ∧ s.getF (Reg.slotCfgLog2R x k) = 0 ∧
        s.getF (Reg.slotCfgShift0 x k) = 0 ∧ y = s.slot x k ∧ 1 ≤ y.outputs ∧ y.ints = [a, 0, 0, 0] ∧ y.combs = [a, 0,
        0, 0] ∧ a < 2 ^ 32 ∧ y.count < 65535 ∧ v = (c.toNat : Int) - 2048 →
      ∃ t, exec (.cicOutput x k codes) s = .next t ∧ t.getF (Reg.slotResultCoarse x k) = c.toNat ∧ t.getF
        (Reg.slotResultFine x k) = ofSigned 16 v ∧ t.getF (Reg.slotResultValid x k) = 1 ∧ (t.slot x k).count =
        y.count + 1 ∧ t.getF (Reg.slotAccLo x k) = ofSigned 32 (y.sum + v) ∧ s.onlyRegs t [Reg.slotResultCoarse
        x k, Reg.slotResultFine x k, Reg.slotResultValid x k, Reg.slotAccLo x k, Reg.slotMinmaxMin x k,
        Reg.slotMinmaxMax x k]) ∧
    (∀ (n : Fin 17) (v : BitVec 16), s.monitorOn = true ∧ n.val < 16 ∧ s.flag (Reg.tempSensorBroken n) = false ∧
        -640 ≤ v.toInt ∧ v.toInt < 2000 ∧ (vecGet s.mon.sensors n ⟨0, 0, 0⟩).off < 7 →
      ∃ t, exec (.thermalReading n v) s = .next t ∧ t.getF (Reg.tempSensorTemp n) = ofSigned 12 v.toInt ∧ t.getF
        (Reg.tempSensorValid n) = 1 ∧ t.getF (Reg.tempSensorBroken n) = s.getF (Reg.tempSensorBroken n) ∧
        (vecGet t.mon.sensors n ⟨0, 0, 0⟩).reading = v.toInt ∧ s.sameMemories t ∧ s.sameRoles t ∧ t.phase =
        s.phase ∧ t.dev = s.dev ∧ t.lath = s.lath ∧ t.journal = s.journal) ∧
    (∀ (n : Fin 17) (v : BitVec 16), s.monitorOn = true ∧ n.val < 16 ∧ s.flag (Reg.tempSensorBroken n) = false ∧
        2000 ≤ v.toInt ∧ v.toInt ≤ 2400 ∧ (vecGet s.mon.sensors n ⟨0, 0, 0⟩).off < 7 ∧ 1 ≤ (vecGet s.mon.sensors n ⟨0,
        0, 0⟩).hot ∧ s.dev ≠ .maker →
      ∃ t, exec (.thermalReading n v) s = .next t ∧ t.dev = .fault ∧ t.getF (Reg.tempSensorValid n) = 1) ∧
    (∀ (n : Fin 17) (v : BitVec 16), s.monitorOn = true ∧ n.val = 16 →
      ∃ t, exec (.thermalReading n v) s = .next t ∧ t.getF Reg.coreSupplyMv = v.toNat ∧ t.mon.supplyRead = true
        ∧ s.onlyRegs t [Reg.coreSupplyMv])

/-- While the spine runs, a filtered change of SAG_N is noted with its tick and, while the sag policy acts, a low level
raises the stage to at least 3. While it acts, feed conversions that meet the entry condition of a stage raise the
stage to it, and others leave it; each change raises EV_116. A stage of 1 to 4 whose entry condition has failed
falls by one step, from 3 and 4 only with SAG_N high and after RECOVER_MS. SAG_N low for DEEP_MS, where DEEP_MS is
not 0, raises stage 4, which enters Deep Hold from BARE, UNLATHED, LATHED and FAULT, without a compare; in SERVICE
and DOZE the state stays for now. Memories, roles, lath and journal stay. Conventions of the model it rests on: log
entries 4, 129. -/
def Obligations.SagStagesRiseAndFall : Prop :=
  ∀ (s : State),
    (∀ (low : Bool), s.phase = .run ∧ s.drone.sagLow ≠ low ∧ s.drone.sagHold = false →
      ∃ t, exec (.sagNChange low) s = .next t ∧ t.drone =
        { s.drone with sagLow := low, sagTick := s.drone.ticks } ∧ (s.reached .monitor = true → t.getF
        Reg.sagStatusSagN = bit low) ∧ (low = true ∧ s.sagActs = true → t.getF Reg.sagStatusStage = max 3
        (s.getF Reg.sagStatusStage)) ∧ (low = false ∨ s.sagActs = false → t.getF Reg.sagStatusStage = s.getF
        Reg.sagStatusStage) ∧ s.sameMemories t ∧ s.sameRoles t ∧ t.phase = s.phase ∧ t.dev = s.dev ∧ t.lath =
        s.lath ∧ t.journal = s.journal) ∧
    (∀ (codes : List (BitVec 12)) (k n : Nat), s.sagActs = true ∧ n = s.getF Reg.sagStatusStage ∧ n ≤ 4 ∧ k = (([3,
        2, 1].find? fun k => s.sagMet (codes.map BitVec.toNat) k).getD 0) →
      ∃ t, exec (.sagStageEntry codes) s = .next t ∧ t.getF Reg.sagStatusStage = max k n ∧ (n < k → t.event 116)
        ∧ (n = 0 ∧ 0 < k → t.getF Reg.sagStatusEntries = min (s.getF Reg.sagStatusEntries + 1) 65535) ∧
        s.sameMemories t ∧ s.sameRoles t ∧ t.phase = s.phase ∧ t.dev = s.dev ∧ t.lath = s.lath ∧ t.journal =
        s.journal ∧ t.drone = s.drone) ∧
    (∀ (low : BitVec 12) (k : Nat), s.sagActs = true ∧ k = s.getF Reg.sagStatusStage ∧ 1 ≤ k ∧ k ≤ 4 ∧
        s.mon.sagStopped = false ∧ (k = 4 ∨ s.sagLevel k = 0 ∨ s.sagLevel k + s.getF Reg.sagLevels1RecoverHyst <
        low.toNat) ∧ (3 ≤ k → s.drone.sagLow = false ∧ s.beyondFret (s.tickNs (s.drone.sagTick + nsTicks (1000000 *
        max 1 (s.getF Reg.sagLevels1RecoverMs)))) = false) →
      ∃ t, exec (.sagStepDown low) s = .next t ∧ t.getF Reg.sagStatusStage = k - 1 ∧ t.event 116 ∧ (3 ≤ k →
        t.drone.ticks = max s.drone.ticks (s.drone.sagTick + nsTicks (1000000 * max 1 (s.getF
        Reg.sagLevels1RecoverMs)))) ∧ (k < 3 → t.drone = s.drone) ∧ s.sameMemories t ∧ s.sameRoles t ∧ t.phase =
        s.phase ∧ t.dev = s.dev ∧ t.lath = s.lath ∧ t.journal = s.journal) ∧
    (∀ (k : Nat), s.sagActs = true ∧ s.getF Reg.sagStatusStage ≤ 4 ∧ s.getF Reg.sagCtrlDeepMs ≠ 0 ∧ s.drone.sagLow =
        true ∧ k = s.drone.sagTick + nsTicks (1000000 * s.getF Reg.sagCtrlDeepMs) ∧ s.beyondFret (s.tickNs k) = false
        →
      ∃ t, exec (.sagDeepHold) s = .next t ∧ t.getF Reg.sagStatusStage = 4 ∧ t.drone.ticks = max s.drone.ticks k
        ∧ t.dev = s.dev ∧ (s.dev = .bare ∨ s.dev = .unlathed ∨ s.dev = .lathed ∨ s.dev = .fault → t.phase =
        .deepEntry ∧ t.drone.wakeTicks = 0 ∧ t.drone.sagHold = true) ∧ (s.dev = .service ∨ s.dev = .doze →
        t.phase = .run) ∧ s.sameMemories t ∧ s.sameRoles t ∧ t.lath = s.lath ∧ t.journal = s.journal)

/-- Skim, with its grains and while no other class asks, reads the next word of a memory and moves on: a clean word
stays; a correctable one becomes clean, CE rises and EV_96 is raised; a poisoned one counts in POISON_SEEN; an
uncorrectable one becomes poisoned, UE_LATENT rises, EV_98 is raised, and word 0 of an entry suspends it. After the
last word it starts again at 0, LAPS rises and EV_102 is raised. A write-back makes the correctable word that has
waited longest clean. A strike on a clean word is correctable where it hits one symbol and uncorrectable where it
hits two; whatever it hits, no other word and no other memory changes. No data byte changes but by a strike, in its
own word. Conventions of the model it rests on: log entries 11, 12, 88. -/
def Obligations.CodedMemoriesAreKeptClean : Prop :=
  ∀ (s : State),
    (∀ (m : Fin 6) (w : Nat), s.skimOn (memOf m) = true ∧ s.othersAsk (memResource (memOf m)) = false ∧ s.covers 7
        (memResource (memOf m)) 1 = true ∧ w = s.getF (Reg.skimPos m) ∧ w + 1 < (memOf m).words →
      ∃ t, exec (.skimRead m) s = .next t ∧ t.getF (Reg.skimPos m) = w + 1 ∧ (s.wordMark (memOf m) w = .clean →
        s.sameMemories t ∧ s.regsBut t [Reg.skimPos m]) ∧ (∀ a ∈ List.range 68, ∀ e ∈ List.range 16, s.wordMark
        (memOf m) w = .correctable a e → t.wordMark (memOf m) w = .clean ∧ t.getF (Reg.memCe m) = min (s.getF
        (Reg.memCe m) + 1) (2 ^ 32 - 1) ∧ t.event 96) ∧ (s.wordMark (memOf m) w = .poisoned → s.sameMemories t ∧
        t.getF (Reg.memPartialPoisonSeen m) = (s.getF (Reg.memPartialPoisonSeen m) + 1) % 65536) ∧ (s.wordMark
        (memOf m) w = .uncorrectable → t.wordMark (memOf m) w = .poisoned ∧ t.getF (Reg.memUeLatent m) = min
        (s.getF (Reg.memUeLatent m) + 1) 65535 ∧ t.event 98 ∧ (m = 0 ∧ w % 2 = 0 ∧ s.sched.suspended.length <
        256 → w / 2 ∈ t.sched.suspended ∧ (w / 2 ∉ s.sched.suspended → t.event 53))) ∧ s.sameBytesBut t (memOf
        m) 0 0 ∧ s.otherMemories t (memOf m) ∧ s.sameRoles t ∧ s.sameEngines t) ∧
    (∀ (m : Fin 6) (w : Nat), s.skimOn (memOf m) = true ∧ s.othersAsk (memResource (memOf m)) = false ∧ s.covers 7
        (memResource (memOf m)) 1 = true ∧ w = s.getF (Reg.skimPos m) ∧ w + 1 = (memOf m).words ∧ s.wordMark (memOf m)
        w = .clean →
      ∃ t, exec (.skimRead m) s = .next t ∧ t.getF (Reg.skimPos m) = 0 ∧ t.getF (Reg.memSkimLaps m) = (s.getF
        (Reg.memSkimLaps m) + 1) % 65536 ∧ t.event 102 ∧ s.onlyRegs t [Reg.skimPos m, Reg.memSkimLaps m,
        Reg.memSkimLapMs m, Reg.evStatus 3]) ∧
    (∀ (m : Fin 6) (w : Nat), s.memint.writeBacks.find? (fun x => x.1 == (memOf m).code) = some ((memOf m).code, w)
        →
      ∃ t, exec (.ceWriteback m) s = .next t ∧ (∀ a ∈ List.range 68, ∀ e ∈ List.range 16, s.wordMark (memOf m) w
        = .correctable a e → t.wordMark (memOf m) w = .clean) ∧ ((memOf m).code, w) ∉ t.memint.writeBacks ∧
        s.sameBytesBut t (memOf m) 0 0 ∧ s.otherMemories t (memOf m) ∧ s.regsBut t [] ∧ s.sameRoles t ∧
        s.sameEngines t) ∧
    (∀ (m : Fin 6) (w : BitVec 20) (errs : List (Fin 68 × BitVec 4)) (a b : Fin 68) (e f : BitVec 4), w.toNat <
        (memOf m).words ∧ s.domain (memOf m).domain ≠ .off ∧ s.wordMark (memOf m) w.toNat = .clean ∧ ((memOf m).code,
        w.toNat) ∉ s.memint.writeBacks ∧ e ≠ 0 ∧ f ≠ 0 ∧ a ≠ b ∧ (errs = [(a, e)] ∨ errs = [(a, e), (b, f)]) →
      ∃ t, exec (.particleStrike m w errs) s = .next t ∧ (errs = [(a, e)] → t.wordMark (memOf m) w.toNat =
        .correctable a e.toNat ∧ s.sameBytesBut t (memOf m) 0 0) ∧ (errs = [(a, e), (b, f)] → t.wordMark (memOf
        m) w.toNat = .uncorrectable) ∧ s.sameBytesBut t (memOf m) (32 * w.toNat) 32 ∧ s.otherMemories t (memOf
        m) ∧ s.regsBut t [] ∧ s.sameRoles t ∧ s.sameEngines t) ∧
    (∀ (m : Fin 6) (w : BitVec 20) (errs : List (Fin 68 × BitVec 4)), w.toNat < (memOf m).words →
      ∃ t, exec (.particleStrike m w errs) s = .next t ∧ (s.domain (memOf m).domain = .off → s.sameMemories t) ∧
        (∀ v ∈ List.range (memOf m).words, v ≠ w.toNat → t.wordMark (memOf m) v = s.wordMark (memOf m) v) ∧
        s.sameBytesBut t (memOf m) (32 * w.toNat) 32 ∧ s.otherMemories t (memOf m) ∧ s.regsBut t [] ∧
        s.sameRoles t ∧ s.sameEngines t)

/-- HOD_START of an idle channel that the host owns sets it RUNNING on the list with counts 0, and is BUSY on another;
HOD_STOP leaves a channel IDLE with STOPPED, writes STOPPED and the bytes moved into the present descriptor's
STATUS, and reports them. A fetched descriptor counts in CHAIN.COUNT and becomes the present one if Hod owns it, the
chain is not longer than its limit and no rule of BAD_DESC holds; else the channel stops UNOWNED (EV_101, nothing
written), or with LOOP_SUSPECT or BAD_DESC (EV_100, STATUS and then CTRL with OWN cleared written). The end of a
COPY of clean host bytes into clean capture words leaves those bytes there and nowhere else, writes STATUS and then
CTRL, and goes on to NEXT or stops at LAST with DONE and EV_101. A bus fault stops the channel with BUS_FAULT and
EV_100, the address and the bytes moved, and WB_FAILED where its write-back fails too. Conventions of the model it
rests on: log entries 140, 142. -/
def Obligations.HodChannelsMoveData : Prop :=
  ∀ (s : State),
    (∀ (p : Port) (k : Fin 16), s.ready p ∧ s.dev ≠ .lightHold ∧ s.dev ≠ .maker ∧ RoleRule.permits .both s.dev
        (s.session p).role = true ∧ s.argW 0 = k ∧ s.hodOwner k = .host ∧ s.hodList % 64 = 0 ∧ hodSpace s.hodList ≤ 1
        ∧ s.deferred 8 = false →
      ∃ t, exec (.hodStart p) s = .next t ∧ (s.getF (Reg.chStatusState k) ≠ 0 → s.ended t p 0xC4 1 ∧ s.onlyRegs
        t []) ∧ (s.getF (Reg.chStatusState k) = 0 → s.ended t p 0xC4 0 ∧ t.getF (Reg.chStatusState k) = 1 ∧
        t.getF (Reg.chChainCount k) = 0 ∧ t.getF (Reg.chDoneBytes k) = 0 ∧ t.getF (Reg.chDescLo k) = s.hodList %
        2 ^ 32 ∧ (t.hodChan k).addr = s.hodList ∧ (t.hodChan k).desc = none ∧ (t.hodChan k).role = (s.session
        p).role ∧ s.regsBut t [Reg.chStatusState k, Reg.chChainCount k, Reg.chDoneBytes k, Reg.chDescLo k]) ∧ (∀
        j ∈ List.range 16, j ≠ k → t.hodChan j = s.hodChan j) ∧ s.sameMemories t ∧ s.sameRoles t ∧ t.phase =
        s.phase ∧ t.dev = s.dev ∧ t.lath = s.lath ∧ t.journal = s.journal ∧ t.cores = s.cores) ∧
    (∀ (p : Port) (k : Fin 16), s.ready p ∧ s.dev ≠ .lightHold ∧ s.dev ≠ .maker ∧ RoleRule.permits .both s.dev
        (s.session p).role = true ∧ s.argW 0 = k ∧ s.hodOwner k = .host ∧ hodSpace (s.hodAddr k + 4) = 0 →
      ∃ t, exec (.hodStop p) s = .next t ∧ s.ended t p 0xC5 0 ∧ t.resultsAre [s.getF (Reg.chDoneBytes k)] ∧
        (s.getF (Reg.chStatusState k) = 0 → t.hod = s.hod ∧ s.regsBut t [] ∧ t.out.host = []) ∧ (s.getF
        (Reg.chStatusState k) ≠ 0 → t.getF (Reg.chStatusState k) = 0 ∧ t.getF (Reg.chStatusCode k) = 3 ∧
        (t.hodChan k).desc = none ∧ (t.hodChan k).addr = (s.hodChan k).addr ∧ t.out.host = (if (s.hodChan
        k).desc.isSome = true then [⟨hodOffset (s.hodAddr k + 4), leBytes 4 (3 + 256 * s.getF (Reg.chDoneBytes
        k)), false⟩] else []) ∧ s.regsBut t [Reg.chStatusState k, Reg.chStatusCode k]) ∧ (∀ j ∈ List.range 16, j
        ≠ k → t.hodChan j = s.hodChan j) ∧ s.sameMemories t ∧ s.sameRoles t ∧ t.phase = s.phase ∧ t.dev = s.dev
        ∧ t.lath = s.lath ∧ t.journal = s.journal ∧ t.cores = s.cores) ∧
    (∀ (k : Fin 16) (host : BitVec 512) (d : HodDesc), s.hodRuns = true ∧ s.getF (Reg.chStatusState k) = 1 ∧
        (s.hodChan k).desc = none ∧ hodSpace (s.hodAddr k) = 0 ∧ hodListOk (s.hodOwner k) (s.hodAddr k) = true ∧
        s.covers 8 4 2 = true ∧ d = hodDescOf (leBytes 64 host.toNat) →
      ∃ t, exec (.hodDescriptorFetch k host) s = .next t ∧ t.getF (Reg.chChainCount k) = (s.getF
        (Reg.chChainCount k) + 1) % 65536 ∧ t.getF (Reg.chDoneBytes k) = 0 ∧ (d.own = false → t.getF
        (Reg.chStatusState k) = 0 ∧ t.getF (Reg.chStatusCode k) = 2 ∧ (t.hodChan k).desc = none ∧ t.event 101 ∧
        t.out.host = []) ∧ (d.own = true ∧ s.hodLimit k ≤ (s.getF (Reg.chChainCount k) + 1) % 65536 ∧ d.last =
        false → t.getF (Reg.chStatusState k) = 0 ∧ t.getF (Reg.chStatusCode k) = 4 ∧ (t.hodChan k).desc = none ∧
        t.event 100 ∧ t.out.host = [⟨hodOffset (s.hodAddr k + 4), leBytes 4 4, false⟩, ⟨hodOffset (s.hodAddr k),
        leBytes 4 (d.ctrl / 2 * 2), false⟩]) ∧ (d.own = true ∧ ((s.getF (Reg.chChainCount k) + 1) % 65536 <
        s.hodLimit k ∨ d.last = true) ∧ s.hodBad k d = true → t.getF (Reg.chStatusState k) = 0 ∧ t.getF
        (Reg.chStatusCode k) = 6 ∧ (t.hodChan k).desc = none ∧ t.event 100 ∧ t.out.host = [⟨hodOffset (s.hodAddr
        k + 4), leBytes 4 6, false⟩, ⟨hodOffset (s.hodAddr k), leBytes 4 (d.ctrl / 2 * 2), false⟩]) ∧ (d.own =
        true ∧ ((s.getF (Reg.chChainCount k) + 1) % 65536 < s.hodLimit k ∨ d.last = true) ∧ s.hodBad k d = false
        → t.getF (Reg.chStatusState k) = 1 ∧ (t.hodChan k).desc = some (leBytes 64 host.toNat) ∧ t.out.host =
        []) ∧ (t.hodChan k).addr = (s.hodChan k).addr ∧ (∀ j ∈ List.range 16, j ≠ k → t.hodChan j = s.hodChan j)
        ∧ s.regsBut t [Reg.chStatusState k, Reg.chStatusCode k, Reg.chChainCount k, Reg.chDoneBytes k,
        Reg.evStatus 3] ∧ s.sameMemories t ∧ s.sameRoles t ∧ t.dev = s.dev ∧ t.journal = s.journal) ∧
    (∀ (k : Fin 16) (host : List (Byte × Bool)) (bytes : List Byte) (d : HodDesc), s.hodRuns = true ∧ s.getF
        (Reg.chStatusState k) = 1 ∧ (s.hodChan k).desc = some bytes ∧ d = hodDescOf bytes ∧ d.mode = 0 ∧ hodSpace
        d.src = 0 ∧ hodSpace d.dst = 1 ∧ host.length = d.length ∧ (∀ x ∈ host, x.2 = false) ∧ s.covers 8 4 (hodCycles
        d + 2) = true ∧ s.cleanAt .capture (hodOffset d.dst) d.length ∧ hodSpace (s.hodAddr k) = 0 ∧ hodSpace
        (s.hodAddr k + 4) = 0 →
      ∃ t, exec (.hodDescriptorEnd k host) s = .next t ∧ t.bytesAre .capture (hodOffset d.dst) d.length (fun i
        => (host.getD i (0, false)).1) ∧ s.sameBytesBut t .capture (hodOffset d.dst) d.length ∧ s.otherMemories
        t .capture ∧ t.out.host = [⟨hodOffset (s.hodAddr k + 4), leBytes 4 (1 + 256 * d.length), false⟩,
        ⟨hodOffset (s.hodAddr k), leBytes 4 (d.ctrl / 2 * 2), false⟩] ∧ t.getF (Reg.chDoneBytes k) = d.length ∧
        (t.hodChan k).desc = none ∧ (d.last = true → t.getF (Reg.chStatusState k) = 0 ∧ t.getF (Reg.chStatusCode
        k) = 1 ∧ t.event 101 ∧ (t.hodChan k).addr = (s.hodChan k).addr) ∧ (d.last = false → t.getF
        (Reg.chStatusState k) = 1 ∧ t.getF (Reg.chDescLo k) = d.next % 2 ^ 32 ∧ (t.hodChan k).addr = d.next ∧
        (d.irq = true → t.event 101) ∧ (d.irq = false → t.getF (Reg.evStatus 3) = s.getF (Reg.evStatus 3))) ∧ (∀
        j ∈ List.range 16, j ≠ k → t.hodChan j = s.hodChan j) ∧ s.regsBut t [Reg.chStatusState k,
        Reg.chStatusCode k, Reg.chDescLo k, Reg.chDoneBytes k, Reg.evStatus 3] ∧ s.sameRoles t ∧ t.dev = s.dev ∧
        t.journal = s.journal) ∧
    (∀ (k : Fin 16) (addr : BitVec 64) (done : BitVec 24) (backOk : Bool) (host : List (Byte × Bool)), s.hodRuns =
        true ∧ s.getF (Reg.chStatusState k) ≠ 0 →
      ∃ t, exec (.hodBusFault k addr done backOk host) s = .next t ∧ t.getF (Reg.chStatusState k) = 0 ∧ t.getF
        (Reg.chStatusCode k) = 5 ∧ (t.hodChan k).desc = none ∧ t.event 100 ∧ t.getF (Reg.chStatusWbFailed k) =
        bit (!backOk) ∧ ((s.hodChan k).desc = none → (t.hodChan k).fault = s.hodAddr k ∧ t.getF
        (Reg.chFaultAddrLo k) = s.hodAddr k % 2 ^ 32 ∧ t.getF (Reg.chDoneBytes k) = 0 ∧ (backOk = false →
        s.sameMemories t ∧ t.out.host = []) ∧ (backOk = true ∧ hodSpace (s.hodAddr k) = 0 ∧ hodSpace (s.hodAddr
        k + 4) = 0 → s.sameMemories t ∧ t.out.host.head? = some ⟨hodOffset (s.hodAddr k + 4), leBytes 4 5,
        false⟩)) ∧ (∀ bytes ∈ (s.hodChan k).desc, (t.hodChan k).fault = addr.toNat ∧ t.getF (Reg.chFaultAddrLo
        k) = addr.toNat % 2 ^ 32 ∧ t.getF (Reg.chDoneBytes k) = min done.toNat (hodDescOf bytes).length ∧ (done
        = 0 ∧ hodSpace (hodDescOf bytes).src = 0 ∧ backOk = false → s.sameMemories t ∧ t.out.host = []) ∧ (done
        = 0 ∧ hodSpace (hodDescOf bytes).src = 0 ∧ backOk = true ∧ hodSpace (s.hodAddr k) = 0 ∧ hodSpace
        (s.hodAddr k + 4) = 0 → s.sameMemories t ∧ t.out.host = [⟨hodOffset (s.hodAddr k + 4), leBytes 4 5,
        false⟩, ⟨hodOffset (s.hodAddr k), leBytes 4 ((hodDescOf bytes).ctrl / 2 * 2), false⟩])) ∧ (∀ j ∈
        List.range 16, j ≠ k → t.hodChan j = s.hodChan j) ∧ s.sameRoles t ∧ t.dev = s.dev ∧ t.journal =
        s.journal)
end

