-- ==== Sys2Proof/Laws/Maps.lean ====
section
/-! SUPPORT. Keyed maps in canonical form: reading after setting, and that setting keeps the form. -/

namespace Sys2Proof.Laws

open Sys2Proof.Machine

variable {β : Type}

/-- A key that was taken out reads as the default. -/
@[simp] theorem mapGet_mapErase_same (d : β) (k : Nat) (m : List (Nat × β)) : mapGet d k (mapErase k m) = d := by
  induction m with
  | nil => rfl
  | cons p t ih => by_cases h : p.1 = k <;> simp [mapErase, mapGet, h, ih]

/-- Another key keeps its value when one is taken out. -/
theorem mapGet_mapErase_ne (d : β) {j k : Nat} (h : j ≠ k) (m : List (Nat × β)) :
    mapGet d j (mapErase k m) = mapGet d j m := by
  induction m with
  | nil => rfl
  | cons p t ih =>
    by_cases hp : p.1 = k
    · simp [mapErase, mapGet, hp, ih, Ne.symm h]
    · simp only [mapErase, if_neg hp, mapGet, ih]

/-- An entry put into a map without its key is read there. -/
theorem mapGet_mapInsert_same (d v : β) (k : Nat) (m : List (Nat × β)) (h : ∀ p ∈ m, p.1 ≠ k) :
    mapGet d k (mapInsert k v m) = v := by
  induction m with
  | nil => simp [mapInsert, mapGet]
  | cons p t ih =>
    have hp : p.1 ≠ k := h p (by simp)
    have ht : ∀ q ∈ t, q.1 ≠ k := fun q hq => h q (by simp [hq])
    by_cases hk : k < p.1 <;> simp [mapInsert, mapGet, hk, hp, ih ht]

/-- Another key keeps its value when an entry is put in. -/
theorem mapGet_mapInsert_ne (d v : β) {j k : Nat} (h : j ≠ k) (m : List (Nat × β)) :
    mapGet d j (mapInsert k v m) = mapGet d j m := by
  induction m with
  | nil => simp [mapInsert, mapGet, Ne.symm h]
  | cons p t ih =>
    by_cases hk : k < p.1
    · simp [mapInsert, mapGet, hk, Ne.symm h]
    · simp only [mapInsert, if_neg hk, mapGet, ih]

/-- Taking out a key leaves it nowhere. -/
theorem mapErase_without (k : Nat) (m : List (Nat × β)) : ∀ p ∈ mapErase k m, p.1 ≠ k := by
  induction m with
  | nil => simp [mapErase]
  | cons p t ih =>
    by_cases h : p.1 = k
    · simpa [mapErase, h] using ih
    · intro q hq
      simp [mapErase, h] at hq
      rcases hq with rfl | hq
      · exact h
      · exact ih q hq

variable [DecidableEq β]

/-- A key reads as it was set. -/
@[simp] theorem mapGet_mapSet_same (d v : β) (k : Nat) (m : List (Nat × β)) : mapGet d k (mapSet d k v m) = v := by
  by_cases h : v = d
  · simp [mapSet, h]
  · simp [mapSet, h, mapGet_mapInsert_same _ _ _ _ (mapErase_without k m)]

/-- Setting one key leaves every other, whatever the defaults. -/
theorem mapGet_mapSet_ne (d e v : β) {j k : Nat} (h : j ≠ k) (m : List (Nat × β)) :
    mapGet d j (mapSet e k v m) = mapGet d j m := by
  by_cases hv : v = e <;> simp [mapSet, hv, mapGet_mapErase_ne d h, mapGet_mapInsert_ne d v h]

omit [DecidableEq β] in
/-- A bound of the keys holds without one of them too. -/
theorem keysAbove_mapErase (n k : Nat) (m : List (Nat × β)) (h : keysAbove n m = true) :
    keysAbove n (mapErase k m) = true := by
  induction m with
  | nil => rfl
  | cons p t ih =>
    simp [keysAbove] at h
    by_cases hp : p.1 = k
    · simpa [mapErase, hp] using ih h.2
    · simpa [mapErase, hp, keysAbove, h.1] using ih h.2

omit [DecidableEq β] in
/-- A larger bound is a smaller one too. -/
theorem keysAbove_mono {n k : Nat} (h : n ≤ k) (m : List (Nat × β)) (hm : keysAbove k m = true) :
    keysAbove n m = true := by
  induction m with
  | nil => rfl
  | cons p t ih =>
    simp [keysAbove] at hm ⊢
    exact ⟨by omega, ih hm.2⟩

omit [DecidableEq β] in
/-- A bound of the keys holds with one more above it. -/
theorem keysAbove_mapInsert {n k : Nat} (v : β) (m : List (Nat × β)) (hk : n < k) (h : keysAbove n m = true) :
    keysAbove n (mapInsert k v m) = true := by
  induction m with
  | nil => simp [mapInsert, keysAbove, hk]
  | cons p t ih =>
    simp [keysAbove] at h
    by_cases hp : k < p.1
    · simp [mapInsert, hp, keysAbove, hk, h]
    · simp [mapInsert, hp, keysAbove, h.1, ih h.2]

/-- Taking a key out keeps the canonical form. -/
theorem mapWf_mapErase (d : β) (k : Nat) (m : List (Nat × β)) (h : mapWf d m = true) :
    mapWf d (mapErase k m) = true := by
  induction m with
  | nil => rfl
  | cons p t ih =>
    simp [mapWf] at h
    by_cases hp : p.1 = k
    · simpa [mapErase, hp] using ih h.2
    · simp [mapErase, hp, mapWf, h.1.1, keysAbove_mapErase _ k t h.1.2, ih h.2]

/-- Putting an entry that is not the default into a canonical map without its key keeps the form. -/
theorem mapWf_mapInsert (d v : β) (k : Nat) (m : List (Nat × β)) (hv : v ≠ d) (hk : ∀ p ∈ m, p.1 ≠ k)
    (h : mapWf d m = true) : mapWf d (mapInsert k v m) = true := by
  induction m with
  | nil => simp [mapInsert, mapWf, keysAbove, hv]
  | cons p t ih =>
    have hp : p.1 ≠ k := hk p (by simp)
    have ht : ∀ q ∈ t, q.1 ≠ k := fun q hq => hk q (by simp [hq])
    simp [mapWf] at h
    by_cases hlt : k < p.1
    · simp [mapInsert, hlt, mapWf, keysAbove, hv, h, keysAbove_mono (Nat.le_of_lt hlt) t h.1.2]
    · simp [mapInsert, hlt, mapWf, h.1.1, ih ht h.2,
        keysAbove_mapInsert v t (show p.1 < k by omega) h.1.2]

/-- Setting a key keeps the canonical form. -/
theorem mapWf_mapSet (d v : β) (k : Nat) (m : List (Nat × β)) (h : mapWf d m = true) :
    mapWf d (mapSet d k v m) = true := by
  by_cases hv : v = d
  · simp [mapSet, hv, mapWf_mapErase d k m h]
  · simp [mapSet, hv, mapWf_mapInsert d v k _ hv (mapErase_without k m) (mapWf_mapErase d k m h)]

omit [DecidableEq β] in
/-- The elements of a canonical map lie above its bound. -/
theorem keysAbove_mem {n : Nat} {m : List (Nat × β)} (h : keysAbove n m = true) : ∀ p ∈ m, n < p.1 := by
  induction m with
  | nil => simp
  | cons p t ih =>
    simp [keysAbove] at h
    intro q hq
    rcases List.mem_cons.mp hq with rfl | hq
    · exact h.1
    · exact ih h.2 q hq

omit [DecidableEq β] in
/-- Elements above a bound make the bound hold. -/
theorem keysAbove_of_mem {n : Nat} {m : List (Nat × β)} (h : ∀ p ∈ m, n < p.1) : keysAbove n m = true := by
  induction m with
  | nil => rfl
  | cons p t ih =>
    simp [keysAbove]
    exact ⟨h p (by simp), ih fun q hq => h q (by simp [hq])⟩

/-- A part of a canonical map is canonical. -/
theorem mapWf_filter (d : β) (f : Nat × β → Bool) (m : List (Nat × β)) (h : mapWf d m = true) :
    mapWf d (m.filter f) = true := by
  induction m with
  | nil => rfl
  | cons p t ih =>
    simp [mapWf] at h
    have hk : keysAbove p.1 (t.filter f) = true :=
      keysAbove_of_mem fun q hq => keysAbove_mem h.1.2 q (List.mem_filter.mp hq).1
    by_cases hf : f p
    · simp [List.filter, hf, mapWf, h.1.1, hk, ih h.2]
    · simp [List.filter, hf, ih h.2]

/-- Two canonical maps, the keys of the first below those of the second, make a canonical map. -/
theorem mapWf_append (d : β) (a b : List (Nat × β)) (ha : mapWf d a = true) (hb : mapWf d b = true)
    (h : ∀ p ∈ a, ∀ q ∈ b, p.1 < q.1) : mapWf d (a ++ b) = true := by
  induction a with
  | nil => simpa using hb
  | cons p t ih =>
    simp [mapWf] at ha
    have hk : keysAbove p.1 (t ++ b) = true := keysAbove_of_mem fun q hq => by
      rcases List.mem_append.mp hq with hq | hq
      · exact keysAbove_mem ha.1.2 q hq
      · exact h p (by simp) q hq
    simp [mapWf, ha.1.1, hk, ih ha.2 fun q hq => h q (by simp [hq])]

end Sys2Proof.Laws
end

