-- ==== Sys2Proof/Laws/State.lean ====
section
/-! SUPPORT. What each named update of the state leaves as it was: one lemma for each field. -/

namespace Sys2Proof.Laws

open Sys2Proof.Machine

variable (s : State)

/-! ### setF -/

@[simp] theorem setF_pending (f : Fld) (v : Nat) : (s.setF f v).pending = s.pending := rfl
@[simp] theorem setF_phase (f : Fld) (v : Nat) : (s.setF f v).phase = s.phase := rfl
@[simp] theorem setF_dev (f : Fld) (v : Nat) : (s.setF f v).dev = s.dev := rfl
@[simp] theorem setF_prev (f : Fld) (v : Nat) : (s.setF f v).prev = s.prev := rfl
@[simp] theorem setF_holdFrom (f : Fld) (v : Nat) : (s.setF f v).holdFrom = s.holdFrom := rfl
@[simp] theorem setF_analogWest (f : Fld) (v : Nat) : (s.setF f v).analogWest = s.analogWest := rfl
@[simp] theorem setF_analogEast (f : Fld) (v : Nat) : (s.setF f v).analogEast = s.analogEast := rfl
@[simp] theorem setF_drone (f : Fld) (v : Nat) : (s.setF f v).drone = s.drone := rfl
@[simp] theorem setF_fuses (f : Fld) (v : Nat) : (s.setF f v).fuses = s.fuses := rfl
@[simp] theorem setF_pcie (f : Fld) (v : Nat) : (s.setF f v).pcie = s.pcie := rfl
@[simp] theorem setF_qspi (f : Fld) (v : Nat) : (s.setF f v).qspi = s.qspi := rfl
@[simp] theorem setF_drawn (f : Fld) (v : Nat) : (s.setF f v).drawn = s.drawn := rfl
@[simp] theorem setF_lath (f : Fld) (v : Nat) : (s.setF f v).lath = s.lath := rfl
@[simp] theorem setF_journal (f : Fld) (v : Nat) : (s.setF f v).journal = s.journal := rfl
@[simp] theorem setF_returnedPart (f : Fld) (v : Nat) : (s.setF f v).returnedPart = s.returnedPart := rfl
@[simp] theorem setF_job (f : Fld) (v : Nat) : (s.setF f v).job = s.job := rfl
@[simp] theorem setF_shadow (f : Fld) (v : Nat) : (s.setF f v).shadow = s.shadow := rfl
@[simp] theorem setF_registryMem (f : Fld) (v : Nat) : (s.setF f v).registryMem = s.registryMem := rfl
@[simp] theorem setF_stencilMem (f : Fld) (v : Nat) : (s.setF f v).stencilMem = s.stencilMem := rfl
@[simp] theorem setF_captureMem (f : Fld) (v : Nat) : (s.setF f v).captureMem = s.captureMem := rfl
@[simp] theorem setF_spineMem (f : Fld) (v : Nat) : (s.setF f v).spineMem = s.spineMem := rfl
@[simp] theorem setF_faProg (f : Fld) (v : Nat) : (s.setF f v).faProg = s.faProg := rfl
@[simp] theorem setF_faData (f : Fld) (v : Nat) : (s.setF f v).faData = s.faData := rfl
@[simp] theorem setF_memint (f : Fld) (v : Nat) : (s.setF f v).memint = s.memint := rfl
@[simp] theorem setF_rx (f : Fld) (v : Nat) : (s.setF f v).rx = s.rx := rfl
@[simp] theorem setF_tx (f : Fld) (v : Nat) : (s.setF f v).tx = s.tx := rfl
@[simp] theorem setF_syn (f : Fld) (v : Nat) : (s.setF f v).syn = s.syn := rfl
@[simp] theorem setF_tiles (f : Fld) (v : Nat) : (s.setF f v).tiles = s.tiles := rfl
@[simp] theorem setF_bias (f : Fld) (v : Nat) : (s.setF f v).bias = s.bias := rfl
@[simp] theorem setF_aerialLow (f : Fld) (v : Nat) : (s.setF f v).aerialLow = s.aerialLow := rfl
@[simp] theorem setF_aerialBars (f : Fld) (v : Nat) : (s.setF f v).aerialBars = s.aerialBars := rfl
@[simp] theorem setF_spectral (f : Fld) (v : Nat) : (s.setF f v).spectral = s.spectral := rfl
@[simp] theorem setF_sched (f : Fld) (v : Nat) : (s.setF f v).sched = s.sched := rfl
@[simp] theorem setF_fh (f : Fld) (v : Nat) : (s.setF f v).fh = s.fh := rfl
@[simp] theorem setF_doze (f : Fld) (v : Nat) : (s.setF f v).doze = s.doze := rfl
@[simp] theorem setF_cores (f : Fld) (v : Nat) : (s.setF f v).cores = s.cores := rfl
@[simp] theorem setF_hod (f : Fld) (v : Nat) : (s.setF f v).hod = s.hod := rfl
@[simp] theorem setF_bridge (f : Fld) (v : Nat) : (s.setF f v).bridge = s.bridge := rfl
@[simp] theorem setF_time (f : Fld) (v : Nat) : (s.setF f v).time = s.time := rfl
@[simp] theorem setF_cal (f : Fld) (v : Nat) : (s.setF f v).cal = s.cal := rfl
@[simp] theorem setF_mon (f : Fld) (v : Nat) : (s.setF f v).mon = s.mon := rfl
@[simp] theorem setF_budget (f : Fld) (v : Nat) : (s.setF f v).budget = s.budget := rfl
@[simp] theorem setF_events (f : Fld) (v : Nat) : (s.setF f v).events = s.events := rfl
@[simp] theorem setF_hostQueue (f : Fld) (v : Nat) : (s.setF f v).hostQueue = s.hostQueue := rfl
@[simp] theorem setF_out (f : Fld) (v : Nat) : (s.setF f v).out = s.out := rfl
@[simp] theorem setF_getSh (f : Fld) (v : Nat) (g : Fld) :
    (s.setF f v).getSh g = s.getSh g := rfl
@[simp] theorem setF_core (f : Fld) (v : Nat) (i : Nat) :
    (s.setF f v).core i = s.core i := rfl

/-! ### setSh -/

@[simp] theorem setSh_pending (f : Fld) (v : Nat) : (s.setSh f v).pending = s.pending := rfl
@[simp] theorem setSh_phase (f : Fld) (v : Nat) : (s.setSh f v).phase = s.phase := rfl
@[simp] theorem setSh_dev (f : Fld) (v : Nat) : (s.setSh f v).dev = s.dev := rfl
@[simp] theorem setSh_prev (f : Fld) (v : Nat) : (s.setSh f v).prev = s.prev := rfl
@[simp] theorem setSh_holdFrom (f : Fld) (v : Nat) : (s.setSh f v).holdFrom = s.holdFrom := rfl
@[simp] theorem setSh_analogWest (f : Fld) (v : Nat) : (s.setSh f v).analogWest = s.analogWest := rfl
@[simp] theorem setSh_analogEast (f : Fld) (v : Nat) : (s.setSh f v).analogEast = s.analogEast := rfl
@[simp] theorem setSh_drone (f : Fld) (v : Nat) : (s.setSh f v).drone = s.drone := rfl
@[simp] theorem setSh_fuses (f : Fld) (v : Nat) : (s.setSh f v).fuses = s.fuses := rfl
@[simp] theorem setSh_pcie (f : Fld) (v : Nat) : (s.setSh f v).pcie = s.pcie := rfl
@[simp] theorem setSh_qspi (f : Fld) (v : Nat) : (s.setSh f v).qspi = s.qspi := rfl
@[simp] theorem setSh_drawn (f : Fld) (v : Nat) : (s.setSh f v).drawn = s.drawn := rfl
@[simp] theorem setSh_lath (f : Fld) (v : Nat) : (s.setSh f v).lath = s.lath := rfl
@[simp] theorem setSh_journal (f : Fld) (v : Nat) : (s.setSh f v).journal = s.journal := rfl
@[simp] theorem setSh_returnedPart (f : Fld) (v : Nat) : (s.setSh f v).returnedPart = s.returnedPart := rfl
@[simp] theorem setSh_job (f : Fld) (v : Nat) : (s.setSh f v).job = s.job := rfl
@[simp] theorem setSh_regs (f : Fld) (v : Nat) : (s.setSh f v).regs = s.regs := rfl
@[simp] theorem setSh_registryMem (f : Fld) (v : Nat) : (s.setSh f v).registryMem = s.registryMem := rfl
@[simp] theorem setSh_stencilMem (f : Fld) (v : Nat) : (s.setSh f v).stencilMem = s.stencilMem := rfl
@[simp] theorem setSh_captureMem (f : Fld) (v : Nat) : (s.setSh f v).captureMem = s.captureMem := rfl
@[simp] theorem setSh_spineMem (f : Fld) (v : Nat) : (s.setSh f v).spineMem = s.spineMem := rfl
@[simp] theorem setSh_faProg (f : Fld) (v : Nat) : (s.setSh f v).faProg = s.faProg := rfl
@[simp] theorem setSh_faData (f : Fld) (v : Nat) : (s.setSh f v).faData = s.faData := rfl
@[simp] theorem setSh_memint (f : Fld) (v : Nat) : (s.setSh f v).memint = s.memint := rfl
@[simp] theorem setSh_rx (f : Fld) (v : Nat) : (s.setSh f v).rx = s.rx := rfl
@[simp] theorem setSh_tx (f : Fld) (v : Nat) : (s.setSh f v).tx = s.tx := rfl
@[simp] theorem setSh_syn (f : Fld) (v : Nat) : (s.setSh f v).syn = s.syn := rfl
@[simp] theorem setSh_tiles (f : Fld) (v : Nat) : (s.setSh f v).tiles = s.tiles := rfl
@[simp] theorem setSh_bias (f : Fld) (v : Nat) : (s.setSh f v).bias = s.bias := rfl
@[simp] theorem setSh_aerialLow (f : Fld) (v : Nat) : (s.setSh f v).aerialLow = s.aerialLow := rfl
@[simp] theorem setSh_aerialBars (f : Fld) (v : Nat) : (s.setSh f v).aerialBars = s.aerialBars := rfl
@[simp] theorem setSh_spectral (f : Fld) (v : Nat) : (s.setSh f v).spectral = s.spectral := rfl
@[simp] theorem setSh_sched (f : Fld) (v : Nat) : (s.setSh f v).sched = s.sched := rfl
@[simp] theorem setSh_fh (f : Fld) (v : Nat) : (s.setSh f v).fh = s.fh := rfl
@[simp] theorem setSh_doze (f : Fld) (v : Nat) : (s.setSh f v).doze = s.doze := rfl
@[simp] theorem setSh_cores (f : Fld) (v : Nat) : (s.setSh f v).cores = s.cores := rfl
@[simp] theorem setSh_hod (f : Fld) (v : Nat) : (s.setSh f v).hod = s.hod := rfl
@[simp] theorem setSh_bridge (f : Fld) (v : Nat) : (s.setSh f v).bridge = s.bridge := rfl
@[simp] theorem setSh_time (f : Fld) (v : Nat) : (s.setSh f v).time = s.time := rfl
@[simp] theorem setSh_cal (f : Fld) (v : Nat) : (s.setSh f v).cal = s.cal := rfl
@[simp] theorem setSh_mon (f : Fld) (v : Nat) : (s.setSh f v).mon = s.mon := rfl
@[simp] theorem setSh_budget (f : Fld) (v : Nat) : (s.setSh f v).budget = s.budget := rfl
@[simp] theorem setSh_events (f : Fld) (v : Nat) : (s.setSh f v).events = s.events := rfl
@[simp] theorem setSh_hostQueue (f : Fld) (v : Nat) : (s.setSh f v).hostQueue = s.hostQueue := rfl
@[simp] theorem setSh_out (f : Fld) (v : Nat) : (s.setSh f v).out = s.out := rfl
@[simp] theorem setSh_getF (f : Fld) (v : Nat) (g : Fld) :
    (s.setSh f v).getF g = s.getF g := rfl
@[simp] theorem setSh_flag (f : Fld) (v : Nat) (g : Fld) :
    (s.setSh f v).flag g = s.flag g := rfl
@[simp] theorem setSh_core (f : Fld) (v : Nat) (i : Nat) :
    (s.setSh f v).core i = s.core i := rfl

/-! ### setMem -/

@[simp] theorem setMem_pending (m : MemId) (x : CodedMem) : (s.setMem m x).pending = s.pending := by cases m <;> rfl
@[simp] theorem setMem_phase (m : MemId) (x : CodedMem) : (s.setMem m x).phase = s.phase := by cases m <;> rfl
@[simp] theorem setMem_dev (m : MemId) (x : CodedMem) : (s.setMem m x).dev = s.dev := by cases m <;> rfl
@[simp] theorem setMem_prev (m : MemId) (x : CodedMem) : (s.setMem m x).prev = s.prev := by cases m <;> rfl
@[simp] theorem setMem_holdFrom (m : MemId) (x : CodedMem) :
    (s.setMem m x).holdFrom = s.holdFrom := by cases m <;> rfl
@[simp] theorem setMem_analogWest (m : MemId) (x : CodedMem) :
    (s.setMem m x).analogWest = s.analogWest := by cases m <;> rfl
@[simp] theorem setMem_analogEast (m : MemId) (x : CodedMem) :
    (s.setMem m x).analogEast = s.analogEast := by cases m <;> rfl
@[simp] theorem setMem_drone (m : MemId) (x : CodedMem) : (s.setMem m x).drone = s.drone := by cases m <;> rfl
@[simp] theorem setMem_fuses (m : MemId) (x : CodedMem) : (s.setMem m x).fuses = s.fuses := by cases m <;> rfl
@[simp] theorem setMem_pcie (m : MemId) (x : CodedMem) : (s.setMem m x).pcie = s.pcie := by cases m <;> rfl
@[simp] theorem setMem_qspi (m : MemId) (x : CodedMem) : (s.setMem m x).qspi = s.qspi := by cases m <;> rfl
@[simp] theorem setMem_drawn (m : MemId) (x : CodedMem) : (s.setMem m x).drawn = s.drawn := by cases m <;> rfl
@[simp] theorem setMem_lath (m : MemId) (x : CodedMem) : (s.setMem m x).lath = s.lath := by cases m <;> rfl
@[simp] theorem setMem_journal (m : MemId) (x : CodedMem) : (s.setMem m x).journal = s.journal := by cases m <;> rfl
@[simp] theorem setMem_returnedPart (m : MemId) (x : CodedMem) :
    (s.setMem m x).returnedPart = s.returnedPart := by cases m <;> rfl
@[simp] theorem setMem_job (m : MemId) (x : CodedMem) : (s.setMem m x).job = s.job := by cases m <;> rfl
@[simp] theorem setMem_regs (m : MemId) (x : CodedMem) : (s.setMem m x).regs = s.regs := by cases m <;> rfl
@[simp] theorem setMem_shadow (m : MemId) (x : CodedMem) : (s.setMem m x).shadow = s.shadow := by cases m <;> rfl
@[simp] theorem setMem_memint (m : MemId) (x : CodedMem) : (s.setMem m x).memint = s.memint := by cases m <;> rfl
@[simp] theorem setMem_rx (m : MemId) (x : CodedMem) : (s.setMem m x).rx = s.rx := by cases m <;> rfl
@[simp] theorem setMem_tx (m : MemId) (x : CodedMem) : (s.setMem m x).tx = s.tx := by cases m <;> rfl
@[simp] theorem setMem_syn (m : MemId) (x : CodedMem) : (s.setMem m x).syn = s.syn := by cases m <;> rfl
@[simp] theorem setMem_tiles (m : MemId) (x : CodedMem) : (s.setMem m x).tiles = s.tiles := by cases m <;> rfl
@[simp] theorem setMem_bias (m : MemId) (x : CodedMem) : (s.setMem m x).bias = s.bias := by cases m <;> rfl
@[simp] theorem setMem_aerialLow (m : MemId) (x : CodedMem) :
    (s.setMem m x).aerialLow = s.aerialLow := by cases m <;> rfl
@[simp] theorem setMem_aerialBars (m : MemId) (x : CodedMem) :
    (s.setMem m x).aerialBars = s.aerialBars := by cases m <;> rfl
@[simp] theorem setMem_spectral (m : MemId) (x : CodedMem) :
    (s.setMem m x).spectral = s.spectral := by cases m <;> rfl
@[simp] theorem setMem_sched (m : MemId) (x : CodedMem) : (s.setMem m x).sched = s.sched := by cases m <;> rfl
@[simp] theorem setMem_fh (m : MemId) (x : CodedMem) : (s.setMem m x).fh = s.fh := by cases m <;> rfl
@[simp] theorem setMem_doze (m : MemId) (x : CodedMem) : (s.setMem m x).doze = s.doze := by cases m <;> rfl
@[simp] theorem setMem_cores (m : MemId) (x : CodedMem) : (s.setMem m x).cores = s.cores := by cases m <;> rfl
@[simp] theorem setMem_hod (m : MemId) (x : CodedMem) : (s.setMem m x).hod = s.hod := by cases m <;> rfl
@[simp] theorem setMem_bridge (m : MemId) (x : CodedMem) : (s.setMem m x).bridge = s.bridge := by cases m <;> rfl
@[simp] theorem setMem_time (m : MemId) (x : CodedMem) : (s.setMem m x).time = s.time := by cases m <;> rfl
@[simp] theorem setMem_cal (m : MemId) (x : CodedMem) : (s.setMem m x).cal = s.cal := by cases m <;> rfl
@[simp] theorem setMem_mon (m : MemId) (x : CodedMem) : (s.setMem m x).mon = s.mon := by cases m <;> rfl
@[simp] theorem setMem_budget (m : MemId) (x : CodedMem) : (s.setMem m x).budget = s.budget := by cases m <;> rfl
@[simp] theorem setMem_events (m : MemId) (x : CodedMem) : (s.setMem m x).events = s.events := by cases m <;> rfl
@[simp] theorem setMem_hostQueue (m : MemId) (x : CodedMem) :
    (s.setMem m x).hostQueue = s.hostQueue := by cases m <;> rfl
@[simp] theorem setMem_out (m : MemId) (x : CodedMem) : (s.setMem m x).out = s.out := by cases m <;> rfl
@[simp] theorem setMem_getF (m : MemId) (x : CodedMem) (g : Fld) :
    (s.setMem m x).getF g = s.getF g := by cases m <;> rfl
@[simp] theorem setMem_flag (m : MemId) (x : CodedMem) (g : Fld) :
    (s.setMem m x).flag g = s.flag g := by cases m <;> rfl
@[simp] theorem setMem_getSh (m : MemId) (x : CodedMem) (g : Fld) :
    (s.setMem m x).getSh g = s.getSh g := by cases m <;> rfl
@[simp] theorem setMem_core (m : MemId) (x : CodedMem) (i : Nat) :
    (s.setMem m x).core i = s.core i := by cases m <;> rfl

/-! ### setCore -/

@[simp] theorem setCore_pending (n : Nat) (c : Core) : (s.setCore n c).pending = s.pending := rfl
@[simp] theorem setCore_phase (n : Nat) (c : Core) : (s.setCore n c).phase = s.phase := rfl
@[simp] theorem setCore_dev (n : Nat) (c : Core) : (s.setCore n c).dev = s.dev := rfl
@[simp] theorem setCore_prev (n : Nat) (c : Core) : (s.setCore n c).prev = s.prev := rfl
@[simp] theorem setCore_holdFrom (n : Nat) (c : Core) : (s.setCore n c).holdFrom = s.holdFrom := rfl
@[simp] theorem setCore_analogWest (n : Nat) (c : Core) : (s.setCore n c).analogWest = s.analogWest := rfl
@[simp] theorem setCore_analogEast (n : Nat) (c : Core) : (s.setCore n c).analogEast = s.analogEast := rfl
@[simp] theorem setCore_drone (n : Nat) (c : Core) : (s.setCore n c).drone = s.drone := rfl
@[simp] theorem setCore_fuses (n : Nat) (c : Core) : (s.setCore n c).fuses = s.fuses := rfl
@[simp] theorem setCore_pcie (n : Nat) (c : Core) : (s.setCore n c).pcie = s.pcie := rfl
@[simp] theorem setCore_qspi (n : Nat) (c : Core) : (s.setCore n c).qspi = s.qspi := rfl
@[simp] theorem setCore_drawn (n : Nat) (c : Core) : (s.setCore n c).drawn = s.drawn := rfl
@[simp] theorem setCore_lath (n : Nat) (c : Core) : (s.setCore n c).lath = s.lath := rfl
@[simp] theorem setCore_journal (n : Nat) (c : Core) : (s.setCore n c).journal = s.journal := rfl
@[simp] theorem setCore_returnedPart (n : Nat) (c : Core) : (s.setCore n c).returnedPart = s.returnedPart := rfl
@[simp] theorem setCore_job (n : Nat) (c : Core) : (s.setCore n c).job = s.job := rfl
@[simp] theorem setCore_regs (n : Nat) (c : Core) : (s.setCore n c).regs = s.regs := rfl
@[simp] theorem setCore_shadow (n : Nat) (c : Core) : (s.setCore n c).shadow = s.shadow := rfl
@[simp] theorem setCore_registryMem (n : Nat) (c : Core) : (s.setCore n c).registryMem = s.registryMem := rfl
@[simp] theorem setCore_stencilMem (n : Nat) (c : Core) : (s.setCore n c).stencilMem = s.stencilMem := rfl
@[simp] theorem setCore_captureMem (n : Nat) (c : Core) : (s.setCore n c).captureMem = s.captureMem := rfl
@[simp] theorem setCore_spineMem (n : Nat) (c : Core) : (s.setCore n c).spineMem = s.spineMem := rfl
@[simp] theorem setCore_faProg (n : Nat) (c : Core) : (s.setCore n c).faProg = s.faProg := rfl
@[simp] theorem setCore_faData (n : Nat) (c : Core) : (s.setCore n c).faData = s.faData := rfl
@[simp] theorem setCore_memint (n : Nat) (c : Core) : (s.setCore n c).memint = s.memint := rfl
@[simp] theorem setCore_rx (n : Nat) (c : Core) : (s.setCore n c).rx = s.rx := rfl
@[simp] theorem setCore_tx (n : Nat) (c : Core) : (s.setCore n c).tx = s.tx := rfl
@[simp] theorem setCore_syn (n : Nat) (c : Core) : (s.setCore n c).syn = s.syn := rfl
@[simp] theorem setCore_tiles (n : Nat) (c : Core) : (s.setCore n c).tiles = s.tiles := rfl
@[simp] theorem setCore_bias (n : Nat) (c : Core) : (s.setCore n c).bias = s.bias := rfl
@[simp] theorem setCore_aerialLow (n : Nat) (c : Core) : (s.setCore n c).aerialLow = s.aerialLow := rfl
@[simp] theorem setCore_aerialBars (n : Nat) (c : Core) : (s.setCore n c).aerialBars = s.aerialBars := rfl
@[simp] theorem setCore_spectral (n : Nat) (c : Core) : (s.setCore n c).spectral = s.spectral := rfl
@[simp] theorem setCore_sched (n : Nat) (c : Core) : (s.setCore n c).sched = s.sched := rfl
@[simp] theorem setCore_fh (n : Nat) (c : Core) : (s.setCore n c).fh = s.fh := rfl
@[simp] theorem setCore_doze (n : Nat) (c : Core) : (s.setCore n c).doze = s.doze := rfl
@[simp] theorem setCore_hod (n : Nat) (c : Core) : (s.setCore n c).hod = s.hod := rfl
@[simp] theorem setCore_bridge (n : Nat) (c : Core) : (s.setCore n c).bridge = s.bridge := rfl
@[simp] theorem setCore_time (n : Nat) (c : Core) : (s.setCore n c).time = s.time := rfl
@[simp] theorem setCore_cal (n : Nat) (c : Core) : (s.setCore n c).cal = s.cal := rfl
@[simp] theorem setCore_mon (n : Nat) (c : Core) : (s.setCore n c).mon = s.mon := rfl
@[simp] theorem setCore_budget (n : Nat) (c : Core) : (s.setCore n c).budget = s.budget := rfl
@[simp] theorem setCore_events (n : Nat) (c : Core) : (s.setCore n c).events = s.events := rfl
@[simp] theorem setCore_hostQueue (n : Nat) (c : Core) : (s.setCore n c).hostQueue = s.hostQueue := rfl
@[simp] theorem setCore_out (n : Nat) (c : Core) : (s.setCore n c).out = s.out := rfl
@[simp] theorem setCore_getF (n : Nat) (c : Core) (g : Fld) :
    (s.setCore n c).getF g = s.getF g := rfl
@[simp] theorem setCore_flag (n : Nat) (c : Core) (g : Fld) :
    (s.setCore n c).flag g = s.flag g := rfl
@[simp] theorem setCore_getSh (n : Nat) (c : Core) (g : Fld) :
    (s.setCore n c).getSh g = s.getSh g := rfl

/-! ### setSession -/

@[simp] theorem setSession_pending (p : Port) (x : Session) :
    (s.setSession p x).pending = s.pending := by cases p <;> rfl
@[simp] theorem setSession_phase (p : Port) (x : Session) : (s.setSession p x).phase = s.phase := by cases p <;> rfl
@[simp] theorem setSession_dev (p : Port) (x : Session) : (s.setSession p x).dev = s.dev := by cases p <;> rfl
@[simp] theorem setSession_prev (p : Port) (x : Session) : (s.setSession p x).prev = s.prev := by cases p <;> rfl
@[simp] theorem setSession_holdFrom (p : Port) (x : Session) :
    (s.setSession p x).holdFrom = s.holdFrom := by cases p <;> rfl
@[simp] theorem setSession_analogWest (p : Port) (x : Session) :
    (s.setSession p x).analogWest = s.analogWest := by cases p <;> rfl
@[simp] theorem setSession_analogEast (p : Port) (x : Session) :
    (s.setSession p x).analogEast = s.analogEast := by cases p <;> rfl
@[simp] theorem setSession_drone (p : Port) (x : Session) : (s.setSession p x).drone = s.drone := by cases p <;> rfl
@[simp] theorem setSession_fuses (p : Port) (x : Session) : (s.setSession p x).fuses = s.fuses := by cases p <;> rfl
@[simp] theorem setSession_drawn (p : Port) (x : Session) : (s.setSession p x).drawn = s.drawn := by cases p <;> rfl
@[simp] theorem setSession_lath (p : Port) (x : Session) : (s.setSession p x).lath = s.lath := by cases p <;> rfl
@[simp] theorem setSession_journal (p : Port) (x : Session) :
    (s.setSession p x).journal = s.journal := by cases p <;> rfl
@[simp] theorem setSession_returnedPart (p : Port) (x : Session) :
    (s.setSession p x).returnedPart = s.returnedPart := by cases p <;> rfl
@[simp] theorem setSession_job (p : Port) (x : Session) : (s.setSession p x).job = s.job := by cases p <;> rfl
@[simp] theorem setSession_regs (p : Port) (x : Session) : (s.setSession p x).regs = s.regs := by cases p <;> rfl
@[simp] theorem setSession_shadow (p : Port) (x : Session) :
    (s.setSession p x).shadow = s.shadow := by cases p <;> rfl
@[simp] theorem setSession_registryMem (p : Port) (x : Session) :
    (s.setSession p x).registryMem = s.registryMem := by cases p <;> rfl
@[simp] theorem setSession_stencilMem (p : Port) (x : Session) :
    (s.setSession p x).stencilMem = s.stencilMem := by cases p <;> rfl
@[simp] theorem setSession_captureMem (p : Port) (x : Session) :
    (s.setSession p x).captureMem = s.captureMem := by cases p <;> rfl
@[simp] theorem setSession_spineMem (p : Port) (x : Session) :
    (s.setSession p x).spineMem = s.spineMem := by cases p <;> rfl
@[simp] theorem setSession_faProg (p : Port) (x : Session) :
    (s.setSession p x).faProg = s.faProg := by cases p <;> rfl
@[simp] theorem setSession_faData (p : Port) (x : Session) :
    (s.setSession p x).faData = s.faData := by cases p <;> rfl
@[simp] theorem setSession_memint (p : Port) (x : Session) :
    (s.setSession p x).memint = s.memint := by cases p <;> rfl
@[simp] theorem setSession_rx (p : Port) (x : Session) : (s.setSession p x).rx = s.rx := by cases p <;> rfl
@[simp] theorem setSession_tx (p : Port) (x : Session) : (s.setSession p x).tx = s.tx := by cases p <;> rfl
@[simp] theorem setSession_syn (p : Port) (x : Session) : (s.setSession p x).syn = s.syn := by cases p <;> rfl
@[simp] theorem setSession_tiles (p : Port) (x : Session) : (s.setSession p x).tiles = s.tiles := by cases p <;> rfl
@[simp] theorem setSession_bias (p : Port) (x : Session) : (s.setSession p x).bias = s.bias := by cases p <;> rfl
@[simp] theorem setSession_aerialLow (p : Port) (x : Session) :
    (s.setSession p x).aerialLow = s.aerialLow := by cases p <;> rfl
@[simp] theorem setSession_aerialBars (p : Port) (x : Session) :
    (s.setSession p x).aerialBars = s.aerialBars := by cases p <;> rfl
@[simp] theorem setSession_spectral (p : Port) (x : Session) :
    (s.setSession p x).spectral = s.spectral := by cases p <;> rfl
@[simp] theorem setSession_sched (p : Port) (x : Session) : (s.setSession p x).sched = s.sched := by cases p <;> rfl
@[simp] theorem setSession_fh (p : Port) (x : Session) : (s.setSession p x).fh = s.fh := by cases p <;> rfl
@[simp] theorem setSession_doze (p : Port) (x : Session) : (s.setSession p x).doze = s.doze := by cases p <;> rfl
@[simp] theorem setSession_cores (p : Port) (x : Session) : (s.setSession p x).cores = s.cores := by cases p <;> rfl
@[simp] theorem setSession_hod (p : Port) (x : Session) : (s.setSession p x).hod = s.hod := by cases p <;> rfl
@[simp] theorem setSession_bridge (p : Port) (x : Session) :
    (s.setSession p x).bridge = s.bridge := by cases p <;> rfl
@[simp] theorem setSession_time (p : Port) (x : Session) : (s.setSession p x).time = s.time := by cases p <;> rfl
@[simp] theorem setSession_cal (p : Port) (x : Session) : (s.setSession p x).cal = s.cal := by cases p <;> rfl
@[simp] theorem setSession_mon (p : Port) (x : Session) : (s.setSession p x).mon = s.mon := by cases p <;> rfl
@[simp] theorem setSession_budget (p : Port) (x : Session) :
    (s.setSession p x).budget = s.budget := by cases p <;> rfl
@[simp] theorem setSession_events (p : Port) (x : Session) :
    (s.setSession p x).events = s.events := by cases p <;> rfl
@[simp] theorem setSession_hostQueue (p : Port) (x : Session) :
    (s.setSession p x).hostQueue = s.hostQueue := by cases p <;> rfl
@[simp] theorem setSession_out (p : Port) (x : Session) : (s.setSession p x).out = s.out := by cases p <;> rfl
@[simp] theorem setSession_getF (p : Port) (x : Session) (g : Fld) :
    (s.setSession p x).getF g = s.getF g := by cases p <;> rfl
@[simp] theorem setSession_flag (p : Port) (x : Session) (g : Fld) :
    (s.setSession p x).flag g = s.flag g := by cases p <;> rfl
@[simp] theorem setSession_getSh (p : Port) (x : Session) (g : Fld) :
    (s.setSession p x).getSh g = s.getSh g := by cases p <;> rfl
@[simp] theorem setSession_core (p : Port) (x : Session) (i : Nat) :
    (s.setSession p x).core i = s.core i := by cases p <;> rfl

/-! ### charge -/

@[simp] theorem charge_pending (c r n : Nat) : (s.charge c r n).pending = s.pending := rfl
@[simp] theorem charge_phase (c r n : Nat) : (s.charge c r n).phase = s.phase := rfl
@[simp] theorem charge_dev (c r n : Nat) : (s.charge c r n).dev = s.dev := rfl
@[simp] theorem charge_prev (c r n : Nat) : (s.charge c r n).prev = s.prev := rfl
@[simp] theorem charge_holdFrom (c r n : Nat) : (s.charge c r n).holdFrom = s.holdFrom := rfl
@[simp] theorem charge_analogWest (c r n : Nat) : (s.charge c r n).analogWest = s.analogWest := rfl
@[simp] theorem charge_analogEast (c r n : Nat) : (s.charge c r n).analogEast = s.analogEast := rfl
@[simp] theorem charge_drone (c r n : Nat) : (s.charge c r n).drone = s.drone := rfl
@[simp] theorem charge_fuses (c r n : Nat) : (s.charge c r n).fuses = s.fuses := rfl
@[simp] theorem charge_pcie (c r n : Nat) : (s.charge c r n).pcie = s.pcie := rfl
@[simp] theorem charge_qspi (c r n : Nat) : (s.charge c r n).qspi = s.qspi := rfl
@[simp] theorem charge_drawn (c r n : Nat) : (s.charge c r n).drawn = s.drawn := rfl
@[simp] theorem charge_lath (c r n : Nat) : (s.charge c r n).lath = s.lath := rfl
@[simp] theorem charge_journal (c r n : Nat) : (s.charge c r n).journal = s.journal := rfl
@[simp] theorem charge_returnedPart (c r n : Nat) : (s.charge c r n).returnedPart = s.returnedPart := rfl
@[simp] theorem charge_job (c r n : Nat) : (s.charge c r n).job = s.job := rfl
@[simp] theorem charge_regs (c r n : Nat) : (s.charge c r n).regs = s.regs := rfl
@[simp] theorem charge_shadow (c r n : Nat) : (s.charge c r n).shadow = s.shadow := rfl
@[simp] theorem charge_registryMem (c r n : Nat) : (s.charge c r n).registryMem = s.registryMem := rfl
@[simp] theorem charge_stencilMem (c r n : Nat) : (s.charge c r n).stencilMem = s.stencilMem := rfl
@[simp] theorem charge_captureMem (c r n : Nat) : (s.charge c r n).captureMem = s.captureMem := rfl
@[simp] theorem charge_spineMem (c r n : Nat) : (s.charge c r n).spineMem = s.spineMem := rfl
@[simp] theorem charge_faProg (c r n : Nat) : (s.charge c r n).faProg = s.faProg := rfl
@[simp] theorem charge_faData (c r n : Nat) : (s.charge c r n).faData = s.faData := rfl
@[simp] theorem charge_memint (c r n : Nat) : (s.charge c r n).memint = s.memint := rfl
@[simp] theorem charge_rx (c r n : Nat) : (s.charge c r n).rx = s.rx := rfl
@[simp] theorem charge_tx (c r n : Nat) : (s.charge c r n).tx = s.tx := rfl
@[simp] theorem charge_syn (c r n : Nat) : (s.charge c r n).syn = s.syn := rfl
@[simp] theorem charge_tiles (c r n : Nat) : (s.charge c r n).tiles = s.tiles := rfl
@[simp] theorem charge_bias (c r n : Nat) : (s.charge c r n).bias = s.bias := rfl
@[simp] theorem charge_aerialLow (c r n : Nat) : (s.charge c r n).aerialLow = s.aerialLow := rfl
@[simp] theorem charge_aerialBars (c r n : Nat) : (s.charge c r n).aerialBars = s.aerialBars := rfl
@[simp] theorem charge_spectral (c r n : Nat) : (s.charge c r n).spectral = s.spectral := rfl
@[simp] theorem charge_sched (c r n : Nat) : (s.charge c r n).sched = s.sched := rfl
@[simp] theorem charge_fh (c r n : Nat) : (s.charge c r n).fh = s.fh := rfl
@[simp] theorem charge_doze (c r n : Nat) : (s.charge c r n).doze = s.doze := rfl
@[simp] theorem charge_cores (c r n : Nat) : (s.charge c r n).cores = s.cores := rfl
@[simp] theorem charge_hod (c r n : Nat) : (s.charge c r n).hod = s.hod := rfl
@[simp] theorem charge_bridge (c r n : Nat) : (s.charge c r n).bridge = s.bridge := rfl
@[simp] theorem charge_time (c r n : Nat) : (s.charge c r n).time = s.time := rfl
@[simp] theorem charge_cal (c r n : Nat) : (s.charge c r n).cal = s.cal := rfl
@[simp] theorem charge_mon (c r n : Nat) : (s.charge c r n).mon = s.mon := rfl
@[simp] theorem charge_events (c r n : Nat) : (s.charge c r n).events = s.events := rfl
@[simp] theorem charge_hostQueue (c r n : Nat) : (s.charge c r n).hostQueue = s.hostQueue := rfl
@[simp] theorem charge_out (c r n : Nat) : (s.charge c r n).out = s.out := rfl
@[simp] theorem charge_getF (c r n : Nat) (g : Fld) :
    (s.charge c r n).getF g = s.getF g := rfl
@[simp] theorem charge_flag (c r n : Nat) (g : Fld) :
    (s.charge c r n).flag g = s.flag g := rfl
@[simp] theorem charge_getSh (c r n : Nat) (g : Fld) :
    (s.charge c r n).getSh g = s.getSh g := rfl
@[simp] theorem charge_core (c r n : Nat) (i : Nat) :
    (s.charge c r n).core i = s.core i := rfl

/-! ### setSynth -/

@[simp] theorem setSynth_pending (x : Nat) (f : SynState → SynState) : (s.setSynth x f).pending = s.pending := rfl
@[simp] theorem setSynth_phase (x : Nat) (f : SynState → SynState) : (s.setSynth x f).phase = s.phase := rfl
@[simp] theorem setSynth_dev (x : Nat) (f : SynState → SynState) : (s.setSynth x f).dev = s.dev := rfl
@[simp] theorem setSynth_prev (x : Nat) (f : SynState → SynState) : (s.setSynth x f).prev = s.prev := rfl
@[simp] theorem setSynth_holdFrom (x : Nat) (f : SynState → SynState) : (s.setSynth x f).holdFrom = s.holdFrom := rfl
@[simp] theorem setSynth_analogWest (x : Nat) (f : SynState → SynState) :
    (s.setSynth x f).analogWest = s.analogWest := rfl
@[simp] theorem setSynth_analogEast (x : Nat) (f : SynState → SynState) :
    (s.setSynth x f).analogEast = s.analogEast := rfl
@[simp] theorem setSynth_drone (x : Nat) (f : SynState → SynState) : (s.setSynth x f).drone = s.drone := rfl
@[simp] theorem setSynth_fuses (x : Nat) (f : SynState → SynState) : (s.setSynth x f).fuses = s.fuses := rfl
@[simp] theorem setSynth_pcie (x : Nat) (f : SynState → SynState) : (s.setSynth x f).pcie = s.pcie := rfl
@[simp] theorem setSynth_qspi (x : Nat) (f : SynState → SynState) : (s.setSynth x f).qspi = s.qspi := rfl
@[simp] theorem setSynth_drawn (x : Nat) (f : SynState → SynState) : (s.setSynth x f).drawn = s.drawn := rfl
@[simp] theorem setSynth_lath (x : Nat) (f : SynState → SynState) : (s.setSynth x f).lath = s.lath := rfl
@[simp] theorem setSynth_journal (x : Nat) (f : SynState → SynState) : (s.setSynth x f).journal = s.journal := rfl
@[simp] theorem setSynth_returnedPart (x : Nat) (f : SynState → SynState) :
    (s.setSynth x f).returnedPart = s.returnedPart := rfl
@[simp] theorem setSynth_job (x : Nat) (f : SynState → SynState) : (s.setSynth x f).job = s.job := rfl
@[simp] theorem setSynth_regs (x : Nat) (f : SynState → SynState) : (s.setSynth x f).regs = s.regs := rfl
@[simp] theorem setSynth_shadow (x : Nat) (f : SynState → SynState) : (s.setSynth x f).shadow = s.shadow := rfl
@[simp] theorem setSynth_registryMem (x : Nat) (f : SynState → SynState) :
    (s.setSynth x f).registryMem = s.registryMem := rfl
@[simp] theorem setSynth_stencilMem (x : Nat) (f : SynState → SynState) :
    (s.setSynth x f).stencilMem = s.stencilMem := rfl
@[simp] theorem setSynth_captureMem (x : Nat) (f : SynState → SynState) :
    (s.setSynth x f).captureMem = s.captureMem := rfl
@[simp] theorem setSynth_spineMem (x : Nat) (f : SynState → SynState) : (s.setSynth x f).spineMem = s.spineMem := rfl
@[simp] theorem setSynth_faProg (x : Nat) (f : SynState → SynState) : (s.setSynth x f).faProg = s.faProg := rfl
@[simp] theorem setSynth_faData (x : Nat) (f : SynState → SynState) : (s.setSynth x f).faData = s.faData := rfl
@[simp] theorem setSynth_memint (x : Nat) (f : SynState → SynState) : (s.setSynth x f).memint = s.memint := rfl
@[simp] theorem setSynth_rx (x : Nat) (f : SynState → SynState) : (s.setSynth x f).rx = s.rx := rfl
@[simp] theorem setSynth_tx (x : Nat) (f : SynState → SynState) : (s.setSynth x f).tx = s.tx := rfl
@[simp] theorem setSynth_tiles (x : Nat) (f : SynState → SynState) : (s.setSynth x f).tiles = s.tiles := rfl
@[simp] theorem setSynth_bias (x : Nat) (f : SynState → SynState) : (s.setSynth x f).bias = s.bias := rfl
@[simp] theorem setSynth_aerialLow (x : Nat) (f : SynState → SynState) :
    (s.setSynth x f).aerialLow = s.aerialLow := rfl
@[simp] theorem setSynth_aerialBars (x : Nat) (f : SynState → SynState) :
    (s.setSynth x f).aerialBars = s.aerialBars := rfl
@[simp] theorem setSynth_spectral (x : Nat) (f : SynState → SynState) : (s.setSynth x f).spectral = s.spectral := rfl
@[simp] theorem setSynth_sched (x : Nat) (f : SynState → SynState) : (s.setSynth x f).sched = s.sched := rfl
@[simp] theorem setSynth_fh (x : Nat) (f : SynState → SynState) : (s.setSynth x f).fh = s.fh := rfl
@[simp] theorem setSynth_doze (x : Nat) (f : SynState → SynState) : (s.setSynth x f).doze = s.doze := rfl
@[simp] theorem setSynth_cores (x : Nat) (f : SynState → SynState) : (s.setSynth x f).cores = s.cores := rfl
@[simp] theorem setSynth_hod (x : Nat) (f : SynState → SynState) : (s.setSynth x f).hod = s.hod := rfl
@[simp] theorem setSynth_bridge (x : Nat) (f : SynState → SynState) : (s.setSynth x f).bridge = s.bridge := rfl
@[simp] theorem setSynth_time (x : Nat) (f : SynState → SynState) : (s.setSynth x f).time = s.time := rfl
@[simp] theorem setSynth_cal (x : Nat) (f : SynState → SynState) : (s.setSynth x f).cal = s.cal := rfl
@[simp] theorem setSynth_mon (x : Nat) (f : SynState → SynState) : (s.setSynth x f).mon = s.mon := rfl
@[simp] theorem setSynth_budget (x : Nat) (f : SynState → SynState) : (s.setSynth x f).budget = s.budget := rfl
@[simp] theorem setSynth_events (x : Nat) (f : SynState → SynState) : (s.setSynth x f).events = s.events := rfl
@[simp] theorem setSynth_hostQueue (x : Nat) (f : SynState → SynState) :
    (s.setSynth x f).hostQueue = s.hostQueue := rfl
@[simp] theorem setSynth_out (x : Nat) (f : SynState → SynState) : (s.setSynth x f).out = s.out := rfl
@[simp] theorem setSynth_getF (x : Nat) (f : SynState → SynState) (g : Fld) :
    (s.setSynth x f).getF g = s.getF g := rfl
@[simp] theorem setSynth_flag (x : Nat) (f : SynState → SynState) (g : Fld) :
    (s.setSynth x f).flag g = s.flag g := rfl
@[simp] theorem setSynth_getSh (x : Nat) (f : SynState → SynState) (g : Fld) :
    (s.setSynth x f).getSh g = s.getSh g := rfl
@[simp] theorem setSynth_core (x : Nat) (f : SynState → SynState) (i : Nat) :
    (s.setSynth x f).core i = s.core i := rfl

/-! ### setHod -/

@[simp] theorem setHod_pending (k : Nat) (f : HodChan → HodChan) : (s.setHod k f).pending = s.pending := rfl
@[simp] theorem setHod_phase (k : Nat) (f : HodChan → HodChan) : (s.setHod k f).phase = s.phase := rfl
@[simp] theorem setHod_dev (k : Nat) (f : HodChan → HodChan) : (s.setHod k f).dev = s.dev := rfl
@[simp] theorem setHod_prev (k : Nat) (f : HodChan → HodChan) : (s.setHod k f).prev = s.prev := rfl
@[simp] theorem setHod_holdFrom (k : Nat) (f : HodChan → HodChan) : (s.setHod k f).holdFrom = s.holdFrom := rfl
@[simp] theorem setHod_analogWest (k : Nat) (f : HodChan → HodChan) : (s.setHod k f).analogWest = s.analogWest := rfl
@[simp] theorem setHod_analogEast (k : Nat) (f : HodChan → HodChan) : (s.setHod k f).analogEast = s.analogEast := rfl
@[simp] theorem setHod_drone (k : Nat) (f : HodChan → HodChan) : (s.setHod k f).drone = s.drone := rfl
@[simp] theorem setHod_fuses (k : Nat) (f : HodChan → HodChan) : (s.setHod k f).fuses = s.fuses := rfl
@[simp] theorem setHod_pcie (k : Nat) (f : HodChan → HodChan) : (s.setHod k f).pcie = s.pcie := rfl
@[simp] theorem setHod_qspi (k : Nat) (f : HodChan → HodChan) : (s.setHod k f).qspi = s.qspi := rfl
@[simp] theorem setHod_drawn (k : Nat) (f : HodChan → HodChan) : (s.setHod k f).drawn = s.drawn := rfl
@[simp] theorem setHod_lath (k : Nat) (f : HodChan → HodChan) : (s.setHod k f).lath = s.lath := rfl
@[simp] theorem setHod_journal (k : Nat) (f : HodChan → HodChan) : (s.setHod k f).journal = s.journal := rfl
@[simp] theorem setHod_returnedPart (k : Nat) (f : HodChan → HodChan) :
    (s.setHod k f).returnedPart = s.returnedPart := rfl
@[simp] theorem setHod_job (k : Nat) (f : HodChan → HodChan) : (s.setHod k f).job = s.job := rfl
@[simp] theorem setHod_regs (k : Nat) (f : HodChan → HodChan) : (s.setHod k f).regs = s.regs := rfl
@[simp] theorem setHod_shadow (k : Nat) (f : HodChan → HodChan) : (s.setHod k f).shadow = s.shadow := rfl
@[simp] theorem setHod_registryMem (k : Nat) (f : HodChan → HodChan) :
    (s.setHod k f).registryMem = s.registryMem := rfl
@[simp] theorem setHod_stencilMem (k : Nat) (f : HodChan → HodChan) : (s.setHod k f).stencilMem = s.stencilMem := rfl
@[simp] theorem setHod_captureMem (k : Nat) (f : HodChan → HodChan) : (s.setHod k f).captureMem = s.captureMem := rfl
@[simp] theorem setHod_spineMem (k : Nat) (f : HodChan → HodChan) : (s.setHod k f).spineMem = s.spineMem := rfl
@[simp] theorem setHod_faProg (k : Nat) (f : HodChan → HodChan) : (s.setHod k f).faProg = s.faProg := rfl
@[simp] theorem setHod_faData (k : Nat) (f : HodChan → HodChan) : (s.setHod k f).faData = s.faData := rfl
@[simp] theorem setHod_memint (k : Nat) (f : HodChan → HodChan) : (s.setHod k f).memint = s.memint := rfl
@[simp] theorem setHod_rx (k : Nat) (f : HodChan → HodChan) : (s.setHod k f).rx = s.rx := rfl
@[simp] theorem setHod_tx (k : Nat) (f : HodChan → HodChan) : (s.setHod k f).tx = s.tx := rfl
@[simp] theorem setHod_syn (k : Nat) (f : HodChan → HodChan) : (s.setHod k f).syn = s.syn := rfl
@[simp] theorem setHod_tiles (k : Nat) (f : HodChan → HodChan) : (s.setHod k f).tiles = s.tiles := rfl
@[simp] theorem setHod_bias (k : Nat) (f : HodChan → HodChan) : (s.setHod k f).bias = s.bias := rfl
@[simp] theorem setHod_aerialLow (k : Nat) (f : HodChan → HodChan) : (s.setHod k f).aerialLow = s.aerialLow := rfl
@[simp] theorem setHod_aerialBars (k : Nat) (f : HodChan → HodChan) : (s.setHod k f).aerialBars = s.aerialBars := rfl
@[simp] theorem setHod_spectral (k : Nat) (f : HodChan → HodChan) : (s.setHod k f).spectral = s.spectral := rfl
@[simp] theorem setHod_sched (k : Nat) (f : HodChan → HodChan) : (s.setHod k f).sched = s.sched := rfl
@[simp] theorem setHod_fh (k : Nat) (f : HodChan → HodChan) : (s.setHod k f).fh = s.fh := rfl
@[simp] theorem setHod_doze (k : Nat) (f : HodChan → HodChan) : (s.setHod k f).doze = s.doze := rfl
@[simp] theorem setHod_cores (k : Nat) (f : HodChan → HodChan) : (s.setHod k f).cores = s.cores := rfl
@[simp] theorem setHod_bridge (k : Nat) (f : HodChan → HodChan) : (s.setHod k f).bridge = s.bridge := rfl
@[simp] theorem setHod_time (k : Nat) (f : HodChan → HodChan) : (s.setHod k f).time = s.time := rfl
@[simp] theorem setHod_cal (k : Nat) (f : HodChan → HodChan) : (s.setHod k f).cal = s.cal := rfl
@[simp] theorem setHod_mon (k : Nat) (f : HodChan → HodChan) : (s.setHod k f).mon = s.mon := rfl
@[simp] theorem setHod_budget (k : Nat) (f : HodChan → HodChan) : (s.setHod k f).budget = s.budget := rfl
@[simp] theorem setHod_events (k : Nat) (f : HodChan → HodChan) : (s.setHod k f).events = s.events := rfl
@[simp] theorem setHod_hostQueue (k : Nat) (f : HodChan → HodChan) : (s.setHod k f).hostQueue = s.hostQueue := rfl
@[simp] theorem setHod_out (k : Nat) (f : HodChan → HodChan) : (s.setHod k f).out = s.out := rfl
@[simp] theorem setHod_getF (k : Nat) (f : HodChan → HodChan) (g : Fld) :
    (s.setHod k f).getF g = s.getF g := rfl
@[simp] theorem setHod_flag (k : Nat) (f : HodChan → HodChan) (g : Fld) :
    (s.setHod k f).flag g = s.flag g := rfl
@[simp] theorem setHod_getSh (k : Nat) (f : HodChan → HodChan) (g : Fld) :
    (s.setHod k f).getSh g = s.getSh g := rfl
@[simp] theorem setHod_core (k : Nat) (f : HodChan → HodChan) (i : Nat) :
    (s.setHod k f).core i = s.core i := rfl

/-! ### setTile -/

@[simp] theorem setTile_pending (t : Nat) (f : TileState → TileState) : (s.setTile t f).pending = s.pending := rfl
@[simp] theorem setTile_phase (t : Nat) (f : TileState → TileState) : (s.setTile t f).phase = s.phase := rfl
@[simp] theorem setTile_dev (t : Nat) (f : TileState → TileState) : (s.setTile t f).dev = s.dev := rfl
@[simp] theorem setTile_prev (t : Nat) (f : TileState → TileState) : (s.setTile t f).prev = s.prev := rfl
@[simp] theorem setTile_holdFrom (t : Nat) (f : TileState → TileState) : (s.setTile t f).holdFrom = s.holdFrom := rfl
@[simp] theorem setTile_analogWest (t : Nat) (f : TileState → TileState) :
    (s.setTile t f).analogWest = s.analogWest := rfl
@[simp] theorem setTile_analogEast (t : Nat) (f : TileState → TileState) :
    (s.setTile t f).analogEast = s.analogEast := rfl
@[simp] theorem setTile_drone (t : Nat) (f : TileState → TileState) : (s.setTile t f).drone = s.drone := rfl
@[simp] theorem setTile_fuses (t : Nat) (f : TileState → TileState) : (s.setTile t f).fuses = s.fuses := rfl
@[simp] theorem setTile_pcie (t : Nat) (f : TileState → TileState) : (s.setTile t f).pcie = s.pcie := rfl
@[simp] theorem setTile_qspi (t : Nat) (f : TileState → TileState) : (s.setTile t f).qspi = s.qspi := rfl
@[simp] theorem setTile_drawn (t : Nat) (f : TileState → TileState) : (s.setTile t f).drawn = s.drawn := rfl
@[simp] theorem setTile_lath (t : Nat) (f : TileState → TileState) : (s.setTile t f).lath = s.lath := rfl
@[simp] theorem setTile_journal (t : Nat) (f : TileState → TileState) : (s.setTile t f).journal = s.journal := rfl
@[simp] theorem setTile_returnedPart (t : Nat) (f : TileState → TileState) :
    (s.setTile t f).returnedPart = s.returnedPart := rfl
@[simp] theorem setTile_job (t : Nat) (f : TileState → TileState) : (s.setTile t f).job = s.job := rfl
@[simp] theorem setTile_regs (t : Nat) (f : TileState → TileState) : (s.setTile t f).regs = s.regs := rfl
@[simp] theorem setTile_shadow (t : Nat) (f : TileState → TileState) : (s.setTile t f).shadow = s.shadow := rfl
@[simp] theorem setTile_registryMem (t : Nat) (f : TileState → TileState) :
    (s.setTile t f).registryMem = s.registryMem := rfl
@[simp] theorem setTile_stencilMem (t : Nat) (f : TileState → TileState) :
    (s.setTile t f).stencilMem = s.stencilMem := rfl
@[simp] theorem setTile_captureMem (t : Nat) (f : TileState → TileState) :
    (s.setTile t f).captureMem = s.captureMem := rfl
@[simp] theorem setTile_spineMem (t : Nat) (f : TileState → TileState) : (s.setTile t f).spineMem = s.spineMem := rfl
@[simp] theorem setTile_faProg (t : Nat) (f : TileState → TileState) : (s.setTile t f).faProg = s.faProg := rfl
@[simp] theorem setTile_faData (t : Nat) (f : TileState → TileState) : (s.setTile t f).faData = s.faData := rfl
@[simp] theorem setTile_memint (t : Nat) (f : TileState → TileState) : (s.setTile t f).memint = s.memint := rfl
@[simp] theorem setTile_rx (t : Nat) (f : TileState → TileState) : (s.setTile t f).rx = s.rx := rfl
@[simp] theorem setTile_tx (t : Nat) (f : TileState → TileState) : (s.setTile t f).tx = s.tx := rfl
@[simp] theorem setTile_syn (t : Nat) (f : TileState → TileState) : (s.setTile t f).syn = s.syn := rfl
@[simp] theorem setTile_bias (t : Nat) (f : TileState → TileState) : (s.setTile t f).bias = s.bias := rfl
@[simp] theorem setTile_aerialLow (t : Nat) (f : TileState → TileState) :
    (s.setTile t f).aerialLow = s.aerialLow := rfl
@[simp] theorem setTile_aerialBars (t : Nat) (f : TileState → TileState) :
    (s.setTile t f).aerialBars = s.aerialBars := rfl
@[simp] theorem setTile_spectral (t : Nat) (f : TileState → TileState) : (s.setTile t f).spectral = s.spectral := rfl
@[simp] theorem setTile_sched (t : Nat) (f : TileState → TileState) : (s.setTile t f).sched = s.sched := rfl
@[simp] theorem setTile_fh (t : Nat) (f : TileState → TileState) : (s.setTile t f).fh = s.fh := rfl
@[simp] theorem setTile_doze (t : Nat) (f : TileState → TileState) : (s.setTile t f).doze = s.doze := rfl
@[simp] theorem setTile_cores (t : Nat) (f : TileState → TileState) : (s.setTile t f).cores = s.cores := rfl
@[simp] theorem setTile_hod (t : Nat) (f : TileState → TileState) : (s.setTile t f).hod = s.hod := rfl
@[simp] theorem setTile_bridge (t : Nat) (f : TileState → TileState) : (s.setTile t f).bridge = s.bridge := rfl
@[simp] theorem setTile_time (t : Nat) (f : TileState → TileState) : (s.setTile t f).time = s.time := rfl
@[simp] theorem setTile_cal (t : Nat) (f : TileState → TileState) : (s.setTile t f).cal = s.cal := rfl
@[simp] theorem setTile_mon (t : Nat) (f : TileState → TileState) : (s.setTile t f).mon = s.mon := rfl
@[simp] theorem setTile_budget (t : Nat) (f : TileState → TileState) : (s.setTile t f).budget = s.budget := rfl
@[simp] theorem setTile_events (t : Nat) (f : TileState → TileState) : (s.setTile t f).events = s.events := rfl
@[simp] theorem setTile_hostQueue (t : Nat) (f : TileState → TileState) :
    (s.setTile t f).hostQueue = s.hostQueue := rfl
@[simp] theorem setTile_out (t : Nat) (f : TileState → TileState) : (s.setTile t f).out = s.out := rfl
@[simp] theorem setTile_getF (t : Nat) (f : TileState → TileState) (g : Fld) :
    (s.setTile t f).getF g = s.getF g := rfl
@[simp] theorem setTile_flag (t : Nat) (f : TileState → TileState) (g : Fld) :
    (s.setTile t f).flag g = s.flag g := rfl
@[simp] theorem setTile_getSh (t : Nat) (f : TileState → TileState) (g : Fld) :
    (s.setTile t f).getSh g = s.getSh g := rfl
@[simp] theorem setTile_core (t : Nat) (f : TileState → TileState) (i : Nat) :
    (s.setTile t f).core i = s.core i := rfl

/-! ### setBias -/

@[simp] theorem setBias_pending (k : Nat) (f : BiasState → BiasState) : (s.setBias k f).pending = s.pending := rfl
@[simp] theorem setBias_phase (k : Nat) (f : BiasState → BiasState) : (s.setBias k f).phase = s.phase := rfl
@[simp] theorem setBias_dev (k : Nat) (f : BiasState → BiasState) : (s.setBias k f).dev = s.dev := rfl
@[simp] theorem setBias_prev (k : Nat) (f : BiasState → BiasState) : (s.setBias k f).prev = s.prev := rfl
@[simp] theorem setBias_holdFrom (k : Nat) (f : BiasState → BiasState) : (s.setBias k f).holdFrom = s.holdFrom := rfl
@[simp] theorem setBias_analogWest (k : Nat) (f : BiasState → BiasState) :
    (s.setBias k f).analogWest = s.analogWest := rfl
@[simp] theorem setBias_analogEast (k : Nat) (f : BiasState → BiasState) :
    (s.setBias k f).analogEast = s.analogEast := rfl
@[simp] theorem setBias_drone (k : Nat) (f : BiasState → BiasState) : (s.setBias k f).drone = s.drone := rfl
@[simp] theorem setBias_fuses (k : Nat) (f : BiasState → BiasState) : (s.setBias k f).fuses = s.fuses := rfl
@[simp] theorem setBias_pcie (k : Nat) (f : BiasState → BiasState) : (s.setBias k f).pcie = s.pcie := rfl
@[simp] theorem setBias_qspi (k : Nat) (f : BiasState → BiasState) : (s.setBias k f).qspi = s.qspi := rfl
@[simp] theorem setBias_drawn (k : Nat) (f : BiasState → BiasState) : (s.setBias k f).drawn = s.drawn := rfl
@[simp] theorem setBias_lath (k : Nat) (f : BiasState → BiasState) : (s.setBias k f).lath = s.lath := rfl
@[simp] theorem setBias_journal (k : Nat) (f : BiasState → BiasState) : (s.setBias k f).journal = s.journal := rfl
@[simp] theorem setBias_returnedPart (k : Nat) (f : BiasState → BiasState) :
    (s.setBias k f).returnedPart = s.returnedPart := rfl
@[simp] theorem setBias_job (k : Nat) (f : BiasState → BiasState) : (s.setBias k f).job = s.job := rfl
@[simp] theorem setBias_regs (k : Nat) (f : BiasState → BiasState) : (s.setBias k f).regs = s.regs := rfl
@[simp] theorem setBias_shadow (k : Nat) (f : BiasState → BiasState) : (s.setBias k f).shadow = s.shadow := rfl
@[simp] theorem setBias_registryMem (k : Nat) (f : BiasState → BiasState) :
    (s.setBias k f).registryMem = s.registryMem := rfl
@[simp] theorem setBias_stencilMem (k : Nat) (f : BiasState → BiasState) :
    (s.setBias k f).stencilMem = s.stencilMem := rfl
@[simp] theorem setBias_captureMem (k : Nat) (f : BiasState → BiasState) :
    (s.setBias k f).captureMem = s.captureMem := rfl
@[simp] theorem setBias_spineMem (k : Nat) (f : BiasState → BiasState) : (s.setBias k f).spineMem = s.spineMem := rfl
@[simp] theorem setBias_faProg (k : Nat) (f : BiasState → BiasState) : (s.setBias k f).faProg = s.faProg := rfl
@[simp] theorem setBias_faData (k : Nat) (f : BiasState → BiasState) : (s.setBias k f).faData = s.faData := rfl
@[simp] theorem setBias_memint (k : Nat) (f : BiasState → BiasState) : (s.setBias k f).memint = s.memint := rfl
@[simp] theorem setBias_rx (k : Nat) (f : BiasState → BiasState) : (s.setBias k f).rx = s.rx := rfl
@[simp] theorem setBias_tx (k : Nat) (f : BiasState → BiasState) : (s.setBias k f).tx = s.tx := rfl
@[simp] theorem setBias_syn (k : Nat) (f : BiasState → BiasState) : (s.setBias k f).syn = s.syn := rfl
@[simp] theorem setBias_tiles (k : Nat) (f : BiasState → BiasState) : (s.setBias k f).tiles = s.tiles := rfl
@[simp] theorem setBias_aerialLow (k : Nat) (f : BiasState → BiasState) :
    (s.setBias k f).aerialLow = s.aerialLow := rfl
@[simp] theorem setBias_aerialBars (k : Nat) (f : BiasState → BiasState) :
    (s.setBias k f).aerialBars = s.aerialBars := rfl
@[simp] theorem setBias_spectral (k : Nat) (f : BiasState → BiasState) : (s.setBias k f).spectral = s.spectral := rfl
@[simp] theorem setBias_sched (k : Nat) (f : BiasState → BiasState) : (s.setBias k f).sched = s.sched := rfl
@[simp] theorem setBias_fh (k : Nat) (f : BiasState → BiasState) : (s.setBias k f).fh = s.fh := rfl
@[simp] theorem setBias_doze (k : Nat) (f : BiasState → BiasState) : (s.setBias k f).doze = s.doze := rfl
@[simp] theorem setBias_cores (k : Nat) (f : BiasState → BiasState) : (s.setBias k f).cores = s.cores := rfl
@[simp] theorem setBias_hod (k : Nat) (f : BiasState → BiasState) : (s.setBias k f).hod = s.hod := rfl
@[simp] theorem setBias_bridge (k : Nat) (f : BiasState → BiasState) : (s.setBias k f).bridge = s.bridge := rfl
@[simp] theorem setBias_time (k : Nat) (f : BiasState → BiasState) : (s.setBias k f).time = s.time := rfl
@[simp] theorem setBias_cal (k : Nat) (f : BiasState → BiasState) : (s.setBias k f).cal = s.cal := rfl
@[simp] theorem setBias_mon (k : Nat) (f : BiasState → BiasState) : (s.setBias k f).mon = s.mon := rfl
@[simp] theorem setBias_budget (k : Nat) (f : BiasState → BiasState) : (s.setBias k f).budget = s.budget := rfl
@[simp] theorem setBias_events (k : Nat) (f : BiasState → BiasState) : (s.setBias k f).events = s.events := rfl
@[simp] theorem setBias_hostQueue (k : Nat) (f : BiasState → BiasState) :
    (s.setBias k f).hostQueue = s.hostQueue := rfl
@[simp] theorem setBias_out (k : Nat) (f : BiasState → BiasState) : (s.setBias k f).out = s.out := rfl
@[simp] theorem setBias_getF (k : Nat) (f : BiasState → BiasState) (g : Fld) :
    (s.setBias k f).getF g = s.getF g := rfl
@[simp] theorem setBias_flag (k : Nat) (f : BiasState → BiasState) (g : Fld) :
    (s.setBias k f).flag g = s.flag g := rfl
@[simp] theorem setBias_getSh (k : Nat) (f : BiasState → BiasState) (g : Fld) :
    (s.setBias k f).getSh g = s.getSh g := rfl
@[simp] theorem setBias_core (k : Nat) (f : BiasState → BiasState) (i : Nat) :
    (s.setBias k f).core i = s.core i := rfl

/-! ### setObs -/

@[simp] theorem setObs_pending (q : Nat) (f : ObsRx → ObsRx) : (s.setObs q f).pending = s.pending := rfl
@[simp] theorem setObs_phase (q : Nat) (f : ObsRx → ObsRx) : (s.setObs q f).phase = s.phase := rfl
@[simp] theorem setObs_dev (q : Nat) (f : ObsRx → ObsRx) : (s.setObs q f).dev = s.dev := rfl
@[simp] theorem setObs_prev (q : Nat) (f : ObsRx → ObsRx) : (s.setObs q f).prev = s.prev := rfl
@[simp] theorem setObs_holdFrom (q : Nat) (f : ObsRx → ObsRx) : (s.setObs q f).holdFrom = s.holdFrom := rfl
@[simp] theorem setObs_analogWest (q : Nat) (f : ObsRx → ObsRx) : (s.setObs q f).analogWest = s.analogWest := rfl
@[simp] theorem setObs_analogEast (q : Nat) (f : ObsRx → ObsRx) : (s.setObs q f).analogEast = s.analogEast := rfl
@[simp] theorem setObs_drone (q : Nat) (f : ObsRx → ObsRx) : (s.setObs q f).drone = s.drone := rfl
@[simp] theorem setObs_fuses (q : Nat) (f : ObsRx → ObsRx) : (s.setObs q f).fuses = s.fuses := rfl
@[simp] theorem setObs_pcie (q : Nat) (f : ObsRx → ObsRx) : (s.setObs q f).pcie = s.pcie := rfl
@[simp] theorem setObs_qspi (q : Nat) (f : ObsRx → ObsRx) : (s.setObs q f).qspi = s.qspi := rfl
@[simp] theorem setObs_drawn (q : Nat) (f : ObsRx → ObsRx) : (s.setObs q f).drawn = s.drawn := rfl
@[simp] theorem setObs_lath (q : Nat) (f : ObsRx → ObsRx) : (s.setObs q f).lath = s.lath := rfl
@[simp] theorem setObs_journal (q : Nat) (f : ObsRx → ObsRx) : (s.setObs q f).journal = s.journal := rfl
@[simp] theorem setObs_returnedPart (q : Nat) (f : ObsRx → ObsRx) :
    (s.setObs q f).returnedPart = s.returnedPart := rfl
@[simp] theorem setObs_job (q : Nat) (f : ObsRx → ObsRx) : (s.setObs q f).job = s.job := rfl
@[simp] theorem setObs_regs (q : Nat) (f : ObsRx → ObsRx) : (s.setObs q f).regs = s.regs := rfl
@[simp] theorem setObs_shadow (q : Nat) (f : ObsRx → ObsRx) : (s.setObs q f).shadow = s.shadow := rfl
@[simp] theorem setObs_registryMem (q : Nat) (f : ObsRx → ObsRx) : (s.setObs q f).registryMem = s.registryMem := rfl
@[simp] theorem setObs_stencilMem (q : Nat) (f : ObsRx → ObsRx) : (s.setObs q f).stencilMem = s.stencilMem := rfl
@[simp] theorem setObs_captureMem (q : Nat) (f : ObsRx → ObsRx) : (s.setObs q f).captureMem = s.captureMem := rfl
@[simp] theorem setObs_spineMem (q : Nat) (f : ObsRx → ObsRx) : (s.setObs q f).spineMem = s.spineMem := rfl
@[simp] theorem setObs_faProg (q : Nat) (f : ObsRx → ObsRx) : (s.setObs q f).faProg = s.faProg := rfl
@[simp] theorem setObs_faData (q : Nat) (f : ObsRx → ObsRx) : (s.setObs q f).faData = s.faData := rfl
@[simp] theorem setObs_memint (q : Nat) (f : ObsRx → ObsRx) : (s.setObs q f).memint = s.memint := rfl
@[simp] theorem setObs_rx (q : Nat) (f : ObsRx → ObsRx) : (s.setObs q f).rx = s.rx := rfl
@[simp] theorem setObs_syn (q : Nat) (f : ObsRx → ObsRx) : (s.setObs q f).syn = s.syn := rfl
@[simp] theorem setObs_tiles (q : Nat) (f : ObsRx → ObsRx) : (s.setObs q f).tiles = s.tiles := rfl
@[simp] theorem setObs_bias (q : Nat) (f : ObsRx → ObsRx) : (s.setObs q f).bias = s.bias := rfl
@[simp] theorem setObs_aerialLow (q : Nat) (f : ObsRx → ObsRx) : (s.setObs q f).aerialLow = s.aerialLow := rfl
@[simp] theorem setObs_aerialBars (q : Nat) (f : ObsRx → ObsRx) : (s.setObs q f).aerialBars = s.aerialBars := rfl
@[simp] theorem setObs_spectral (q : Nat) (f : ObsRx → ObsRx) : (s.setObs q f).spectral = s.spectral := rfl
@[simp] theorem setObs_sched (q : Nat) (f : ObsRx → ObsRx) : (s.setObs q f).sched = s.sched := rfl
@[simp] theorem setObs_fh (q : Nat) (f : ObsRx → ObsRx) : (s.setObs q f).fh = s.fh := rfl
@[simp] theorem setObs_doze (q : Nat) (f : ObsRx → ObsRx) : (s.setObs q f).doze = s.doze := rfl
@[simp] theorem setObs_cores (q : Nat) (f : ObsRx → ObsRx) : (s.setObs q f).cores = s.cores := rfl
@[simp] theorem setObs_hod (q : Nat) (f : ObsRx → ObsRx) : (s.setObs q f).hod = s.hod := rfl
@[simp] theorem setObs_bridge (q : Nat) (f : ObsRx → ObsRx) : (s.setObs q f).bridge = s.bridge := rfl
@[simp] theorem setObs_time (q : Nat) (f : ObsRx → ObsRx) : (s.setObs q f).time = s.time := rfl
@[simp] theorem setObs_cal (q : Nat) (f : ObsRx → ObsRx) : (s.setObs q f).cal = s.cal := rfl
@[simp] theorem setObs_mon (q : Nat) (f : ObsRx → ObsRx) : (s.setObs q f).mon = s.mon := rfl
@[simp] theorem setObs_budget (q : Nat) (f : ObsRx → ObsRx) : (s.setObs q f).budget = s.budget := rfl
@[simp] theorem setObs_events (q : Nat) (f : ObsRx → ObsRx) : (s.setObs q f).events = s.events := rfl
@[simp] theorem setObs_hostQueue (q : Nat) (f : ObsRx → ObsRx) : (s.setObs q f).hostQueue = s.hostQueue := rfl
@[simp] theorem setObs_out (q : Nat) (f : ObsRx → ObsRx) : (s.setObs q f).out = s.out := rfl
@[simp] theorem setObs_getF (q : Nat) (f : ObsRx → ObsRx) (g : Fld) :
    (s.setObs q f).getF g = s.getF g := rfl
@[simp] theorem setObs_flag (q : Nat) (f : ObsRx → ObsRx) (g : Fld) :
    (s.setObs q f).flag g = s.flag g := rfl
@[simp] theorem setObs_getSh (q : Nat) (f : ObsRx → ObsRx) (g : Fld) :
    (s.setObs q f).getSh g = s.getSh g := rfl
@[simp] theorem setObs_core (q : Nat) (f : ObsRx → ObsRx) (i : Nat) :
    (s.setObs q f).core i = s.core i := rfl

/-! ### setCap -/

@[simp] theorem setCap_pending (k : Nat) (f : CapState → CapState) : (s.setCap k f).pending = s.pending := rfl
@[simp] theorem setCap_phase (k : Nat) (f : CapState → CapState) : (s.setCap k f).phase = s.phase := rfl
@[simp] theorem setCap_dev (k : Nat) (f : CapState → CapState) : (s.setCap k f).dev = s.dev := rfl
@[simp] theorem setCap_prev (k : Nat) (f : CapState → CapState) : (s.setCap k f).prev = s.prev := rfl
@[simp] theorem setCap_holdFrom (k : Nat) (f : CapState → CapState) : (s.setCap k f).holdFrom = s.holdFrom := rfl
@[simp] theorem setCap_analogWest (k : Nat) (f : CapState → CapState) :
    (s.setCap k f).analogWest = s.analogWest := rfl
@[simp] theorem setCap_analogEast (k : Nat) (f : CapState → CapState) :
    (s.setCap k f).analogEast = s.analogEast := rfl
@[simp] theorem setCap_drone (k : Nat) (f : CapState → CapState) : (s.setCap k f).drone = s.drone := rfl
@[simp] theorem setCap_fuses (k : Nat) (f : CapState → CapState) : (s.setCap k f).fuses = s.fuses := rfl
@[simp] theorem setCap_pcie (k : Nat) (f : CapState → CapState) : (s.setCap k f).pcie = s.pcie := rfl
@[simp] theorem setCap_qspi (k : Nat) (f : CapState → CapState) : (s.setCap k f).qspi = s.qspi := rfl
@[simp] theorem setCap_drawn (k : Nat) (f : CapState → CapState) : (s.setCap k f).drawn = s.drawn := rfl
@[simp] theorem setCap_lath (k : Nat) (f : CapState → CapState) : (s.setCap k f).lath = s.lath := rfl
@[simp] theorem setCap_journal (k : Nat) (f : CapState → CapState) : (s.setCap k f).journal = s.journal := rfl
@[simp] theorem setCap_returnedPart (k : Nat) (f : CapState → CapState) :
    (s.setCap k f).returnedPart = s.returnedPart := rfl
@[simp] theorem setCap_job (k : Nat) (f : CapState → CapState) : (s.setCap k f).job = s.job := rfl
@[simp] theorem setCap_regs (k : Nat) (f : CapState → CapState) : (s.setCap k f).regs = s.regs := rfl
@[simp] theorem setCap_shadow (k : Nat) (f : CapState → CapState) : (s.setCap k f).shadow = s.shadow := rfl
@[simp] theorem setCap_registryMem (k : Nat) (f : CapState → CapState) :
    (s.setCap k f).registryMem = s.registryMem := rfl
@[simp] theorem setCap_stencilMem (k : Nat) (f : CapState → CapState) :
    (s.setCap k f).stencilMem = s.stencilMem := rfl
@[simp] theorem setCap_captureMem (k : Nat) (f : CapState → CapState) :
    (s.setCap k f).captureMem = s.captureMem := rfl
@[simp] theorem setCap_spineMem (k : Nat) (f : CapState → CapState) : (s.setCap k f).spineMem = s.spineMem := rfl
@[simp] theorem setCap_faProg (k : Nat) (f : CapState → CapState) : (s.setCap k f).faProg = s.faProg := rfl
@[simp] theorem setCap_faData (k : Nat) (f : CapState → CapState) : (s.setCap k f).faData = s.faData := rfl
@[simp] theorem setCap_memint (k : Nat) (f : CapState → CapState) : (s.setCap k f).memint = s.memint := rfl
@[simp] theorem setCap_rx (k : Nat) (f : CapState → CapState) : (s.setCap k f).rx = s.rx := rfl
@[simp] theorem setCap_syn (k : Nat) (f : CapState → CapState) : (s.setCap k f).syn = s.syn := rfl
@[simp] theorem setCap_tiles (k : Nat) (f : CapState → CapState) : (s.setCap k f).tiles = s.tiles := rfl
@[simp] theorem setCap_bias (k : Nat) (f : CapState → CapState) : (s.setCap k f).bias = s.bias := rfl
@[simp] theorem setCap_aerialLow (k : Nat) (f : CapState → CapState) : (s.setCap k f).aerialLow = s.aerialLow := rfl
@[simp] theorem setCap_aerialBars (k : Nat) (f : CapState → CapState) :
    (s.setCap k f).aerialBars = s.aerialBars := rfl
@[simp] theorem setCap_spectral (k : Nat) (f : CapState → CapState) : (s.setCap k f).spectral = s.spectral := rfl
@[simp] theorem setCap_sched (k : Nat) (f : CapState → CapState) : (s.setCap k f).sched = s.sched := rfl
@[simp] theorem setCap_fh (k : Nat) (f : CapState → CapState) : (s.setCap k f).fh = s.fh := rfl
@[simp] theorem setCap_doze (k : Nat) (f : CapState → CapState) : (s.setCap k f).doze = s.doze := rfl
@[simp] theorem setCap_cores (k : Nat) (f : CapState → CapState) : (s.setCap k f).cores = s.cores := rfl
@[simp] theorem setCap_hod (k : Nat) (f : CapState → CapState) : (s.setCap k f).hod = s.hod := rfl
@[simp] theorem setCap_bridge (k : Nat) (f : CapState → CapState) : (s.setCap k f).bridge = s.bridge := rfl
@[simp] theorem setCap_time (k : Nat) (f : CapState → CapState) : (s.setCap k f).time = s.time := rfl
@[simp] theorem setCap_cal (k : Nat) (f : CapState → CapState) : (s.setCap k f).cal = s.cal := rfl
@[simp] theorem setCap_mon (k : Nat) (f : CapState → CapState) : (s.setCap k f).mon = s.mon := rfl
@[simp] theorem setCap_budget (k : Nat) (f : CapState → CapState) : (s.setCap k f).budget = s.budget := rfl
@[simp] theorem setCap_events (k : Nat) (f : CapState → CapState) : (s.setCap k f).events = s.events := rfl
@[simp] theorem setCap_hostQueue (k : Nat) (f : CapState → CapState) : (s.setCap k f).hostQueue = s.hostQueue := rfl
@[simp] theorem setCap_out (k : Nat) (f : CapState → CapState) : (s.setCap k f).out = s.out := rfl
@[simp] theorem setCap_getF (k : Nat) (f : CapState → CapState) (g : Fld) :
    (s.setCap k f).getF g = s.getF g := rfl
@[simp] theorem setCap_flag (k : Nat) (f : CapState → CapState) (g : Fld) :
    (s.setCap k f).flag g = s.flag g := rfl
@[simp] theorem setCap_getSh (k : Nat) (f : CapState → CapState) (g : Fld) :
    (s.setCap k f).getSh g = s.getSh g := rfl
@[simp] theorem setCap_core (k : Nat) (f : CapState → CapState) (i : Nat) :
    (s.setCap k f).core i = s.core i := rfl

/-! ### setLayer -/

@[simp] theorem setLayer_pending (k : Nat) (f : LayerState → LayerState) : (s.setLayer k f).pending = s.pending := rfl
@[simp] theorem setLayer_phase (k : Nat) (f : LayerState → LayerState) : (s.setLayer k f).phase = s.phase := rfl
@[simp] theorem setLayer_dev (k : Nat) (f : LayerState → LayerState) : (s.setLayer k f).dev = s.dev := rfl
@[simp] theorem setLayer_prev (k : Nat) (f : LayerState → LayerState) : (s.setLayer k f).prev = s.prev := rfl
@[simp] theorem setLayer_holdFrom (k : Nat) (f : LayerState → LayerState) :
    (s.setLayer k f).holdFrom = s.holdFrom := rfl
@[simp] theorem setLayer_analogWest (k : Nat) (f : LayerState → LayerState) :
    (s.setLayer k f).analogWest = s.analogWest := rfl
@[simp] theorem setLayer_analogEast (k : Nat) (f : LayerState → LayerState) :
    (s.setLayer k f).analogEast = s.analogEast := rfl
@[simp] theorem setLayer_drone (k : Nat) (f : LayerState → LayerState) : (s.setLayer k f).drone = s.drone := rfl
@[simp] theorem setLayer_fuses (k : Nat) (f : LayerState → LayerState) : (s.setLayer k f).fuses = s.fuses := rfl
@[simp] theorem setLayer_pcie (k : Nat) (f : LayerState → LayerState) : (s.setLayer k f).pcie = s.pcie := rfl
@[simp] theorem setLayer_qspi (k : Nat) (f : LayerState → LayerState) : (s.setLayer k f).qspi = s.qspi := rfl
@[simp] theorem setLayer_drawn (k : Nat) (f : LayerState → LayerState) : (s.setLayer k f).drawn = s.drawn := rfl
@[simp] theorem setLayer_lath (k : Nat) (f : LayerState → LayerState) : (s.setLayer k f).lath = s.lath := rfl
@[simp] theorem setLayer_journal (k : Nat) (f : LayerState → LayerState) : (s.setLayer k f).journal = s.journal := rfl
@[simp] theorem setLayer_returnedPart (k : Nat) (f : LayerState → LayerState) :
    (s.setLayer k f).returnedPart = s.returnedPart := rfl
@[simp] theorem setLayer_job (k : Nat) (f : LayerState → LayerState) : (s.setLayer k f).job = s.job := rfl
@[simp] theorem setLayer_regs (k : Nat) (f : LayerState → LayerState) : (s.setLayer k f).regs = s.regs := rfl
@[simp] theorem setLayer_shadow (k : Nat) (f : LayerState → LayerState) : (s.setLayer k f).shadow = s.shadow := rfl
@[simp] theorem setLayer_registryMem (k : Nat) (f : LayerState → LayerState) :
    (s.setLayer k f).registryMem = s.registryMem := rfl
@[simp] theorem setLayer_stencilMem (k : Nat) (f : LayerState → LayerState) :
    (s.setLayer k f).stencilMem = s.stencilMem := rfl
@[simp] theorem setLayer_captureMem (k : Nat) (f : LayerState → LayerState) :
    (s.setLayer k f).captureMem = s.captureMem := rfl
@[simp] theorem setLayer_spineMem (k : Nat) (f : LayerState → LayerState) :
    (s.setLayer k f).spineMem = s.spineMem := rfl
@[simp] theorem setLayer_faProg (k : Nat) (f : LayerState → LayerState) : (s.setLayer k f).faProg = s.faProg := rfl
@[simp] theorem setLayer_faData (k : Nat) (f : LayerState → LayerState) : (s.setLayer k f).faData = s.faData := rfl
@[simp] theorem setLayer_memint (k : Nat) (f : LayerState → LayerState) : (s.setLayer k f).memint = s.memint := rfl
@[simp] theorem setLayer_rx (k : Nat) (f : LayerState → LayerState) : (s.setLayer k f).rx = s.rx := rfl
@[simp] theorem setLayer_tx (k : Nat) (f : LayerState → LayerState) : (s.setLayer k f).tx = s.tx := rfl
@[simp] theorem setLayer_syn (k : Nat) (f : LayerState → LayerState) : (s.setLayer k f).syn = s.syn := rfl
@[simp] theorem setLayer_tiles (k : Nat) (f : LayerState → LayerState) : (s.setLayer k f).tiles = s.tiles := rfl
@[simp] theorem setLayer_bias (k : Nat) (f : LayerState → LayerState) : (s.setLayer k f).bias = s.bias := rfl
@[simp] theorem setLayer_aerialLow (k : Nat) (f : LayerState → LayerState) :
    (s.setLayer k f).aerialLow = s.aerialLow := rfl
@[simp] theorem setLayer_aerialBars (k : Nat) (f : LayerState → LayerState) :
    (s.setLayer k f).aerialBars = s.aerialBars := rfl
@[simp] theorem setLayer_sched (k : Nat) (f : LayerState → LayerState) : (s.setLayer k f).sched = s.sched := rfl
@[simp] theorem setLayer_fh (k : Nat) (f : LayerState → LayerState) : (s.setLayer k f).fh = s.fh := rfl
@[simp] theorem setLayer_doze (k : Nat) (f : LayerState → LayerState) : (s.setLayer k f).doze = s.doze := rfl
@[simp] theorem setLayer_cores (k : Nat) (f : LayerState → LayerState) : (s.setLayer k f).cores = s.cores := rfl
@[simp] theorem setLayer_hod (k : Nat) (f : LayerState → LayerState) : (s.setLayer k f).hod = s.hod := rfl
@[simp] theorem setLayer_bridge (k : Nat) (f : LayerState → LayerState) : (s.setLayer k f).bridge = s.bridge := rfl
@[simp] theorem setLayer_time (k : Nat) (f : LayerState → LayerState) : (s.setLayer k f).time = s.time := rfl
@[simp] theorem setLayer_cal (k : Nat) (f : LayerState → LayerState) : (s.setLayer k f).cal = s.cal := rfl
@[simp] theorem setLayer_mon (k : Nat) (f : LayerState → LayerState) : (s.setLayer k f).mon = s.mon := rfl
@[simp] theorem setLayer_budget (k : Nat) (f : LayerState → LayerState) : (s.setLayer k f).budget = s.budget := rfl
@[simp] theorem setLayer_events (k : Nat) (f : LayerState → LayerState) : (s.setLayer k f).events = s.events := rfl
@[simp] theorem setLayer_hostQueue (k : Nat) (f : LayerState → LayerState) :
    (s.setLayer k f).hostQueue = s.hostQueue := rfl
@[simp] theorem setLayer_out (k : Nat) (f : LayerState → LayerState) : (s.setLayer k f).out = s.out := rfl
@[simp] theorem setLayer_getF (k : Nat) (f : LayerState → LayerState) (g : Fld) :
    (s.setLayer k f).getF g = s.getF g := rfl
@[simp] theorem setLayer_flag (k : Nat) (f : LayerState → LayerState) (g : Fld) :
    (s.setLayer k f).flag g = s.flag g := rfl
@[simp] theorem setLayer_getSh (k : Nat) (f : LayerState → LayerState) (g : Fld) :
    (s.setLayer k f).getSh g = s.getSh g := rfl
@[simp] theorem setLayer_core (k : Nat) (f : LayerState → LayerState) (i : Nat) :
    (s.setLayer k f).core i = s.core i := rfl

/-! ### setDoze -/

@[simp] theorem setDoze_pending (f : DozeState → DozeState) : (s.setDoze f).pending = s.pending := rfl
@[simp] theorem setDoze_phase (f : DozeState → DozeState) : (s.setDoze f).phase = s.phase := rfl
@[simp] theorem setDoze_dev (f : DozeState → DozeState) : (s.setDoze f).dev = s.dev := rfl
@[simp] theorem setDoze_prev (f : DozeState → DozeState) : (s.setDoze f).prev = s.prev := rfl
@[simp] theorem setDoze_holdFrom (f : DozeState → DozeState) : (s.setDoze f).holdFrom = s.holdFrom := rfl
@[simp] theorem setDoze_analogWest (f : DozeState → DozeState) : (s.setDoze f).analogWest = s.analogWest := rfl
@[simp] theorem setDoze_analogEast (f : DozeState → DozeState) : (s.setDoze f).analogEast = s.analogEast := rfl
@[simp] theorem setDoze_drone (f : DozeState → DozeState) : (s.setDoze f).drone = s.drone := rfl
@[simp] theorem setDoze_fuses (f : DozeState → DozeState) : (s.setDoze f).fuses = s.fuses := rfl
@[simp] theorem setDoze_pcie (f : DozeState → DozeState) : (s.setDoze f).pcie = s.pcie := rfl
@[simp] theorem setDoze_qspi (f : DozeState → DozeState) : (s.setDoze f).qspi = s.qspi := rfl
@[simp] theorem setDoze_drawn (f : DozeState → DozeState) : (s.setDoze f).drawn = s.drawn := rfl
@[simp] theorem setDoze_lath (f : DozeState → DozeState) : (s.setDoze f).lath = s.lath := rfl
@[simp] theorem setDoze_journal (f : DozeState → DozeState) : (s.setDoze f).journal = s.journal := rfl
@[simp] theorem setDoze_returnedPart (f : DozeState → DozeState) : (s.setDoze f).returnedPart = s.returnedPart := rfl
@[simp] theorem setDoze_job (f : DozeState → DozeState) : (s.setDoze f).job = s.job := rfl
@[simp] theorem setDoze_regs (f : DozeState → DozeState) : (s.setDoze f).regs = s.regs := rfl
@[simp] theorem setDoze_shadow (f : DozeState → DozeState) : (s.setDoze f).shadow = s.shadow := rfl
@[simp] theorem setDoze_registryMem (f : DozeState → DozeState) : (s.setDoze f).registryMem = s.registryMem := rfl
@[simp] theorem setDoze_stencilMem (f : DozeState → DozeState) : (s.setDoze f).stencilMem = s.stencilMem := rfl
@[simp] theorem setDoze_captureMem (f : DozeState → DozeState) : (s.setDoze f).captureMem = s.captureMem := rfl
@[simp] theorem setDoze_spineMem (f : DozeState → DozeState) : (s.setDoze f).spineMem = s.spineMem := rfl
@[simp] theorem setDoze_faProg (f : DozeState → DozeState) : (s.setDoze f).faProg = s.faProg := rfl
@[simp] theorem setDoze_faData (f : DozeState → DozeState) : (s.setDoze f).faData = s.faData := rfl
@[simp] theorem setDoze_memint (f : DozeState → DozeState) : (s.setDoze f).memint = s.memint := rfl
@[simp] theorem setDoze_rx (f : DozeState → DozeState) : (s.setDoze f).rx = s.rx := rfl
@[simp] theorem setDoze_tx (f : DozeState → DozeState) : (s.setDoze f).tx = s.tx := rfl
@[simp] theorem setDoze_syn (f : DozeState → DozeState) : (s.setDoze f).syn = s.syn := rfl
@[simp] theorem setDoze_tiles (f : DozeState → DozeState) : (s.setDoze f).tiles = s.tiles := rfl
@[simp] theorem setDoze_bias (f : DozeState → DozeState) : (s.setDoze f).bias = s.bias := rfl
@[simp] theorem setDoze_aerialLow (f : DozeState → DozeState) : (s.setDoze f).aerialLow = s.aerialLow := rfl
@[simp] theorem setDoze_aerialBars (f : DozeState → DozeState) : (s.setDoze f).aerialBars = s.aerialBars := rfl
@[simp] theorem setDoze_spectral (f : DozeState → DozeState) : (s.setDoze f).spectral = s.spectral := rfl
@[simp] theorem setDoze_sched (f : DozeState → DozeState) : (s.setDoze f).sched = s.sched := rfl
@[simp] theorem setDoze_fh (f : DozeState → DozeState) : (s.setDoze f).fh = s.fh := rfl
@[simp] theorem setDoze_cores (f : DozeState → DozeState) : (s.setDoze f).cores = s.cores := rfl
@[simp] theorem setDoze_hod (f : DozeState → DozeState) : (s.setDoze f).hod = s.hod := rfl
@[simp] theorem setDoze_bridge (f : DozeState → DozeState) : (s.setDoze f).bridge = s.bridge := rfl
@[simp] theorem setDoze_time (f : DozeState → DozeState) : (s.setDoze f).time = s.time := rfl
@[simp] theorem setDoze_cal (f : DozeState → DozeState) : (s.setDoze f).cal = s.cal := rfl
@[simp] theorem setDoze_mon (f : DozeState → DozeState) : (s.setDoze f).mon = s.mon := rfl
@[simp] theorem setDoze_budget (f : DozeState → DozeState) : (s.setDoze f).budget = s.budget := rfl
@[simp] theorem setDoze_events (f : DozeState → DozeState) : (s.setDoze f).events = s.events := rfl
@[simp] theorem setDoze_hostQueue (f : DozeState → DozeState) : (s.setDoze f).hostQueue = s.hostQueue := rfl
@[simp] theorem setDoze_out (f : DozeState → DozeState) : (s.setDoze f).out = s.out := rfl
@[simp] theorem setDoze_getF (f : DozeState → DozeState) (g : Fld) :
    (s.setDoze f).getF g = s.getF g := rfl
@[simp] theorem setDoze_flag (f : DozeState → DozeState) (g : Fld) :
    (s.setDoze f).flag g = s.flag g := rfl
@[simp] theorem setDoze_getSh (f : DozeState → DozeState) (g : Fld) :
    (s.setDoze f).getSh g = s.getSh g := rfl
@[simp] theorem setDoze_core (f : DozeState → DozeState) (i : Nat) :
    (s.setDoze f).core i = s.core i := rfl

/-! ### setBridge -/

@[simp] theorem setBridge_pending (f : BridgeState → BridgeState) : (s.setBridge f).pending = s.pending := rfl
@[simp] theorem setBridge_phase (f : BridgeState → BridgeState) : (s.setBridge f).phase = s.phase := rfl
@[simp] theorem setBridge_dev (f : BridgeState → BridgeState) : (s.setBridge f).dev = s.dev := rfl
@[simp] theorem setBridge_prev (f : BridgeState → BridgeState) : (s.setBridge f).prev = s.prev := rfl
@[simp] theorem setBridge_holdFrom (f : BridgeState → BridgeState) : (s.setBridge f).holdFrom = s.holdFrom := rfl
@[simp] theorem setBridge_analogWest (f : BridgeState → BridgeState) :
    (s.setBridge f).analogWest = s.analogWest := rfl
@[simp] theorem setBridge_analogEast (f : BridgeState → BridgeState) :
    (s.setBridge f).analogEast = s.analogEast := rfl
@[simp] theorem setBridge_drone (f : BridgeState → BridgeState) : (s.setBridge f).drone = s.drone := rfl
@[simp] theorem setBridge_fuses (f : BridgeState → BridgeState) : (s.setBridge f).fuses = s.fuses := rfl
@[simp] theorem setBridge_pcie (f : BridgeState → BridgeState) : (s.setBridge f).pcie = s.pcie := rfl
@[simp] theorem setBridge_qspi (f : BridgeState → BridgeState) : (s.setBridge f).qspi = s.qspi := rfl
@[simp] theorem setBridge_drawn (f : BridgeState → BridgeState) : (s.setBridge f).drawn = s.drawn := rfl
@[simp] theorem setBridge_lath (f : BridgeState → BridgeState) : (s.setBridge f).lath = s.lath := rfl
@[simp] theorem setBridge_journal (f : BridgeState → BridgeState) : (s.setBridge f).journal = s.journal := rfl
@[simp] theorem setBridge_returnedPart (f : BridgeState → BridgeState) :
    (s.setBridge f).returnedPart = s.returnedPart := rfl
@[simp] theorem setBridge_job (f : BridgeState → BridgeState) : (s.setBridge f).job = s.job := rfl
@[simp] theorem setBridge_regs (f : BridgeState → BridgeState) : (s.setBridge f).regs = s.regs := rfl
@[simp] theorem setBridge_shadow (f : BridgeState → BridgeState) : (s.setBridge f).shadow = s.shadow := rfl
@[simp] theorem setBridge_registryMem (f : BridgeState → BridgeState) :
    (s.setBridge f).registryMem = s.registryMem := rfl
@[simp] theorem setBridge_stencilMem (f : BridgeState → BridgeState) :
    (s.setBridge f).stencilMem = s.stencilMem := rfl
@[simp] theorem setBridge_captureMem (f : BridgeState → BridgeState) :
    (s.setBridge f).captureMem = s.captureMem := rfl
@[simp] theorem setBridge_spineMem (f : BridgeState → BridgeState) : (s.setBridge f).spineMem = s.spineMem := rfl
@[simp] theorem setBridge_faProg (f : BridgeState → BridgeState) : (s.setBridge f).faProg = s.faProg := rfl
@[simp] theorem setBridge_faData (f : BridgeState → BridgeState) : (s.setBridge f).faData = s.faData := rfl
@[simp] theorem setBridge_memint (f : BridgeState → BridgeState) : (s.setBridge f).memint = s.memint := rfl
@[simp] theorem setBridge_rx (f : BridgeState → BridgeState) : (s.setBridge f).rx = s.rx := rfl
@[simp] theorem setBridge_tx (f : BridgeState → BridgeState) : (s.setBridge f).tx = s.tx := rfl
@[simp] theorem setBridge_syn (f : BridgeState → BridgeState) : (s.setBridge f).syn = s.syn := rfl
@[simp] theorem setBridge_tiles (f : BridgeState → BridgeState) : (s.setBridge f).tiles = s.tiles := rfl
@[simp] theorem setBridge_bias (f : BridgeState → BridgeState) : (s.setBridge f).bias = s.bias := rfl
@[simp] theorem setBridge_aerialLow (f : BridgeState → BridgeState) : (s.setBridge f).aerialLow = s.aerialLow := rfl
@[simp] theorem setBridge_aerialBars (f : BridgeState → BridgeState) :
    (s.setBridge f).aerialBars = s.aerialBars := rfl
@[simp] theorem setBridge_spectral (f : BridgeState → BridgeState) : (s.setBridge f).spectral = s.spectral := rfl
@[simp] theorem setBridge_sched (f : BridgeState → BridgeState) : (s.setBridge f).sched = s.sched := rfl
@[simp] theorem setBridge_fh (f : BridgeState → BridgeState) : (s.setBridge f).fh = s.fh := rfl
@[simp] theorem setBridge_doze (f : BridgeState → BridgeState) : (s.setBridge f).doze = s.doze := rfl
@[simp] theorem setBridge_cores (f : BridgeState → BridgeState) : (s.setBridge f).cores = s.cores := rfl
@[simp] theorem setBridge_hod (f : BridgeState → BridgeState) : (s.setBridge f).hod = s.hod := rfl
@[simp] theorem setBridge_time (f : BridgeState → BridgeState) : (s.setBridge f).time = s.time := rfl
@[simp] theorem setBridge_cal (f : BridgeState → BridgeState) : (s.setBridge f).cal = s.cal := rfl
@[simp] theorem setBridge_mon (f : BridgeState → BridgeState) : (s.setBridge f).mon = s.mon := rfl
@[simp] theorem setBridge_budget (f : BridgeState → BridgeState) : (s.setBridge f).budget = s.budget := rfl
@[simp] theorem setBridge_events (f : BridgeState → BridgeState) : (s.setBridge f).events = s.events := rfl
@[simp] theorem setBridge_hostQueue (f : BridgeState → BridgeState) : (s.setBridge f).hostQueue = s.hostQueue := rfl
@[simp] theorem setBridge_out (f : BridgeState → BridgeState) : (s.setBridge f).out = s.out := rfl
@[simp] theorem setBridge_getF (f : BridgeState → BridgeState) (g : Fld) :
    (s.setBridge f).getF g = s.getF g := rfl
@[simp] theorem setBridge_flag (f : BridgeState → BridgeState) (g : Fld) :
    (s.setBridge f).flag g = s.flag g := rfl
@[simp] theorem setBridge_getSh (f : BridgeState → BridgeState) (g : Fld) :
    (s.setBridge f).getSh g = s.getSh g := rfl
@[simp] theorem setBridge_core (f : BridgeState → BridgeState) (i : Nat) :
    (s.setBridge f).core i = s.core i := rfl

/-! ### framed -/

@[simp] theorem framed_pending (p : Port) : (s.framed p).pending = s.pending := by cases p <;> rfl
@[simp] theorem framed_phase (p : Port) : (s.framed p).phase = s.phase := by cases p <;> rfl
@[simp] theorem framed_dev (p : Port) : (s.framed p).dev = s.dev := by cases p <;> rfl
@[simp] theorem framed_prev (p : Port) : (s.framed p).prev = s.prev := by cases p <;> rfl
@[simp] theorem framed_holdFrom (p : Port) : (s.framed p).holdFrom = s.holdFrom := by cases p <;> rfl
@[simp] theorem framed_analogWest (p : Port) : (s.framed p).analogWest = s.analogWest := by cases p <;> rfl
@[simp] theorem framed_analogEast (p : Port) : (s.framed p).analogEast = s.analogEast := by cases p <;> rfl
@[simp] theorem framed_fuses (p : Port) : (s.framed p).fuses = s.fuses := by cases p <;> rfl
@[simp] theorem framed_pcie (p : Port) : (s.framed p).pcie = s.pcie := by cases p <;> rfl
@[simp] theorem framed_qspi (p : Port) : (s.framed p).qspi = s.qspi := by cases p <;> rfl
@[simp] theorem framed_drawn (p : Port) : (s.framed p).drawn = s.drawn := by cases p <;> rfl
@[simp] theorem framed_lath (p : Port) : (s.framed p).lath = s.lath := by cases p <;> rfl
@[simp] theorem framed_journal (p : Port) : (s.framed p).journal = s.journal := by cases p <;> rfl
@[simp] theorem framed_returnedPart (p : Port) : (s.framed p).returnedPart = s.returnedPart := by cases p <;> rfl
@[simp] theorem framed_job (p : Port) : (s.framed p).job = s.job := by cases p <;> rfl
@[simp] theorem framed_regs (p : Port) : (s.framed p).regs = s.regs := by cases p <;> rfl
@[simp] theorem framed_shadow (p : Port) : (s.framed p).shadow = s.shadow := by cases p <;> rfl
@[simp] theorem framed_registryMem (p : Port) : (s.framed p).registryMem = s.registryMem := by cases p <;> rfl
@[simp] theorem framed_stencilMem (p : Port) : (s.framed p).stencilMem = s.stencilMem := by cases p <;> rfl
@[simp] theorem framed_captureMem (p : Port) : (s.framed p).captureMem = s.captureMem := by cases p <;> rfl
@[simp] theorem framed_spineMem (p : Port) : (s.framed p).spineMem = s.spineMem := by cases p <;> rfl
@[simp] theorem framed_faProg (p : Port) : (s.framed p).faProg = s.faProg := by cases p <;> rfl
@[simp] theorem framed_faData (p : Port) : (s.framed p).faData = s.faData := by cases p <;> rfl
@[simp] theorem framed_memint (p : Port) : (s.framed p).memint = s.memint := by cases p <;> rfl
@[simp] theorem framed_rx (p : Port) : (s.framed p).rx = s.rx := by cases p <;> rfl
@[simp] theorem framed_tx (p : Port) : (s.framed p).tx = s.tx := by cases p <;> rfl
@[simp] theorem framed_syn (p : Port) : (s.framed p).syn = s.syn := by cases p <;> rfl
@[simp] theorem framed_tiles (p : Port) : (s.framed p).tiles = s.tiles := by cases p <;> rfl
@[simp] theorem framed_bias (p : Port) : (s.framed p).bias = s.bias := by cases p <;> rfl
@[simp] theorem framed_aerialLow (p : Port) : (s.framed p).aerialLow = s.aerialLow := by cases p <;> rfl
@[simp] theorem framed_aerialBars (p : Port) : (s.framed p).aerialBars = s.aerialBars := by cases p <;> rfl
@[simp] theorem framed_spectral (p : Port) : (s.framed p).spectral = s.spectral := by cases p <;> rfl
@[simp] theorem framed_sched (p : Port) : (s.framed p).sched = s.sched := by cases p <;> rfl
@[simp] theorem framed_fh (p : Port) : (s.framed p).fh = s.fh := by cases p <;> rfl
@[simp] theorem framed_doze (p : Port) : (s.framed p).doze = s.doze := by cases p <;> rfl
@[simp] theorem framed_cores (p : Port) : (s.framed p).cores = s.cores := by cases p <;> rfl
@[simp] theorem framed_hod (p : Port) : (s.framed p).hod = s.hod := by cases p <;> rfl
@[simp] theorem framed_bridge (p : Port) : (s.framed p).bridge = s.bridge := by cases p <;> rfl
@[simp] theorem framed_time (p : Port) : (s.framed p).time = s.time := by cases p <;> rfl
@[simp] theorem framed_cal (p : Port) : (s.framed p).cal = s.cal := by cases p <;> rfl
@[simp] theorem framed_mon (p : Port) : (s.framed p).mon = s.mon := by cases p <;> rfl
@[simp] theorem framed_budget (p : Port) : (s.framed p).budget = s.budget := by cases p <;> rfl
@[simp] theorem framed_events (p : Port) : (s.framed p).events = s.events := by cases p <;> rfl
@[simp] theorem framed_out (p : Port) : (s.framed p).out = s.out := by cases p <;> rfl
@[simp] theorem framed_getF (p : Port) (g : Fld) :
    (s.framed p).getF g = s.getF g := by cases p <;> rfl
@[simp] theorem framed_flag (p : Port) (g : Fld) :
    (s.framed p).flag g = s.flag g := by cases p <;> rfl
@[simp] theorem framed_getSh (p : Port) (g : Fld) :
    (s.framed p).getSh g = s.getSh g := by cases p <;> rfl
@[simp] theorem framed_core (p : Port) (i : Nat) :
    (s.framed p).core i = s.core i := by cases p <;> rfl

/-! ### addSpan -/

@[simp] theorem addSpan_pending (lo hi : Nat) (c : Option Nat) (k : SpanCause) (a : Nat) (b : Option Nat) :
    (s.addSpan lo hi c k a b).pending = s.pending := rfl
@[simp] theorem addSpan_phase (lo hi : Nat) (c : Option Nat) (k : SpanCause) (a : Nat) (b : Option Nat) :
    (s.addSpan lo hi c k a b).phase = s.phase := rfl
@[simp] theorem addSpan_dev (lo hi : Nat) (c : Option Nat) (k : SpanCause) (a : Nat) (b : Option Nat) :
    (s.addSpan lo hi c k a b).dev = s.dev := rfl
@[simp] theorem addSpan_prev (lo hi : Nat) (c : Option Nat) (k : SpanCause) (a : Nat) (b : Option Nat) :
    (s.addSpan lo hi c k a b).prev = s.prev := rfl
@[simp] theorem addSpan_holdFrom (lo hi : Nat) (c : Option Nat) (k : SpanCause) (a : Nat) (b : Option Nat) :
    (s.addSpan lo hi c k a b).holdFrom = s.holdFrom := rfl
@[simp] theorem addSpan_analogWest (lo hi : Nat) (c : Option Nat) (k : SpanCause) (a : Nat) (b : Option Nat) :
    (s.addSpan lo hi c k a b).analogWest = s.analogWest := rfl
@[simp] theorem addSpan_analogEast (lo hi : Nat) (c : Option Nat) (k : SpanCause) (a : Nat) (b : Option Nat) :
    (s.addSpan lo hi c k a b).analogEast = s.analogEast := rfl
@[simp] theorem addSpan_drone (lo hi : Nat) (c : Option Nat) (k : SpanCause) (a : Nat) (b : Option Nat) :
    (s.addSpan lo hi c k a b).drone = s.drone := rfl
@[simp] theorem addSpan_fuses (lo hi : Nat) (c : Option Nat) (k : SpanCause) (a : Nat) (b : Option Nat) :
    (s.addSpan lo hi c k a b).fuses = s.fuses := rfl
@[simp] theorem addSpan_pcie (lo hi : Nat) (c : Option Nat) (k : SpanCause) (a : Nat) (b : Option Nat) :
    (s.addSpan lo hi c k a b).pcie = s.pcie := rfl
@[simp] theorem addSpan_qspi (lo hi : Nat) (c : Option Nat) (k : SpanCause) (a : Nat) (b : Option Nat) :
    (s.addSpan lo hi c k a b).qspi = s.qspi := rfl
@[simp] theorem addSpan_drawn (lo hi : Nat) (c : Option Nat) (k : SpanCause) (a : Nat) (b : Option Nat) :
    (s.addSpan lo hi c k a b).drawn = s.drawn := rfl
@[simp] theorem addSpan_lath (lo hi : Nat) (c : Option Nat) (k : SpanCause) (a : Nat) (b : Option Nat) :
    (s.addSpan lo hi c k a b).lath = s.lath := rfl
@[simp] theorem addSpan_journal (lo hi : Nat) (c : Option Nat) (k : SpanCause) (a : Nat) (b : Option Nat) :
    (s.addSpan lo hi c k a b).journal = s.journal := rfl
@[simp] theorem addSpan_returnedPart (lo hi : Nat) (c : Option Nat) (k : SpanCause) (a : Nat) (b : Option Nat) :
    (s.addSpan lo hi c k a b).returnedPart = s.returnedPart := rfl
@[simp] theorem addSpan_job (lo hi : Nat) (c : Option Nat) (k : SpanCause) (a : Nat) (b : Option Nat) :
    (s.addSpan lo hi c k a b).job = s.job := rfl
@[simp] theorem addSpan_regs (lo hi : Nat) (c : Option Nat) (k : SpanCause) (a : Nat) (b : Option Nat) :
    (s.addSpan lo hi c k a b).regs = s.regs := rfl
@[simp] theorem addSpan_shadow (lo hi : Nat) (c : Option Nat) (k : SpanCause) (a : Nat) (b : Option Nat) :
    (s.addSpan lo hi c k a b).shadow = s.shadow := rfl
@[simp] theorem addSpan_registryMem (lo hi : Nat) (c : Option Nat) (k : SpanCause) (a : Nat) (b : Option Nat) :
    (s.addSpan lo hi c k a b).registryMem = s.registryMem := rfl
@[simp] theorem addSpan_stencilMem (lo hi : Nat) (c : Option Nat) (k : SpanCause) (a : Nat) (b : Option Nat) :
    (s.addSpan lo hi c k a b).stencilMem = s.stencilMem := rfl
@[simp] theorem addSpan_captureMem (lo hi : Nat) (c : Option Nat) (k : SpanCause) (a : Nat) (b : Option Nat) :
    (s.addSpan lo hi c k a b).captureMem = s.captureMem := rfl
@[simp] theorem addSpan_spineMem (lo hi : Nat) (c : Option Nat) (k : SpanCause) (a : Nat) (b : Option Nat) :
    (s.addSpan lo hi c k a b).spineMem = s.spineMem := rfl
@[simp] theorem addSpan_faProg (lo hi : Nat) (c : Option Nat) (k : SpanCause) (a : Nat) (b : Option Nat) :
    (s.addSpan lo hi c k a b).faProg = s.faProg := rfl
@[simp] theorem addSpan_faData (lo hi : Nat) (c : Option Nat) (k : SpanCause) (a : Nat) (b : Option Nat) :
    (s.addSpan lo hi c k a b).faData = s.faData := rfl
@[simp] theorem addSpan_memint (lo hi : Nat) (c : Option Nat) (k : SpanCause) (a : Nat) (b : Option Nat) :
    (s.addSpan lo hi c k a b).memint = s.memint := rfl
@[simp] theorem addSpan_tx (lo hi : Nat) (c : Option Nat) (k : SpanCause) (a : Nat) (b : Option Nat) :
    (s.addSpan lo hi c k a b).tx = s.tx := rfl
@[simp] theorem addSpan_syn (lo hi : Nat) (c : Option Nat) (k : SpanCause) (a : Nat) (b : Option Nat) :
    (s.addSpan lo hi c k a b).syn = s.syn := rfl
@[simp] theorem addSpan_tiles (lo hi : Nat) (c : Option Nat) (k : SpanCause) (a : Nat) (b : Option Nat) :
    (s.addSpan lo hi c k a b).tiles = s.tiles := rfl
@[simp] theorem addSpan_bias (lo hi : Nat) (c : Option Nat) (k : SpanCause) (a : Nat) (b : Option Nat) :
    (s.addSpan lo hi c k a b).bias = s.bias := rfl
@[simp] theorem addSpan_aerialLow (lo hi : Nat) (c : Option Nat) (k : SpanCause) (a : Nat) (b : Option Nat) :
    (s.addSpan lo hi c k a b).aerialLow = s.aerialLow := rfl
@[simp] theorem addSpan_aerialBars (lo hi : Nat) (c : Option Nat) (k : SpanCause) (a : Nat) (b : Option Nat) :
    (s.addSpan lo hi c k a b).aerialBars = s.aerialBars := rfl
@[simp] theorem addSpan_spectral (lo hi : Nat) (c : Option Nat) (k : SpanCause) (a : Nat) (b : Option Nat) :
    (s.addSpan lo hi c k a b).spectral = s.spectral := rfl
@[simp] theorem addSpan_sched (lo hi : Nat) (c : Option Nat) (k : SpanCause) (a : Nat) (b : Option Nat) :
    (s.addSpan lo hi c k a b).sched = s.sched := rfl
@[simp] theorem addSpan_fh (lo hi : Nat) (c : Option Nat) (k : SpanCause) (a : Nat) (b : Option Nat) :
    (s.addSpan lo hi c k a b).fh = s.fh := rfl
@[simp] theorem addSpan_doze (lo hi : Nat) (c : Option Nat) (k : SpanCause) (a : Nat) (b : Option Nat) :
    (s.addSpan lo hi c k a b).doze = s.doze := rfl
@[simp] theorem addSpan_cores (lo hi : Nat) (c : Option Nat) (k : SpanCause) (a : Nat) (b : Option Nat) :
    (s.addSpan lo hi c k a b).cores = s.cores := rfl
@[simp] theorem addSpan_hod (lo hi : Nat) (c : Option Nat) (k : SpanCause) (a : Nat) (b : Option Nat) :
    (s.addSpan lo hi c k a b).hod = s.hod := rfl
@[simp] theorem addSpan_bridge (lo hi : Nat) (c : Option Nat) (k : SpanCause) (a : Nat) (b : Option Nat) :
    (s.addSpan lo hi c k a b).bridge = s.bridge := rfl
@[simp] theorem addSpan_time (lo hi : Nat) (c : Option Nat) (k : SpanCause) (a : Nat) (b : Option Nat) :
    (s.addSpan lo hi c k a b).time = s.time := rfl
@[simp] theorem addSpan_cal (lo hi : Nat) (c : Option Nat) (k : SpanCause) (a : Nat) (b : Option Nat) :
    (s.addSpan lo hi c k a b).cal = s.cal := rfl
@[simp] theorem addSpan_mon (lo hi : Nat) (c : Option Nat) (k : SpanCause) (a : Nat) (b : Option Nat) :
    (s.addSpan lo hi c k a b).mon = s.mon := rfl
@[simp] theorem addSpan_budget (lo hi : Nat) (c : Option Nat) (k : SpanCause) (a : Nat) (b : Option Nat) :
    (s.addSpan lo hi c k a b).budget = s.budget := rfl
@[simp] theorem addSpan_events (lo hi : Nat) (c : Option Nat) (k : SpanCause) (a : Nat) (b : Option Nat) :
    (s.addSpan lo hi c k a b).events = s.events := rfl
@[simp] theorem addSpan_hostQueue (lo hi : Nat) (c : Option Nat) (k : SpanCause) (a : Nat) (b : Option Nat) :
    (s.addSpan lo hi c k a b).hostQueue = s.hostQueue := rfl
@[simp] theorem addSpan_out (lo hi : Nat) (c : Option Nat) (k : SpanCause) (a : Nat) (b : Option Nat) :
    (s.addSpan lo hi c k a b).out = s.out := rfl
@[simp] theorem addSpan_getF (lo hi : Nat) (c : Option Nat) (k : SpanCause) (a : Nat) (b : Option Nat) (g : Fld) :
    (s.addSpan lo hi c k a b).getF g = s.getF g := rfl
@[simp] theorem addSpan_flag (lo hi : Nat) (c : Option Nat) (k : SpanCause) (a : Nat) (b : Option Nat) (g : Fld) :
    (s.addSpan lo hi c k a b).flag g = s.flag g := rfl
@[simp] theorem addSpan_getSh (lo hi : Nat) (c : Option Nat) (k : SpanCause) (a : Nat) (b : Option Nat) (g : Fld) :
    (s.addSpan lo hi c k a b).getSh g = s.getSh g := rfl
@[simp] theorem addSpan_core (lo hi : Nat) (c : Option Nat) (k : SpanCause) (a : Nat) (b : Option Nat) (i : Nat) :
    (s.addSpan lo hi c k a b).core i = s.core i := rfl

/-! ### setSlot -/

@[simp] theorem setSlot_pending (x k : Nat) (f : SlotState → SlotState) : (s.setSlot x k f).pending = s.pending := rfl
@[simp] theorem setSlot_phase (x k : Nat) (f : SlotState → SlotState) : (s.setSlot x k f).phase = s.phase := rfl
@[simp] theorem setSlot_dev (x k : Nat) (f : SlotState → SlotState) : (s.setSlot x k f).dev = s.dev := rfl
@[simp] theorem setSlot_prev (x k : Nat) (f : SlotState → SlotState) : (s.setSlot x k f).prev = s.prev := rfl
@[simp] theorem setSlot_holdFrom (x k : Nat) (f : SlotState → SlotState) :
    (s.setSlot x k f).holdFrom = s.holdFrom := rfl
@[simp] theorem setSlot_analogWest (x k : Nat) (f : SlotState → SlotState) :
    (s.setSlot x k f).analogWest = s.analogWest := rfl
@[simp] theorem setSlot_analogEast (x k : Nat) (f : SlotState → SlotState) :
    (s.setSlot x k f).analogEast = s.analogEast := rfl
@[simp] theorem setSlot_drone (x k : Nat) (f : SlotState → SlotState) : (s.setSlot x k f).drone = s.drone := rfl
@[simp] theorem setSlot_fuses (x k : Nat) (f : SlotState → SlotState) : (s.setSlot x k f).fuses = s.fuses := rfl
@[simp] theorem setSlot_pcie (x k : Nat) (f : SlotState → SlotState) : (s.setSlot x k f).pcie = s.pcie := rfl
@[simp] theorem setSlot_qspi (x k : Nat) (f : SlotState → SlotState) : (s.setSlot x k f).qspi = s.qspi := rfl
@[simp] theorem setSlot_drawn (x k : Nat) (f : SlotState → SlotState) : (s.setSlot x k f).drawn = s.drawn := rfl
@[simp] theorem setSlot_lath (x k : Nat) (f : SlotState → SlotState) : (s.setSlot x k f).lath = s.lath := rfl
@[simp] theorem setSlot_journal (x k : Nat) (f : SlotState → SlotState) : (s.setSlot x k f).journal = s.journal := rfl
@[simp] theorem setSlot_returnedPart (x k : Nat) (f : SlotState → SlotState) :
    (s.setSlot x k f).returnedPart = s.returnedPart := rfl
@[simp] theorem setSlot_job (x k : Nat) (f : SlotState → SlotState) : (s.setSlot x k f).job = s.job := rfl
@[simp] theorem setSlot_regs (x k : Nat) (f : SlotState → SlotState) : (s.setSlot x k f).regs = s.regs := rfl
@[simp] theorem setSlot_shadow (x k : Nat) (f : SlotState → SlotState) : (s.setSlot x k f).shadow = s.shadow := rfl
@[simp] theorem setSlot_registryMem (x k : Nat) (f : SlotState → SlotState) :
    (s.setSlot x k f).registryMem = s.registryMem := rfl
@[simp] theorem setSlot_stencilMem (x k : Nat) (f : SlotState → SlotState) :
    (s.setSlot x k f).stencilMem = s.stencilMem := rfl
@[simp] theorem setSlot_captureMem (x k : Nat) (f : SlotState → SlotState) :
    (s.setSlot x k f).captureMem = s.captureMem := rfl
@[simp] theorem setSlot_spineMem (x k : Nat) (f : SlotState → SlotState) :
    (s.setSlot x k f).spineMem = s.spineMem := rfl
@[simp] theorem setSlot_faProg (x k : Nat) (f : SlotState → SlotState) : (s.setSlot x k f).faProg = s.faProg := rfl
@[simp] theorem setSlot_faData (x k : Nat) (f : SlotState → SlotState) : (s.setSlot x k f).faData = s.faData := rfl
@[simp] theorem setSlot_memint (x k : Nat) (f : SlotState → SlotState) : (s.setSlot x k f).memint = s.memint := rfl
@[simp] theorem setSlot_rx (x k : Nat) (f : SlotState → SlotState) : (s.setSlot x k f).rx = s.rx := rfl
@[simp] theorem setSlot_tx (x k : Nat) (f : SlotState → SlotState) : (s.setSlot x k f).tx = s.tx := rfl
@[simp] theorem setSlot_syn (x k : Nat) (f : SlotState → SlotState) : (s.setSlot x k f).syn = s.syn := rfl
@[simp] theorem setSlot_tiles (x k : Nat) (f : SlotState → SlotState) : (s.setSlot x k f).tiles = s.tiles := rfl
@[simp] theorem setSlot_bias (x k : Nat) (f : SlotState → SlotState) : (s.setSlot x k f).bias = s.bias := rfl
@[simp] theorem setSlot_aerialLow (x k : Nat) (f : SlotState → SlotState) :
    (s.setSlot x k f).aerialLow = s.aerialLow := rfl
@[simp] theorem setSlot_aerialBars (x k : Nat) (f : SlotState → SlotState) :
    (s.setSlot x k f).aerialBars = s.aerialBars := rfl
@[simp] theorem setSlot_spectral (x k : Nat) (f : SlotState → SlotState) :
    (s.setSlot x k f).spectral = s.spectral := rfl
@[simp] theorem setSlot_sched (x k : Nat) (f : SlotState → SlotState) : (s.setSlot x k f).sched = s.sched := rfl
@[simp] theorem setSlot_fh (x k : Nat) (f : SlotState → SlotState) : (s.setSlot x k f).fh = s.fh := rfl
@[simp] theorem setSlot_doze (x k : Nat) (f : SlotState → SlotState) : (s.setSlot x k f).doze = s.doze := rfl
@[simp] theorem setSlot_cores (x k : Nat) (f : SlotState → SlotState) : (s.setSlot x k f).cores = s.cores := rfl
@[simp] theorem setSlot_hod (x k : Nat) (f : SlotState → SlotState) : (s.setSlot x k f).hod = s.hod := rfl
@[simp] theorem setSlot_bridge (x k : Nat) (f : SlotState → SlotState) : (s.setSlot x k f).bridge = s.bridge := rfl
@[simp] theorem setSlot_time (x k : Nat) (f : SlotState → SlotState) : (s.setSlot x k f).time = s.time := rfl
@[simp] theorem setSlot_cal (x k : Nat) (f : SlotState → SlotState) : (s.setSlot x k f).cal = s.cal := rfl
@[simp] theorem setSlot_budget (x k : Nat) (f : SlotState → SlotState) : (s.setSlot x k f).budget = s.budget := rfl
@[simp] theorem setSlot_events (x k : Nat) (f : SlotState → SlotState) : (s.setSlot x k f).events = s.events := rfl
@[simp] theorem setSlot_hostQueue (x k : Nat) (f : SlotState → SlotState) :
    (s.setSlot x k f).hostQueue = s.hostQueue := rfl
@[simp] theorem setSlot_out (x k : Nat) (f : SlotState → SlotState) : (s.setSlot x k f).out = s.out := rfl
@[simp] theorem setSlot_getF (x k : Nat) (f : SlotState → SlotState) (g : Fld) :
    (s.setSlot x k f).getF g = s.getF g := rfl
@[simp] theorem setSlot_flag (x k : Nat) (f : SlotState → SlotState) (g : Fld) :
    (s.setSlot x k f).flag g = s.flag g := rfl
@[simp] theorem setSlot_getSh (x k : Nat) (f : SlotState → SlotState) (g : Fld) :
    (s.setSlot x k f).getSh g = s.getSh g := rfl
@[simp] theorem setSlot_core (x k : Nat) (f : SlotState → SlotState) (i : Nat) :
    (s.setSlot x k f).core i = s.core i := rfl

/-! ### setSeq -/

@[simp] theorem setSeq_pending (x : Nat) (f : SeqState → SeqState) : (s.setSeq x f).pending = s.pending := rfl
@[simp] theorem setSeq_phase (x : Nat) (f : SeqState → SeqState) : (s.setSeq x f).phase = s.phase := rfl
@[simp] theorem setSeq_dev (x : Nat) (f : SeqState → SeqState) : (s.setSeq x f).dev = s.dev := rfl
@[simp] theorem setSeq_prev (x : Nat) (f : SeqState → SeqState) : (s.setSeq x f).prev = s.prev := rfl
@[simp] theorem setSeq_holdFrom (x : Nat) (f : SeqState → SeqState) : (s.setSeq x f).holdFrom = s.holdFrom := rfl
@[simp] theorem setSeq_analogWest (x : Nat) (f : SeqState → SeqState) :
    (s.setSeq x f).analogWest = s.analogWest := rfl
@[simp] theorem setSeq_analogEast (x : Nat) (f : SeqState → SeqState) :
    (s.setSeq x f).analogEast = s.analogEast := rfl
@[simp] theorem setSeq_drone (x : Nat) (f : SeqState → SeqState) : (s.setSeq x f).drone = s.drone := rfl
@[simp] theorem setSeq_fuses (x : Nat) (f : SeqState → SeqState) : (s.setSeq x f).fuses = s.fuses := rfl
@[simp] theorem setSeq_pcie (x : Nat) (f : SeqState → SeqState) : (s.setSeq x f).pcie = s.pcie := rfl
@[simp] theorem setSeq_qspi (x : Nat) (f : SeqState → SeqState) : (s.setSeq x f).qspi = s.qspi := rfl
@[simp] theorem setSeq_drawn (x : Nat) (f : SeqState → SeqState) : (s.setSeq x f).drawn = s.drawn := rfl
@[simp] theorem setSeq_lath (x : Nat) (f : SeqState → SeqState) : (s.setSeq x f).lath = s.lath := rfl
@[simp] theorem setSeq_journal (x : Nat) (f : SeqState → SeqState) : (s.setSeq x f).journal = s.journal := rfl
@[simp] theorem setSeq_returnedPart (x : Nat) (f : SeqState → SeqState) :
    (s.setSeq x f).returnedPart = s.returnedPart := rfl
@[simp] theorem setSeq_job (x : Nat) (f : SeqState → SeqState) : (s.setSeq x f).job = s.job := rfl
@[simp] theorem setSeq_regs (x : Nat) (f : SeqState → SeqState) : (s.setSeq x f).regs = s.regs := rfl
@[simp] theorem setSeq_shadow (x : Nat) (f : SeqState → SeqState) : (s.setSeq x f).shadow = s.shadow := rfl
@[simp] theorem setSeq_registryMem (x : Nat) (f : SeqState → SeqState) :
    (s.setSeq x f).registryMem = s.registryMem := rfl
@[simp] theorem setSeq_stencilMem (x : Nat) (f : SeqState → SeqState) :
    (s.setSeq x f).stencilMem = s.stencilMem := rfl
@[simp] theorem setSeq_captureMem (x : Nat) (f : SeqState → SeqState) :
    (s.setSeq x f).captureMem = s.captureMem := rfl
@[simp] theorem setSeq_spineMem (x : Nat) (f : SeqState → SeqState) : (s.setSeq x f).spineMem = s.spineMem := rfl
@[simp] theorem setSeq_faProg (x : Nat) (f : SeqState → SeqState) : (s.setSeq x f).faProg = s.faProg := rfl
@[simp] theorem setSeq_faData (x : Nat) (f : SeqState → SeqState) : (s.setSeq x f).faData = s.faData := rfl
@[simp] theorem setSeq_memint (x : Nat) (f : SeqState → SeqState) : (s.setSeq x f).memint = s.memint := rfl
@[simp] theorem setSeq_rx (x : Nat) (f : SeqState → SeqState) : (s.setSeq x f).rx = s.rx := rfl
@[simp] theorem setSeq_tx (x : Nat) (f : SeqState → SeqState) : (s.setSeq x f).tx = s.tx := rfl
@[simp] theorem setSeq_syn (x : Nat) (f : SeqState → SeqState) : (s.setSeq x f).syn = s.syn := rfl
@[simp] theorem setSeq_tiles (x : Nat) (f : SeqState → SeqState) : (s.setSeq x f).tiles = s.tiles := rfl
@[simp] theorem setSeq_bias (x : Nat) (f : SeqState → SeqState) : (s.setSeq x f).bias = s.bias := rfl
@[simp] theorem setSeq_aerialLow (x : Nat) (f : SeqState → SeqState) : (s.setSeq x f).aerialLow = s.aerialLow := rfl
@[simp] theorem setSeq_aerialBars (x : Nat) (f : SeqState → SeqState) :
    (s.setSeq x f).aerialBars = s.aerialBars := rfl
@[simp] theorem setSeq_spectral (x : Nat) (f : SeqState → SeqState) : (s.setSeq x f).spectral = s.spectral := rfl
@[simp] theorem setSeq_sched (x : Nat) (f : SeqState → SeqState) : (s.setSeq x f).sched = s.sched := rfl
@[simp] theorem setSeq_fh (x : Nat) (f : SeqState → SeqState) : (s.setSeq x f).fh = s.fh := rfl
@[simp] theorem setSeq_doze (x : Nat) (f : SeqState → SeqState) : (s.setSeq x f).doze = s.doze := rfl
@[simp] theorem setSeq_cores (x : Nat) (f : SeqState → SeqState) : (s.setSeq x f).cores = s.cores := rfl
@[simp] theorem setSeq_hod (x : Nat) (f : SeqState → SeqState) : (s.setSeq x f).hod = s.hod := rfl
@[simp] theorem setSeq_bridge (x : Nat) (f : SeqState → SeqState) : (s.setSeq x f).bridge = s.bridge := rfl
@[simp] theorem setSeq_time (x : Nat) (f : SeqState → SeqState) : (s.setSeq x f).time = s.time := rfl
@[simp] theorem setSeq_cal (x : Nat) (f : SeqState → SeqState) : (s.setSeq x f).cal = s.cal := rfl
@[simp] theorem setSeq_budget (x : Nat) (f : SeqState → SeqState) : (s.setSeq x f).budget = s.budget := rfl
@[simp] theorem setSeq_events (x : Nat) (f : SeqState → SeqState) : (s.setSeq x f).events = s.events := rfl
@[simp] theorem setSeq_hostQueue (x : Nat) (f : SeqState → SeqState) : (s.setSeq x f).hostQueue = s.hostQueue := rfl
@[simp] theorem setSeq_out (x : Nat) (f : SeqState → SeqState) : (s.setSeq x f).out = s.out := rfl
@[simp] theorem setSeq_getF (x : Nat) (f : SeqState → SeqState) (g : Fld) :
    (s.setSeq x f).getF g = s.getF g := rfl
@[simp] theorem setSeq_flag (x : Nat) (f : SeqState → SeqState) (g : Fld) :
    (s.setSeq x f).flag g = s.flag g := rfl
@[simp] theorem setSeq_getSh (x : Nat) (f : SeqState → SeqState) (g : Fld) :
    (s.setSeq x f).getSh g = s.getSh g := rfl
@[simp] theorem setSeq_core (x : Nat) (f : SeqState → SeqState) (i : Nat) :
    (s.setSeq x f).core i = s.core i := rfl

/-! ### setCalState -/

@[simp] theorem setCalState_pending (f : CalState → CalState) : (s.setCalState f).pending = s.pending := rfl
@[simp] theorem setCalState_phase (f : CalState → CalState) : (s.setCalState f).phase = s.phase := rfl
@[simp] theorem setCalState_dev (f : CalState → CalState) : (s.setCalState f).dev = s.dev := rfl
@[simp] theorem setCalState_prev (f : CalState → CalState) : (s.setCalState f).prev = s.prev := rfl
@[simp] theorem setCalState_holdFrom (f : CalState → CalState) : (s.setCalState f).holdFrom = s.holdFrom := rfl
@[simp] theorem setCalState_analogWest (f : CalState → CalState) : (s.setCalState f).analogWest = s.analogWest := rfl
@[simp] theorem setCalState_analogEast (f : CalState → CalState) : (s.setCalState f).analogEast = s.analogEast := rfl
@[simp] theorem setCalState_drone (f : CalState → CalState) : (s.setCalState f).drone = s.drone := rfl
@[simp] theorem setCalState_fuses (f : CalState → CalState) : (s.setCalState f).fuses = s.fuses := rfl
@[simp] theorem setCalState_pcie (f : CalState → CalState) : (s.setCalState f).pcie = s.pcie := rfl
@[simp] theorem setCalState_qspi (f : CalState → CalState) : (s.setCalState f).qspi = s.qspi := rfl
@[simp] theorem setCalState_drawn (f : CalState → CalState) : (s.setCalState f).drawn = s.drawn := rfl
@[simp] theorem setCalState_lath (f : CalState → CalState) : (s.setCalState f).lath = s.lath := rfl
@[simp] theorem setCalState_journal (f : CalState → CalState) : (s.setCalState f).journal = s.journal := rfl
@[simp] theorem setCalState_returnedPart (f : CalState → CalState) :
    (s.setCalState f).returnedPart = s.returnedPart := rfl
@[simp] theorem setCalState_job (f : CalState → CalState) : (s.setCalState f).job = s.job := rfl
@[simp] theorem setCalState_regs (f : CalState → CalState) : (s.setCalState f).regs = s.regs := rfl
@[simp] theorem setCalState_shadow (f : CalState → CalState) : (s.setCalState f).shadow = s.shadow := rfl
@[simp] theorem setCalState_registryMem (f : CalState → CalState) :
    (s.setCalState f).registryMem = s.registryMem := rfl
@[simp] theorem setCalState_stencilMem (f : CalState → CalState) : (s.setCalState f).stencilMem = s.stencilMem := rfl
@[simp] theorem setCalState_captureMem (f : CalState → CalState) : (s.setCalState f).captureMem = s.captureMem := rfl
@[simp] theorem setCalState_spineMem (f : CalState → CalState) : (s.setCalState f).spineMem = s.spineMem := rfl
@[simp] theorem setCalState_faProg (f : CalState → CalState) : (s.setCalState f).faProg = s.faProg := rfl
@[simp] theorem setCalState_faData (f : CalState → CalState) : (s.setCalState f).faData = s.faData := rfl
@[simp] theorem setCalState_memint (f : CalState → CalState) : (s.setCalState f).memint = s.memint := rfl
@[simp] theorem setCalState_rx (f : CalState → CalState) : (s.setCalState f).rx = s.rx := rfl
@[simp] theorem setCalState_tx (f : CalState → CalState) : (s.setCalState f).tx = s.tx := rfl
@[simp] theorem setCalState_syn (f : CalState → CalState) : (s.setCalState f).syn = s.syn := rfl
@[simp] theorem setCalState_tiles (f : CalState → CalState) : (s.setCalState f).tiles = s.tiles := rfl
@[simp] theorem setCalState_bias (f : CalState → CalState) : (s.setCalState f).bias = s.bias := rfl
@[simp] theorem setCalState_aerialLow (f : CalState → CalState) : (s.setCalState f).aerialLow = s.aerialLow := rfl
@[simp] theorem setCalState_aerialBars (f : CalState → CalState) : (s.setCalState f).aerialBars = s.aerialBars := rfl
@[simp] theorem setCalState_spectral (f : CalState → CalState) : (s.setCalState f).spectral = s.spectral := rfl
@[simp] theorem setCalState_sched (f : CalState → CalState) : (s.setCalState f).sched = s.sched := rfl
@[simp] theorem setCalState_fh (f : CalState → CalState) : (s.setCalState f).fh = s.fh := rfl
@[simp] theorem setCalState_doze (f : CalState → CalState) : (s.setCalState f).doze = s.doze := rfl
@[simp] theorem setCalState_cores (f : CalState → CalState) : (s.setCalState f).cores = s.cores := rfl
@[simp] theorem setCalState_hod (f : CalState → CalState) : (s.setCalState f).hod = s.hod := rfl
@[simp] theorem setCalState_bridge (f : CalState → CalState) : (s.setCalState f).bridge = s.bridge := rfl
@[simp] theorem setCalState_time (f : CalState → CalState) : (s.setCalState f).time = s.time := rfl
@[simp] theorem setCalState_mon (f : CalState → CalState) : (s.setCalState f).mon = s.mon := rfl
@[simp] theorem setCalState_budget (f : CalState → CalState) : (s.setCalState f).budget = s.budget := rfl
@[simp] theorem setCalState_events (f : CalState → CalState) : (s.setCalState f).events = s.events := rfl
@[simp] theorem setCalState_hostQueue (f : CalState → CalState) : (s.setCalState f).hostQueue = s.hostQueue := rfl
@[simp] theorem setCalState_out (f : CalState → CalState) : (s.setCalState f).out = s.out := rfl
@[simp] theorem setCalState_getF (f : CalState → CalState) (g : Fld) :
    (s.setCalState f).getF g = s.getF g := rfl
@[simp] theorem setCalState_flag (f : CalState → CalState) (g : Fld) :
    (s.setCalState f).flag g = s.flag g := rfl
@[simp] theorem setCalState_getSh (f : CalState → CalState) (g : Fld) :
    (s.setCalState f).getSh g = s.getSh g := rfl
@[simp] theorem setCalState_core (f : CalState → CalState) (i : Nat) :
    (s.setCalState f).core i = s.core i := rfl

end Sys2Proof.Laws
end

