-- ==== Sys2Proof/Laws/Fields.lean ====
section
/-! SUPPORT. Reading a register field after setting one, and what raising an event and completing a command change. -/

namespace Sys2Proof.Laws

open Sys2Proof.Machine

variable (s : State)

/-- A field reads as it was set, within its width. -/
@[simp] theorem getF_setF_same (f : Fld) (v : Nat) : (s.setF f v).getF f = v % 2 ^ f.w := by
  simp [State.getF, State.setF]

/-- Setting a field leaves the others. -/
theorem getF_setF_ne {f g : Fld} (h : g.key ≠ f.key) (v : Nat) : (s.setF f v).getF g = s.getF g := by
  simp [State.getF, State.setF, mapGet_mapSet_ne _ _ _ h]

/-- A shadow copy reads as it was set. -/
@[simp] theorem getSh_setSh_same (f : Fld) (v : Nat) : (s.setSh f v).getSh f = v % 2 ^ f.w := by
  simp [State.getSh, State.setSh]

/-- Setting a shadow copy leaves the others. -/
theorem getSh_setSh_ne {f g : Fld} (h : g.key ≠ f.key) (v : Nat) : (s.setSh f v).getSh g = s.getSh g := by
  simp [State.getSh, State.setSh, mapGet_mapSet_ne _ _ _ h]

/-- A one-bit field reads as it was set. -/
@[simp] theorem flag_setFlag_same {f : Fld} (h : 0 < f.w) (b : Bool) : (s.setFlag f b).flag f = b := by
  have : 2 ≤ 2 ^ f.w := by
    calc 2 = 2 ^ 1 := rfl
      _ ≤ 2 ^ f.w := Nat.pow_le_pow_right (by decide) h
  cases b
  · simp [State.flag, State.setFlag, bit]
  · have h1 : 1 % 2 ^ f.w = 1 := Nat.mod_eq_of_lt (by omega)
    simp [State.flag, State.setFlag, bit, h1]

/-- What a thing done for every element of a list leaves alone, it leaves alone. -/
theorem each_frame {α β : Type} (g : State → β) (f : State → α → State) (h : ∀ s x, g (f s x) = g s) (l : List α) :
    ∀ s : State, g (s.each l f) = g s := by
  induction l with
  | nil => intro s; rfl
  | cons x t ih => intro s; exact (ih (f s x)).trans (h s x)

/-- Raising an event changes only registers and the list of events: any other part of the state stays. -/
theorem raise_frame {β : Type} (g : State → β) (hr : ∀ (s : State) f v, g (s.setF f v) = g s)
    (he : ∀ (s : State) e, g { s with events := e } = g s) (n : Nat) : g (s.raise n) = g s := by
  simp only [State.raise]
  rw [he]
  split
  · rfl
  · exact hr _ _ _

/-- Raising an event leaves every field but its STATUS word. -/
theorem raise_getF {g : Fld} (n : Nat) (h : g.key ≠ (Reg.evStatus (n / 32)).key) : (s.raise n).getF g = s.getF g := by
  simp only [State.raise]
  split
  · rfl
  · exact getF_setF_ne s h _

/-- After an event is raised its STATUS bit is set (R420). -/
theorem raise_status (n : Nat) : testBit ((s.raise n).getF (Reg.evStatus (n / 32))) (n % 32) = true := by
  simp only [State.raise]
  split
  · assumption
  · rename_i h
    show testBit ((s.setF (Reg.evStatus (n / 32)) _).getF (Reg.evStatus (n / 32))) (n % 32) = true
    rw [getF_setF_same]
    have hw : (Reg.evStatus (n / 32)).w = 32 := rfl
    have hk : n % 32 < 32 := Nat.mod_lt _ (by decide)
    rw [hw]
    generalize s.getF (Reg.evStatus (n / 32)) = v at h ⊢
    generalize n % 32 = k at h hk ⊢
    have hb : v.testBit k = false := by
      simp only [testBit, beq_iff_eq] at h
      rw [Nat.testBit_eq_decide_div_mod_eq]
      simpa using h
    have : ((v + 2 ^ k) % 2 ^ 32).testBit k = true := by
      rw [Nat.testBit_mod_two_pow]
      simp [hk, Nat.add_comm v, Nat.testBit_two_pow_add_eq, hb]
    rw [Nat.testBit_eq_decide_div_mod_eq] at this
    simpa [testBit] using this

end Sys2Proof.Laws
end

