-- ==== Sys2Proof/Laws/Registers.lean ====
section
/-! SUPPORT. What the updates of registers, events and the command status leave of every other part of the state. -/

namespace Sys2Proof.Laws

open Sys2Proof.Machine

variable (s : State)

/-! ### Each update as a record update -/

theorem raise_eq (n : Nat) : s.raise n = { s with regs := (s.raise n).regs, events := (s.raise n).events } := by
  simp only [State.raise]
  split <;> rfl

theorem each_setF_eq {α : Type} (f : α → Fld) (v : α → Nat) (l : List α) :
    ∀ s : State, s.each l (fun s x => s.setF (f x) (v x)) =
      { s with regs := (s.each l fun s x => s.setF (f x) (v x)).regs } := by
  induction l with
  | nil => intro s; rfl
  | cons x t ih =>
    intro s
    have h := ih (s.setF (f x) (v x))
    simp only [State.each, List.foldl_cons] at h ⊢
    rw [h]
    rfl

theorem results_eq (l : List Nat) : s.results l = { s with regs := (s.results l).regs } :=
  each_setF_eq (fun p : Nat × Nat => Reg.arg p.1) (fun p => p.2) _ s

theorem complete_eq (c : CmdCode) :
    s.complete c = { s with job := none, regs := (s.complete c).regs, events := (s.complete c).events } := by
  simp only [State.complete]
  rw [raise_eq]
  rfl

theorem exhaust_eq (c : Nat) :
    s.exhaust c = { s with regs := (s.exhaust c).regs, events := (s.exhaust c).events,
                           budget := (s.exhaust c).budget } := by
  simp only [State.exhaust]
  generalize Reg.exhausted = f
  generalize Reg.exhaustedNow = g
  repeat' split
  all_goals first | rfl | (rw [raise_eq]; done) | (rw [raise_eq]; rfl)

/-! ### setFlag -/

@[simp] theorem setFlag_pending (f : Fld) (b : Bool) : (s.setFlag f b).pending = s.pending := by
  simp only [State.setFlag, setF_pending]
@[simp] theorem setFlag_phase (f : Fld) (b : Bool) : (s.setFlag f b).phase = s.phase := by
  simp only [State.setFlag, setF_phase]
@[simp] theorem setFlag_dev (f : Fld) (b : Bool) : (s.setFlag f b).dev = s.dev := by
  simp only [State.setFlag, setF_dev]
@[simp] theorem setFlag_prev (f : Fld) (b : Bool) : (s.setFlag f b).prev = s.prev := by
  simp only [State.setFlag, setF_prev]
@[simp] theorem setFlag_holdFrom (f : Fld) (b : Bool) : (s.setFlag f b).holdFrom = s.holdFrom := by
  simp only [State.setFlag, setF_holdFrom]
@[simp] theorem setFlag_analogWest (f : Fld) (b : Bool) : (s.setFlag f b).analogWest = s.analogWest := by
  simp only [State.setFlag, setF_analogWest]
@[simp] theorem setFlag_analogEast (f : Fld) (b : Bool) : (s.setFlag f b).analogEast = s.analogEast := by
  simp only [State.setFlag, setF_analogEast]
@[simp] theorem setFlag_drone (f : Fld) (b : Bool) : (s.setFlag f b).drone = s.drone := by
  simp only [State.setFlag, setF_drone]
@[simp] theorem setFlag_fuses (f : Fld) (b : Bool) : (s.setFlag f b).fuses = s.fuses := by
  simp only [State.setFlag, setF_fuses]
@[simp] theorem setFlag_pcie (f : Fld) (b : Bool) : (s.setFlag f b).pcie = s.pcie := by
  simp only [State.setFlag, setF_pcie]
@[simp] theorem setFlag_qspi (f : Fld) (b : Bool) : (s.setFlag f b).qspi = s.qspi := by
  simp only [State.setFlag, setF_qspi]
@[simp] theorem setFlag_drawn (f : Fld) (b : Bool) : (s.setFlag f b).drawn = s.drawn := by
  simp only [State.setFlag, setF_drawn]
@[simp] theorem setFlag_lath (f : Fld) (b : Bool) : (s.setFlag f b).lath = s.lath := by
  simp only [State.setFlag, setF_lath]
@[simp] theorem setFlag_journal (f : Fld) (b : Bool) : (s.setFlag f b).journal = s.journal := by
  simp only [State.setFlag, setF_journal]
@[simp] theorem setFlag_returnedPart (f : Fld) (b : Bool) :
    (s.setFlag f b).returnedPart = s.returnedPart := by
  simp only [State.setFlag, setF_returnedPart]
@[simp] theorem setFlag_job (f : Fld) (b : Bool) : (s.setFlag f b).job = s.job := by
  simp only [State.setFlag, setF_job]
@[simp] theorem setFlag_shadow (f : Fld) (b : Bool) : (s.setFlag f b).shadow = s.shadow := by
  simp only [State.setFlag, setF_shadow]
@[simp] theorem setFlag_registryMem (f : Fld) (b : Bool) : (s.setFlag f b).registryMem = s.registryMem := by
  simp only [State.setFlag, setF_registryMem]
@[simp] theorem setFlag_stencilMem (f : Fld) (b : Bool) : (s.setFlag f b).stencilMem = s.stencilMem := by
  simp only [State.setFlag, setF_stencilMem]
@[simp] theorem setFlag_captureMem (f : Fld) (b : Bool) : (s.setFlag f b).captureMem = s.captureMem := by
  simp only [State.setFlag, setF_captureMem]
@[simp] theorem setFlag_spineMem (f : Fld) (b : Bool) : (s.setFlag f b).spineMem = s.spineMem := by
  simp only [State.setFlag, setF_spineMem]
@[simp] theorem setFlag_faProg (f : Fld) (b : Bool) : (s.setFlag f b).faProg = s.faProg := by
  simp only [State.setFlag, setF_faProg]
@[simp] theorem setFlag_faData (f : Fld) (b : Bool) : (s.setFlag f b).faData = s.faData := by
  simp only [State.setFlag, setF_faData]
@[simp] theorem setFlag_memint (f : Fld) (b : Bool) : (s.setFlag f b).memint = s.memint := by
  simp only [State.setFlag, setF_memint]
@[simp] theorem setFlag_rx (f : Fld) (b : Bool) : (s.setFlag f b).rx = s.rx := by
  simp only [State.setFlag, setF_rx]
@[simp] theorem setFlag_tx (f : Fld) (b : Bool) : (s.setFlag f b).tx = s.tx := by
  simp only [State.setFlag, setF_tx]
@[simp] theorem setFlag_syn (f : Fld) (b : Bool) : (s.setFlag f b).syn = s.syn := by
  simp only [State.setFlag, setF_syn]
@[simp] theorem setFlag_tiles (f : Fld) (b : Bool) : (s.setFlag f b).tiles = s.tiles := by
  simp only [State.setFlag, setF_tiles]
@[simp] theorem setFlag_bias (f : Fld) (b : Bool) : (s.setFlag f b).bias = s.bias := by
  simp only [State.setFlag, setF_bias]
@[simp] theorem setFlag_aerialLow (f : Fld) (b : Bool) : (s.setFlag f b).aerialLow = s.aerialLow := by
  simp only [State.setFlag, setF_aerialLow]
@[simp] theorem setFlag_aerialBars (f : Fld) (b : Bool) : (s.setFlag f b).aerialBars = s.aerialBars := by
  simp only [State.setFlag, setF_aerialBars]
@[simp] theorem setFlag_spectral (f : Fld) (b : Bool) : (s.setFlag f b).spectral = s.spectral := by
  simp only [State.setFlag, setF_spectral]
@[simp] theorem setFlag_sched (f : Fld) (b : Bool) : (s.setFlag f b).sched = s.sched := by
  simp only [State.setFlag, setF_sched]
@[simp] theorem setFlag_fh (f : Fld) (b : Bool) : (s.setFlag f b).fh = s.fh := by
  simp only [State.setFlag, setF_fh]
@[simp] theorem setFlag_doze (f : Fld) (b : Bool) : (s.setFlag f b).doze = s.doze := by
  simp only [State.setFlag, setF_doze]
@[simp] theorem setFlag_cores (f : Fld) (b : Bool) : (s.setFlag f b).cores = s.cores := by
  simp only [State.setFlag, setF_cores]
@[simp] theorem setFlag_hod (f : Fld) (b : Bool) : (s.setFlag f b).hod = s.hod := by
  simp only [State.setFlag, setF_hod]
@[simp] theorem setFlag_bridge (f : Fld) (b : Bool) : (s.setFlag f b).bridge = s.bridge := by
  simp only [State.setFlag, setF_bridge]
@[simp] theorem setFlag_time (f : Fld) (b : Bool) : (s.setFlag f b).time = s.time := by
  simp only [State.setFlag, setF_time]
@[simp] theorem setFlag_cal (f : Fld) (b : Bool) : (s.setFlag f b).cal = s.cal := by
  simp only [State.setFlag, setF_cal]
@[simp] theorem setFlag_mon (f : Fld) (b : Bool) : (s.setFlag f b).mon = s.mon := by
  simp only [State.setFlag, setF_mon]
@[simp] theorem setFlag_budget (f : Fld) (b : Bool) : (s.setFlag f b).budget = s.budget := by
  simp only [State.setFlag, setF_budget]
@[simp] theorem setFlag_events (f : Fld) (b : Bool) : (s.setFlag f b).events = s.events := by
  simp only [State.setFlag, setF_events]
@[simp] theorem setFlag_hostQueue (f : Fld) (b : Bool) : (s.setFlag f b).hostQueue = s.hostQueue := by
  simp only [State.setFlag, setF_hostQueue]
@[simp] theorem setFlag_out (f : Fld) (b : Bool) : (s.setFlag f b).out = s.out := by
  simp only [State.setFlag, setF_out]
@[simp] theorem setFlag_core (f : Fld) (b : Bool) (i : Nat) : (s.setFlag f b).core i = s.core i := by
  simp only [State.core, setFlag_cores]
@[simp] theorem setFlag_session (f : Fld) (b : Bool) (q : Port) : (s.setFlag f b).session q = s.session q := by
  cases q <;> simp only [State.session, setFlag_pcie, setFlag_qspi]
@[simp] theorem setFlag_mem (f : Fld) (b : Bool) (m : MemId) : (s.setFlag f b).mem m = s.mem m := by
  cases m <;> simp only [State.mem, setFlag_registryMem, setFlag_stencilMem, setFlag_captureMem, setFlag_spineMem, setFlag_faProg, setFlag_faData]

/-! ### addWrap -/

@[simp] theorem addWrap_pending (f : Fld) (n : Nat) : (s.addWrap f n).pending = s.pending := by
  simp only [State.addWrap, setF_pending]
@[simp] theorem addWrap_phase (f : Fld) (n : Nat) : (s.addWrap f n).phase = s.phase := by
  simp only [State.addWrap, setF_phase]
@[simp] theorem addWrap_dev (f : Fld) (n : Nat) : (s.addWrap f n).dev = s.dev := by
  simp only [State.addWrap, setF_dev]
@[simp] theorem addWrap_prev (f : Fld) (n : Nat) : (s.addWrap f n).prev = s.prev := by
  simp only [State.addWrap, setF_prev]
@[simp] theorem addWrap_holdFrom (f : Fld) (n : Nat) : (s.addWrap f n).holdFrom = s.holdFrom := by
  simp only [State.addWrap, setF_holdFrom]
@[simp] theorem addWrap_analogWest (f : Fld) (n : Nat) : (s.addWrap f n).analogWest = s.analogWest := by
  simp only [State.addWrap, setF_analogWest]
@[simp] theorem addWrap_analogEast (f : Fld) (n : Nat) : (s.addWrap f n).analogEast = s.analogEast := by
  simp only [State.addWrap, setF_analogEast]
@[simp] theorem addWrap_drone (f : Fld) (n : Nat) : (s.addWrap f n).drone = s.drone := by
  simp only [State.addWrap, setF_drone]
@[simp] theorem addWrap_fuses (f : Fld) (n : Nat) : (s.addWrap f n).fuses = s.fuses := by
  simp only [State.addWrap, setF_fuses]
@[simp] theorem addWrap_pcie (f : Fld) (n : Nat) : (s.addWrap f n).pcie = s.pcie := by
  simp only [State.addWrap, setF_pcie]
@[simp] theorem addWrap_qspi (f : Fld) (n : Nat) : (s.addWrap f n).qspi = s.qspi := by
  simp only [State.addWrap, setF_qspi]
@[simp] theorem addWrap_drawn (f : Fld) (n : Nat) : (s.addWrap f n).drawn = s.drawn := by
  simp only [State.addWrap, setF_drawn]
@[simp] theorem addWrap_lath (f : Fld) (n : Nat) : (s.addWrap f n).lath = s.lath := by
  simp only [State.addWrap, setF_lath]
@[simp] theorem addWrap_journal (f : Fld) (n : Nat) : (s.addWrap f n).journal = s.journal := by
  simp only [State.addWrap, setF_journal]
@[simp] theorem addWrap_returnedPart (f : Fld) (n : Nat) : (s.addWrap f n).returnedPart = s.returnedPart := by
  simp only [State.addWrap, setF_returnedPart]
@[simp] theorem addWrap_job (f : Fld) (n : Nat) : (s.addWrap f n).job = s.job := by
  simp only [State.addWrap, setF_job]
@[simp] theorem addWrap_shadow (f : Fld) (n : Nat) : (s.addWrap f n).shadow = s.shadow := by
  simp only [State.addWrap, setF_shadow]
@[simp] theorem addWrap_registryMem (f : Fld) (n : Nat) : (s.addWrap f n).registryMem = s.registryMem := by
  simp only [State.addWrap, setF_registryMem]
@[simp] theorem addWrap_stencilMem (f : Fld) (n : Nat) : (s.addWrap f n).stencilMem = s.stencilMem := by
  simp only [State.addWrap, setF_stencilMem]
@[simp] theorem addWrap_captureMem (f : Fld) (n : Nat) : (s.addWrap f n).captureMem = s.captureMem := by
  simp only [State.addWrap, setF_captureMem]
@[simp] theorem addWrap_spineMem (f : Fld) (n : Nat) : (s.addWrap f n).spineMem = s.spineMem := by
  simp only [State.addWrap, setF_spineMem]
@[simp] theorem addWrap_faProg (f : Fld) (n : Nat) : (s.addWrap f n).faProg = s.faProg := by
  simp only [State.addWrap, setF_faProg]
@[simp] theorem addWrap_faData (f : Fld) (n : Nat) : (s.addWrap f n).faData = s.faData := by
  simp only [State.addWrap, setF_faData]
@[simp] theorem addWrap_memint (f : Fld) (n : Nat) : (s.addWrap f n).memint = s.memint := by
  simp only [State.addWrap, setF_memint]
@[simp] theorem addWrap_rx (f : Fld) (n : Nat) : (s.addWrap f n).rx = s.rx := by
  simp only [State.addWrap, setF_rx]
@[simp] theorem addWrap_tx (f : Fld) (n : Nat) : (s.addWrap f n).tx = s.tx := by
  simp only [State.addWrap, setF_tx]
@[simp] theorem addWrap_syn (f : Fld) (n : Nat) : (s.addWrap f n).syn = s.syn := by
  simp only [State.addWrap, setF_syn]
@[simp] theorem addWrap_tiles (f : Fld) (n : Nat) : (s.addWrap f n).tiles = s.tiles := by
  simp only [State.addWrap, setF_tiles]
@[simp] theorem addWrap_bias (f : Fld) (n : Nat) : (s.addWrap f n).bias = s.bias := by
  simp only [State.addWrap, setF_bias]
@[simp] theorem addWrap_aerialLow (f : Fld) (n : Nat) : (s.addWrap f n).aerialLow = s.aerialLow := by
  simp only [State.addWrap, setF_aerialLow]
@[simp] theorem addWrap_aerialBars (f : Fld) (n : Nat) : (s.addWrap f n).aerialBars = s.aerialBars := by
  simp only [State.addWrap, setF_aerialBars]
@[simp] theorem addWrap_spectral (f : Fld) (n : Nat) : (s.addWrap f n).spectral = s.spectral := by
  simp only [State.addWrap, setF_spectral]
@[simp] theorem addWrap_sched (f : Fld) (n : Nat) : (s.addWrap f n).sched = s.sched := by
  simp only [State.addWrap, setF_sched]
@[simp] theorem addWrap_fh (f : Fld) (n : Nat) : (s.addWrap f n).fh = s.fh := by
  simp only [State.addWrap, setF_fh]
@[simp] theorem addWrap_doze (f : Fld) (n : Nat) : (s.addWrap f n).doze = s.doze := by
  simp only [State.addWrap, setF_doze]
@[simp] theorem addWrap_cores (f : Fld) (n : Nat) : (s.addWrap f n).cores = s.cores := by
  simp only [State.addWrap, setF_cores]
@[simp] theorem addWrap_hod (f : Fld) (n : Nat) : (s.addWrap f n).hod = s.hod := by
  simp only [State.addWrap, setF_hod]
@[simp] theorem addWrap_bridge (f : Fld) (n : Nat) : (s.addWrap f n).bridge = s.bridge := by
  simp only [State.addWrap, setF_bridge]
@[simp] theorem addWrap_time (f : Fld) (n : Nat) : (s.addWrap f n).time = s.time := by
  simp only [State.addWrap, setF_time]
@[simp] theorem addWrap_cal (f : Fld) (n : Nat) : (s.addWrap f n).cal = s.cal := by
  simp only [State.addWrap, setF_cal]
@[simp] theorem addWrap_mon (f : Fld) (n : Nat) : (s.addWrap f n).mon = s.mon := by
  simp only [State.addWrap, setF_mon]
@[simp] theorem addWrap_budget (f : Fld) (n : Nat) : (s.addWrap f n).budget = s.budget := by
  simp only [State.addWrap, setF_budget]
@[simp] theorem addWrap_events (f : Fld) (n : Nat) : (s.addWrap f n).events = s.events := by
  simp only [State.addWrap, setF_events]
@[simp] theorem addWrap_hostQueue (f : Fld) (n : Nat) : (s.addWrap f n).hostQueue = s.hostQueue := by
  simp only [State.addWrap, setF_hostQueue]
@[simp] theorem addWrap_out (f : Fld) (n : Nat) : (s.addWrap f n).out = s.out := by
  simp only [State.addWrap, setF_out]
@[simp] theorem addWrap_core (f : Fld) (n : Nat) (i : Nat) : (s.addWrap f n).core i = s.core i := by
  simp only [State.core, addWrap_cores]
@[simp] theorem addWrap_session (f : Fld) (n : Nat) (q : Port) : (s.addWrap f n).session q = s.session q := by
  cases q <;> simp only [State.session, addWrap_pcie, addWrap_qspi]
@[simp] theorem addWrap_mem (f : Fld) (n : Nat) (m : MemId) : (s.addWrap f n).mem m = s.mem m := by
  cases m <;> simp only [State.mem, addWrap_registryMem, addWrap_stencilMem, addWrap_captureMem, addWrap_spineMem, addWrap_faProg, addWrap_faData]

/-! ### addSat -/

@[simp] theorem addSat_pending (f : Fld) (n : Nat) : (s.addSat f n).pending = s.pending := by
  simp only [State.addSat, setF_pending]
@[simp] theorem addSat_phase (f : Fld) (n : Nat) : (s.addSat f n).phase = s.phase := by
  simp only [State.addSat, setF_phase]
@[simp] theorem addSat_dev (f : Fld) (n : Nat) : (s.addSat f n).dev = s.dev := by
  simp only [State.addSat, setF_dev]
@[simp] theorem addSat_prev (f : Fld) (n : Nat) : (s.addSat f n).prev = s.prev := by
  simp only [State.addSat, setF_prev]
@[simp] theorem addSat_holdFrom (f : Fld) (n : Nat) : (s.addSat f n).holdFrom = s.holdFrom := by
  simp only [State.addSat, setF_holdFrom]
@[simp] theorem addSat_analogWest (f : Fld) (n : Nat) : (s.addSat f n).analogWest = s.analogWest := by
  simp only [State.addSat, setF_analogWest]
@[simp] theorem addSat_analogEast (f : Fld) (n : Nat) : (s.addSat f n).analogEast = s.analogEast := by
  simp only [State.addSat, setF_analogEast]
@[simp] theorem addSat_drone (f : Fld) (n : Nat) : (s.addSat f n).drone = s.drone := by
  simp only [State.addSat, setF_drone]
@[simp] theorem addSat_fuses (f : Fld) (n : Nat) : (s.addSat f n).fuses = s.fuses := by
  simp only [State.addSat, setF_fuses]
@[simp] theorem addSat_pcie (f : Fld) (n : Nat) : (s.addSat f n).pcie = s.pcie := by
  simp only [State.addSat, setF_pcie]
@[simp] theorem addSat_qspi (f : Fld) (n : Nat) : (s.addSat f n).qspi = s.qspi := by
  simp only [State.addSat, setF_qspi]
@[simp] theorem addSat_drawn (f : Fld) (n : Nat) : (s.addSat f n).drawn = s.drawn := by
  simp only [State.addSat, setF_drawn]
@[simp] theorem addSat_lath (f : Fld) (n : Nat) : (s.addSat f n).lath = s.lath := by
  simp only [State.addSat, setF_lath]
@[simp] theorem addSat_journal (f : Fld) (n : Nat) : (s.addSat f n).journal = s.journal := by
  simp only [State.addSat, setF_journal]
@[simp] theorem addSat_returnedPart (f : Fld) (n : Nat) : (s.addSat f n).returnedPart = s.returnedPart := by
  simp only [State.addSat, setF_returnedPart]
@[simp] theorem addSat_job (f : Fld) (n : Nat) : (s.addSat f n).job = s.job := by
  simp only [State.addSat, setF_job]
@[simp] theorem addSat_shadow (f : Fld) (n : Nat) : (s.addSat f n).shadow = s.shadow := by
  simp only [State.addSat, setF_shadow]
@[simp] theorem addSat_registryMem (f : Fld) (n : Nat) : (s.addSat f n).registryMem = s.registryMem := by
  simp only [State.addSat, setF_registryMem]
@[simp] theorem addSat_stencilMem (f : Fld) (n : Nat) : (s.addSat f n).stencilMem = s.stencilMem := by
  simp only [State.addSat, setF_stencilMem]
@[simp] theorem addSat_captureMem (f : Fld) (n : Nat) : (s.addSat f n).captureMem = s.captureMem := by
  simp only [State.addSat, setF_captureMem]
@[simp] theorem addSat_spineMem (f : Fld) (n : Nat) : (s.addSat f n).spineMem = s.spineMem := by
  simp only [State.addSat, setF_spineMem]
@[simp] theorem addSat_faProg (f : Fld) (n : Nat) : (s.addSat f n).faProg = s.faProg := by
  simp only [State.addSat, setF_faProg]
@[simp] theorem addSat_faData (f : Fld) (n : Nat) : (s.addSat f n).faData = s.faData := by
  simp only [State.addSat, setF_faData]
@[simp] theorem addSat_memint (f : Fld) (n : Nat) : (s.addSat f n).memint = s.memint := by
  simp only [State.addSat, setF_memint]
@[simp] theorem addSat_rx (f : Fld) (n : Nat) : (s.addSat f n).rx = s.rx := by
  simp only [State.addSat, setF_rx]
@[simp] theorem addSat_tx (f : Fld) (n : Nat) : (s.addSat f n).tx = s.tx := by
  simp only [State.addSat, setF_tx]
@[simp] theorem addSat_syn (f : Fld) (n : Nat) : (s.addSat f n).syn = s.syn := by
  simp only [State.addSat, setF_syn]
@[simp] theorem addSat_tiles (f : Fld) (n : Nat) : (s.addSat f n).tiles = s.tiles := by
  simp only [State.addSat, setF_tiles]
@[simp] theorem addSat_bias (f : Fld) (n : Nat) : (s.addSat f n).bias = s.bias := by
  simp only [State.addSat, setF_bias]
@[simp] theorem addSat_aerialLow (f : Fld) (n : Nat) : (s.addSat f n).aerialLow = s.aerialLow := by
  simp only [State.addSat, setF_aerialLow]
@[simp] theorem addSat_aerialBars (f : Fld) (n : Nat) : (s.addSat f n).aerialBars = s.aerialBars := by
  simp only [State.addSat, setF_aerialBars]
@[simp] theorem addSat_spectral (f : Fld) (n : Nat) : (s.addSat f n).spectral = s.spectral := by
  simp only [State.addSat, setF_spectral]
@[simp] theorem addSat_sched (f : Fld) (n : Nat) : (s.addSat f n).sched = s.sched := by
  simp only [State.addSat, setF_sched]
@[simp] theorem addSat_fh (f : Fld) (n : Nat) : (s.addSat f n).fh = s.fh := by
  simp only [State.addSat, setF_fh]
@[simp] theorem addSat_doze (f : Fld) (n : Nat) : (s.addSat f n).doze = s.doze := by
  simp only [State.addSat, setF_doze]
@[simp] theorem addSat_cores (f : Fld) (n : Nat) : (s.addSat f n).cores = s.cores := by
  simp only [State.addSat, setF_cores]
@[simp] theorem addSat_hod (f : Fld) (n : Nat) : (s.addSat f n).hod = s.hod := by
  simp only [State.addSat, setF_hod]
@[simp] theorem addSat_bridge (f : Fld) (n : Nat) : (s.addSat f n).bridge = s.bridge := by
  simp only [State.addSat, setF_bridge]
@[simp] theorem addSat_time (f : Fld) (n : Nat) : (s.addSat f n).time = s.time := by
  simp only [State.addSat, setF_time]
@[simp] theorem addSat_cal (f : Fld) (n : Nat) : (s.addSat f n).cal = s.cal := by
  simp only [State.addSat, setF_cal]
@[simp] theorem addSat_mon (f : Fld) (n : Nat) : (s.addSat f n).mon = s.mon := by
  simp only [State.addSat, setF_mon]
@[simp] theorem addSat_budget (f : Fld) (n : Nat) : (s.addSat f n).budget = s.budget := by
  simp only [State.addSat, setF_budget]
@[simp] theorem addSat_events (f : Fld) (n : Nat) : (s.addSat f n).events = s.events := by
  simp only [State.addSat, setF_events]
@[simp] theorem addSat_hostQueue (f : Fld) (n : Nat) : (s.addSat f n).hostQueue = s.hostQueue := by
  simp only [State.addSat, setF_hostQueue]
@[simp] theorem addSat_out (f : Fld) (n : Nat) : (s.addSat f n).out = s.out := by
  simp only [State.addSat, setF_out]
@[simp] theorem addSat_core (f : Fld) (n : Nat) (i : Nat) : (s.addSat f n).core i = s.core i := by
  simp only [State.core, addSat_cores]
@[simp] theorem addSat_session (f : Fld) (n : Nat) (q : Port) : (s.addSat f n).session q = s.session q := by
  cases q <;> simp only [State.session, addSat_pcie, addSat_qspi]
@[simp] theorem addSat_mem (f : Fld) (n : Nat) (m : MemId) : (s.addSat f n).mem m = s.mem m := by
  cases m <;> simp only [State.mem, addSat_registryMem, addSat_stencilMem, addSat_captureMem, addSat_spineMem, addSat_faProg, addSat_faData]

/-! ### begin -/

@[simp] theorem begin_pending (p : Port) (op : Nat) : (s.begin p op).pending = s.pending := by
  simp only [State.begin, setF_pending]
@[simp] theorem begin_phase (p : Port) (op : Nat) : (s.begin p op).phase = s.phase := by
  simp only [State.begin, setF_phase]
@[simp] theorem begin_dev (p : Port) (op : Nat) : (s.begin p op).dev = s.dev := by
  simp only [State.begin, setF_dev]
@[simp] theorem begin_prev (p : Port) (op : Nat) : (s.begin p op).prev = s.prev := by
  simp only [State.begin, setF_prev]
@[simp] theorem begin_holdFrom (p : Port) (op : Nat) : (s.begin p op).holdFrom = s.holdFrom := by
  simp only [State.begin, setF_holdFrom]
@[simp] theorem begin_analogWest (p : Port) (op : Nat) : (s.begin p op).analogWest = s.analogWest := by
  simp only [State.begin, setF_analogWest]
@[simp] theorem begin_analogEast (p : Port) (op : Nat) : (s.begin p op).analogEast = s.analogEast := by
  simp only [State.begin, setF_analogEast]
@[simp] theorem begin_drone (p : Port) (op : Nat) : (s.begin p op).drone = s.drone := by
  simp only [State.begin, setF_drone]
@[simp] theorem begin_fuses (p : Port) (op : Nat) : (s.begin p op).fuses = s.fuses := by
  simp only [State.begin, setF_fuses]
@[simp] theorem begin_pcie (p : Port) (op : Nat) : (s.begin p op).pcie = s.pcie := by
  simp only [State.begin, setF_pcie]
@[simp] theorem begin_qspi (p : Port) (op : Nat) : (s.begin p op).qspi = s.qspi := by
  simp only [State.begin, setF_qspi]
@[simp] theorem begin_drawn (p : Port) (op : Nat) : (s.begin p op).drawn = s.drawn := by
  simp only [State.begin, setF_drawn]
@[simp] theorem begin_lath (p : Port) (op : Nat) : (s.begin p op).lath = s.lath := by
  simp only [State.begin, setF_lath]
@[simp] theorem begin_journal (p : Port) (op : Nat) : (s.begin p op).journal = s.journal := by
  simp only [State.begin, setF_journal]
@[simp] theorem begin_returnedPart (p : Port) (op : Nat) : (s.begin p op).returnedPart = s.returnedPart := by
  simp only [State.begin, setF_returnedPart]
@[simp] theorem begin_job (p : Port) (op : Nat) : (s.begin p op).job = s.job := by
  simp only [State.begin, setF_job]
@[simp] theorem begin_shadow (p : Port) (op : Nat) : (s.begin p op).shadow = s.shadow := by
  simp only [State.begin, setF_shadow]
@[simp] theorem begin_registryMem (p : Port) (op : Nat) : (s.begin p op).registryMem = s.registryMem := by
  simp only [State.begin, setF_registryMem]
@[simp] theorem begin_stencilMem (p : Port) (op : Nat) : (s.begin p op).stencilMem = s.stencilMem := by
  simp only [State.begin, setF_stencilMem]
@[simp] theorem begin_captureMem (p : Port) (op : Nat) : (s.begin p op).captureMem = s.captureMem := by
  simp only [State.begin, setF_captureMem]
@[simp] theorem begin_spineMem (p : Port) (op : Nat) : (s.begin p op).spineMem = s.spineMem := by
  simp only [State.begin, setF_spineMem]
@[simp] theorem begin_faProg (p : Port) (op : Nat) : (s.begin p op).faProg = s.faProg := by
  simp only [State.begin, setF_faProg]
@[simp] theorem begin_faData (p : Port) (op : Nat) : (s.begin p op).faData = s.faData := by
  simp only [State.begin, setF_faData]
@[simp] theorem begin_memint (p : Port) (op : Nat) : (s.begin p op).memint = s.memint := by
  simp only [State.begin, setF_memint]
@[simp] theorem begin_rx (p : Port) (op : Nat) : (s.begin p op).rx = s.rx := by
  simp only [State.begin, setF_rx]
@[simp] theorem begin_tx (p : Port) (op : Nat) : (s.begin p op).tx = s.tx := by
  simp only [State.begin, setF_tx]
@[simp] theorem begin_syn (p : Port) (op : Nat) : (s.begin p op).syn = s.syn := by
  simp only [State.begin, setF_syn]
@[simp] theorem begin_tiles (p : Port) (op : Nat) : (s.begin p op).tiles = s.tiles := by
  simp only [State.begin, setF_tiles]
@[simp] theorem begin_bias (p : Port) (op : Nat) : (s.begin p op).bias = s.bias := by
  simp only [State.begin, setF_bias]
@[simp] theorem begin_aerialLow (p : Port) (op : Nat) : (s.begin p op).aerialLow = s.aerialLow := by
  simp only [State.begin, setF_aerialLow]
@[simp] theorem begin_aerialBars (p : Port) (op : Nat) : (s.begin p op).aerialBars = s.aerialBars := by
  simp only [State.begin, setF_aerialBars]
@[simp] theorem begin_spectral (p : Port) (op : Nat) : (s.begin p op).spectral = s.spectral := by
  simp only [State.begin, setF_spectral]
@[simp] theorem begin_sched (p : Port) (op : Nat) : (s.begin p op).sched = s.sched := by
  simp only [State.begin, setF_sched]
@[simp] theorem begin_fh (p : Port) (op : Nat) : (s.begin p op).fh = s.fh := by
  simp only [State.begin, setF_fh]
@[simp] theorem begin_doze (p : Port) (op : Nat) : (s.begin p op).doze = s.doze := by
  simp only [State.begin, setF_doze]
@[simp] theorem begin_cores (p : Port) (op : Nat) : (s.begin p op).cores = s.cores := by
  simp only [State.begin, setF_cores]
@[simp] theorem begin_hod (p : Port) (op : Nat) : (s.begin p op).hod = s.hod := by
  simp only [State.begin, setF_hod]
@[simp] theorem begin_bridge (p : Port) (op : Nat) : (s.begin p op).bridge = s.bridge := by
  simp only [State.begin, setF_bridge]
@[simp] theorem begin_time (p : Port) (op : Nat) : (s.begin p op).time = s.time := by
  simp only [State.begin, setF_time]
@[simp] theorem begin_cal (p : Port) (op : Nat) : (s.begin p op).cal = s.cal := by
  simp only [State.begin, setF_cal]
@[simp] theorem begin_mon (p : Port) (op : Nat) : (s.begin p op).mon = s.mon := by
  simp only [State.begin, setF_mon]
@[simp] theorem begin_budget (p : Port) (op : Nat) : (s.begin p op).budget = s.budget := by
  simp only [State.begin, setF_budget]
@[simp] theorem begin_events (p : Port) (op : Nat) : (s.begin p op).events = s.events := by
  simp only [State.begin, setF_events]
@[simp] theorem begin_hostQueue (p : Port) (op : Nat) : (s.begin p op).hostQueue = s.hostQueue := by
  simp only [State.begin, setF_hostQueue]
@[simp] theorem begin_out (p : Port) (op : Nat) : (s.begin p op).out = s.out := by
  simp only [State.begin, setF_out]
@[simp] theorem begin_core (p : Port) (op : Nat) (i : Nat) : (s.begin p op).core i = s.core i := by
  simp only [State.core, begin_cores]
@[simp] theorem begin_session (p : Port) (op : Nat) (q : Port) : (s.begin p op).session q = s.session q := by
  cases q <;> simp only [State.session, begin_pcie, begin_qspi]
@[simp] theorem begin_mem (p : Port) (op : Nat) (m : MemId) : (s.begin p op).mem m = s.mem m := by
  cases m <;> simp only [State.mem, begin_registryMem, begin_stencilMem, begin_captureMem, begin_spineMem, begin_faProg, begin_faData]

/-! ### logAccess -/

@[simp] theorem logAccess_pending (p : Port) (a : Nat) (w : Bool) (c : LogCause) :
    (s.logAccess p a w c).pending = s.pending := by
  simp only [State.logAccess, addSat_pending, setFlag_pending, setF_pending]
@[simp] theorem logAccess_phase (p : Port) (a : Nat) (w : Bool) (c : LogCause) :
    (s.logAccess p a w c).phase = s.phase := by
  simp only [State.logAccess, addSat_phase, setFlag_phase, setF_phase]
@[simp] theorem logAccess_dev (p : Port) (a : Nat) (w : Bool) (c : LogCause) :
    (s.logAccess p a w c).dev = s.dev := by
  simp only [State.logAccess, addSat_dev, setFlag_dev, setF_dev]
@[simp] theorem logAccess_prev (p : Port) (a : Nat) (w : Bool) (c : LogCause) :
    (s.logAccess p a w c).prev = s.prev := by
  simp only [State.logAccess, addSat_prev, setFlag_prev, setF_prev]
@[simp] theorem logAccess_holdFrom (p : Port) (a : Nat) (w : Bool) (c : LogCause) :
    (s.logAccess p a w c).holdFrom = s.holdFrom := by
  simp only [State.logAccess, addSat_holdFrom, setFlag_holdFrom, setF_holdFrom]
@[simp] theorem logAccess_analogWest (p : Port) (a : Nat) (w : Bool) (c : LogCause) :
    (s.logAccess p a w c).analogWest = s.analogWest := by
  simp only [State.logAccess, addSat_analogWest, setFlag_analogWest, setF_analogWest]
@[simp] theorem logAccess_analogEast (p : Port) (a : Nat) (w : Bool) (c : LogCause) :
    (s.logAccess p a w c).analogEast = s.analogEast := by
  simp only [State.logAccess, addSat_analogEast, setFlag_analogEast, setF_analogEast]
@[simp] theorem logAccess_drone (p : Port) (a : Nat) (w : Bool) (c : LogCause) :
    (s.logAccess p a w c).drone = s.drone := by
  simp only [State.logAccess, addSat_drone, setFlag_drone, setF_drone]
@[simp] theorem logAccess_fuses (p : Port) (a : Nat) (w : Bool) (c : LogCause) :
    (s.logAccess p a w c).fuses = s.fuses := by
  simp only [State.logAccess, addSat_fuses, setFlag_fuses, setF_fuses]
@[simp] theorem logAccess_pcie (p : Port) (a : Nat) (w : Bool) (c : LogCause) :
    (s.logAccess p a w c).pcie = s.pcie := by
  simp only [State.logAccess, addSat_pcie, setFlag_pcie, setF_pcie]
@[simp] theorem logAccess_qspi (p : Port) (a : Nat) (w : Bool) (c : LogCause) :
    (s.logAccess p a w c).qspi = s.qspi := by
  simp only [State.logAccess, addSat_qspi, setFlag_qspi, setF_qspi]
@[simp] theorem logAccess_drawn (p : Port) (a : Nat) (w : Bool) (c : LogCause) :
    (s.logAccess p a w c).drawn = s.drawn := by
  simp only [State.logAccess, addSat_drawn, setFlag_drawn, setF_drawn]
@[simp] theorem logAccess_lath (p : Port) (a : Nat) (w : Bool) (c : LogCause) :
    (s.logAccess p a w c).lath = s.lath := by
  simp only [State.logAccess, addSat_lath, setFlag_lath, setF_lath]
@[simp] theorem logAccess_journal (p : Port) (a : Nat) (w : Bool) (c : LogCause) :
    (s.logAccess p a w c).journal = s.journal := by
  simp only [State.logAccess, addSat_journal, setFlag_journal, setF_journal]
@[simp] theorem logAccess_returnedPart (p : Port) (a : Nat) (w : Bool) (c : LogCause) :
    (s.logAccess p a w c).returnedPart = s.returnedPart := by
  simp only [State.logAccess, addSat_returnedPart, setFlag_returnedPart, setF_returnedPart]
@[simp] theorem logAccess_job (p : Port) (a : Nat) (w : Bool) (c : LogCause) :
    (s.logAccess p a w c).job = s.job := by
  simp only [State.logAccess, addSat_job, setFlag_job, setF_job]
@[simp] theorem logAccess_shadow (p : Port) (a : Nat) (w : Bool) (c : LogCause) :
    (s.logAccess p a w c).shadow = s.shadow := by
  simp only [State.logAccess, addSat_shadow, setFlag_shadow, setF_shadow]
@[simp] theorem logAccess_registryMem (p : Port) (a : Nat) (w : Bool) (c : LogCause) :
    (s.logAccess p a w c).registryMem = s.registryMem := by
  simp only [State.logAccess, addSat_registryMem, setFlag_registryMem, setF_registryMem]
@[simp] theorem logAccess_stencilMem (p : Port) (a : Nat) (w : Bool) (c : LogCause) :
    (s.logAccess p a w c).stencilMem = s.stencilMem := by
  simp only [State.logAccess, addSat_stencilMem, setFlag_stencilMem, setF_stencilMem]
@[simp] theorem logAccess_captureMem (p : Port) (a : Nat) (w : Bool) (c : LogCause) :
    (s.logAccess p a w c).captureMem = s.captureMem := by
  simp only [State.logAccess, addSat_captureMem, setFlag_captureMem, setF_captureMem]
@[simp] theorem logAccess_spineMem (p : Port) (a : Nat) (w : Bool) (c : LogCause) :
    (s.logAccess p a w c).spineMem = s.spineMem := by
  simp only [State.logAccess, addSat_spineMem, setFlag_spineMem, setF_spineMem]
@[simp] theorem logAccess_faProg (p : Port) (a : Nat) (w : Bool) (c : LogCause) :
    (s.logAccess p a w c).faProg = s.faProg := by
  simp only [State.logAccess, addSat_faProg, setFlag_faProg, setF_faProg]
@[simp] theorem logAccess_faData (p : Port) (a : Nat) (w : Bool) (c : LogCause) :
    (s.logAccess p a w c).faData = s.faData := by
  simp only [State.logAccess, addSat_faData, setFlag_faData, setF_faData]
@[simp] theorem logAccess_memint (p : Port) (a : Nat) (w : Bool) (c : LogCause) :
    (s.logAccess p a w c).memint = s.memint := by
  simp only [State.logAccess, addSat_memint, setFlag_memint, setF_memint]
@[simp] theorem logAccess_rx (p : Port) (a : Nat) (w : Bool) (c : LogCause) :
    (s.logAccess p a w c).rx = s.rx := by
  simp only [State.logAccess, addSat_rx, setFlag_rx, setF_rx]
@[simp] theorem logAccess_tx (p : Port) (a : Nat) (w : Bool) (c : LogCause) :
    (s.logAccess p a w c).tx = s.tx := by
  simp only [State.logAccess, addSat_tx, setFlag_tx, setF_tx]
@[simp] theorem logAccess_syn (p : Port) (a : Nat) (w : Bool) (c : LogCause) :
    (s.logAccess p a w c).syn = s.syn := by
  simp only [State.logAccess, addSat_syn, setFlag_syn, setF_syn]
@[simp] theorem logAccess_tiles (p : Port) (a : Nat) (w : Bool) (c : LogCause) :
    (s.logAccess p a w c).tiles = s.tiles := by
  simp only [State.logAccess, addSat_tiles, setFlag_tiles, setF_tiles]
@[simp] theorem logAccess_bias (p : Port) (a : Nat) (w : Bool) (c : LogCause) :
    (s.logAccess p a w c).bias = s.bias := by
  simp only [State.logAccess, addSat_bias, setFlag_bias, setF_bias]
@[simp] theorem logAccess_aerialLow (p : Port) (a : Nat) (w : Bool) (c : LogCause) :
    (s.logAccess p a w c).aerialLow = s.aerialLow := by
  simp only [State.logAccess, addSat_aerialLow, setFlag_aerialLow, setF_aerialLow]
@[simp] theorem logAccess_aerialBars (p : Port) (a : Nat) (w : Bool) (c : LogCause) :
    (s.logAccess p a w c).aerialBars = s.aerialBars := by
  simp only [State.logAccess, addSat_aerialBars, setFlag_aerialBars, setF_aerialBars]
@[simp] theorem logAccess_spectral (p : Port) (a : Nat) (w : Bool) (c : LogCause) :
    (s.logAccess p a w c).spectral = s.spectral := by
  simp only [State.logAccess, addSat_spectral, setFlag_spectral, setF_spectral]
@[simp] theorem logAccess_sched (p : Port) (a : Nat) (w : Bool) (c : LogCause) :
    (s.logAccess p a w c).sched = s.sched := by
  simp only [State.logAccess, addSat_sched, setFlag_sched, setF_sched]
@[simp] theorem logAccess_fh (p : Port) (a : Nat) (w : Bool) (c : LogCause) :
    (s.logAccess p a w c).fh = s.fh := by
  simp only [State.logAccess, addSat_fh, setFlag_fh, setF_fh]
@[simp] theorem logAccess_doze (p : Port) (a : Nat) (w : Bool) (c : LogCause) :
    (s.logAccess p a w c).doze = s.doze := by
  simp only [State.logAccess, addSat_doze, setFlag_doze, setF_doze]
@[simp] theorem logAccess_cores (p : Port) (a : Nat) (w : Bool) (c : LogCause) :
    (s.logAccess p a w c).cores = s.cores := by
  simp only [State.logAccess, addSat_cores, setFlag_cores, setF_cores]
@[simp] theorem logAccess_hod (p : Port) (a : Nat) (w : Bool) (c : LogCause) :
    (s.logAccess p a w c).hod = s.hod := by
  simp only [State.logAccess, addSat_hod, setFlag_hod, setF_hod]
@[simp] theorem logAccess_bridge (p : Port) (a : Nat) (w : Bool) (c : LogCause) :
    (s.logAccess p a w c).bridge = s.bridge := by
  simp only [State.logAccess, addSat_bridge, setFlag_bridge, setF_bridge]
@[simp] theorem logAccess_time (p : Port) (a : Nat) (w : Bool) (c : LogCause) :
    (s.logAccess p a w c).time = s.time := by
  simp only [State.logAccess, addSat_time, setFlag_time, setF_time]
@[simp] theorem logAccess_cal (p : Port) (a : Nat) (w : Bool) (c : LogCause) :
    (s.logAccess p a w c).cal = s.cal := by
  simp only [State.logAccess, addSat_cal, setFlag_cal, setF_cal]
@[simp] theorem logAccess_mon (p : Port) (a : Nat) (w : Bool) (c : LogCause) :
    (s.logAccess p a w c).mon = s.mon := by
  simp only [State.logAccess, addSat_mon, setFlag_mon, setF_mon]
@[simp] theorem logAccess_budget (p : Port) (a : Nat) (w : Bool) (c : LogCause) :
    (s.logAccess p a w c).budget = s.budget := by
  simp only [State.logAccess, addSat_budget, setFlag_budget, setF_budget]
@[simp] theorem logAccess_events (p : Port) (a : Nat) (w : Bool) (c : LogCause) :
    (s.logAccess p a w c).events = s.events := by
  simp only [State.logAccess, addSat_events, setFlag_events, setF_events]
@[simp] theorem logAccess_hostQueue (p : Port) (a : Nat) (w : Bool) (c : LogCause) :
    (s.logAccess p a w c).hostQueue = s.hostQueue := by
  simp only [State.logAccess, addSat_hostQueue, setFlag_hostQueue, setF_hostQueue]
@[simp] theorem logAccess_out (p : Port) (a : Nat) (w : Bool) (c : LogCause) :
    (s.logAccess p a w c).out = s.out := by
  simp only [State.logAccess, addSat_out, setFlag_out, setF_out]
@[simp] theorem logAccess_core (p : Port) (a : Nat) (w : Bool) (c : LogCause) (i : Nat) : (s.logAccess p a w c).core i = s.core i := by
  simp only [State.core, logAccess_cores]
@[simp] theorem logAccess_session (p : Port) (a : Nat) (w : Bool) (c : LogCause) (q : Port) : (s.logAccess p a w c).session q = s.session q := by
  cases q <;> simp only [State.session, logAccess_pcie, logAccess_qspi]
@[simp] theorem logAccess_mem (p : Port) (a : Nat) (w : Bool) (c : LogCause) (m : MemId) : (s.logAccess p a w c).mem m = s.mem m := by
  cases m <;> simp only [State.mem, logAccess_registryMem, logAccess_stencilMem, logAccess_captureMem, logAccess_spineMem, logAccess_faProg, logAccess_faData]

/-! ### raise -/

@[simp] theorem raise_pending (n : Nat) : (s.raise n).pending = s.pending := by
  rw [raise_eq]
@[simp] theorem raise_phase (n : Nat) : (s.raise n).phase = s.phase := by
  rw [raise_eq]
@[simp] theorem raise_dev (n : Nat) : (s.raise n).dev = s.dev := by
  rw [raise_eq]
@[simp] theorem raise_prev (n : Nat) : (s.raise n).prev = s.prev := by
  rw [raise_eq]
@[simp] theorem raise_holdFrom (n : Nat) : (s.raise n).holdFrom = s.holdFrom := by
  rw [raise_eq]
@[simp] theorem raise_analogWest (n : Nat) : (s.raise n).analogWest = s.analogWest := by
  rw [raise_eq]
@[simp] theorem raise_analogEast (n : Nat) : (s.raise n).analogEast = s.analogEast := by
  rw [raise_eq]
@[simp] theorem raise_drone (n : Nat) : (s.raise n).drone = s.drone := by
  rw [raise_eq]
@[simp] theorem raise_fuses (n : Nat) : (s.raise n).fuses = s.fuses := by
  rw [raise_eq]
@[simp] theorem raise_pcie (n : Nat) : (s.raise n).pcie = s.pcie := by
  rw [raise_eq]
@[simp] theorem raise_qspi (n : Nat) : (s.raise n).qspi = s.qspi := by
  rw [raise_eq]
@[simp] theorem raise_drawn (n : Nat) : (s.raise n).drawn = s.drawn := by
  rw [raise_eq]
@[simp] theorem raise_lath (n : Nat) : (s.raise n).lath = s.lath := by
  rw [raise_eq]
@[simp] theorem raise_journal (n : Nat) : (s.raise n).journal = s.journal := by
  rw [raise_eq]
@[simp] theorem raise_returnedPart (n : Nat) : (s.raise n).returnedPart = s.returnedPart := by
  rw [raise_eq]
@[simp] theorem raise_job (n : Nat) : (s.raise n).job = s.job := by
  rw [raise_eq]
@[simp] theorem raise_shadow (n : Nat) : (s.raise n).shadow = s.shadow := by
  rw [raise_eq]
@[simp] theorem raise_registryMem (n : Nat) : (s.raise n).registryMem = s.registryMem := by
  rw [raise_eq]
@[simp] theorem raise_stencilMem (n : Nat) : (s.raise n).stencilMem = s.stencilMem := by
  rw [raise_eq]
@[simp] theorem raise_captureMem (n : Nat) : (s.raise n).captureMem = s.captureMem := by
  rw [raise_eq]
@[simp] theorem raise_spineMem (n : Nat) : (s.raise n).spineMem = s.spineMem := by
  rw [raise_eq]
@[simp] theorem raise_faProg (n : Nat) : (s.raise n).faProg = s.faProg := by
  rw [raise_eq]
@[simp] theorem raise_faData (n : Nat) : (s.raise n).faData = s.faData := by
  rw [raise_eq]
@[simp] theorem raise_memint (n : Nat) : (s.raise n).memint = s.memint := by
  rw [raise_eq]
@[simp] theorem raise_rx (n : Nat) : (s.raise n).rx = s.rx := by
  rw [raise_eq]
@[simp] theorem raise_tx (n : Nat) : (s.raise n).tx = s.tx := by
  rw [raise_eq]
@[simp] theorem raise_syn (n : Nat) : (s.raise n).syn = s.syn := by
  rw [raise_eq]
@[simp] theorem raise_tiles (n : Nat) : (s.raise n).tiles = s.tiles := by
  rw [raise_eq]
@[simp] theorem raise_bias (n : Nat) : (s.raise n).bias = s.bias := by
  rw [raise_eq]
@[simp] theorem raise_aerialLow (n : Nat) : (s.raise n).aerialLow = s.aerialLow := by
  rw [raise_eq]
@[simp] theorem raise_aerialBars (n : Nat) : (s.raise n).aerialBars = s.aerialBars := by
  rw [raise_eq]
@[simp] theorem raise_spectral (n : Nat) : (s.raise n).spectral = s.spectral := by
  rw [raise_eq]
@[simp] theorem raise_sched (n : Nat) : (s.raise n).sched = s.sched := by
  rw [raise_eq]
@[simp] theorem raise_fh (n : Nat) : (s.raise n).fh = s.fh := by
  rw [raise_eq]
@[simp] theorem raise_doze (n : Nat) : (s.raise n).doze = s.doze := by
  rw [raise_eq]
@[simp] theorem raise_cores (n : Nat) : (s.raise n).cores = s.cores := by
  rw [raise_eq]
@[simp] theorem raise_hod (n : Nat) : (s.raise n).hod = s.hod := by
  rw [raise_eq]
@[simp] theorem raise_bridge (n : Nat) : (s.raise n).bridge = s.bridge := by
  rw [raise_eq]
@[simp] theorem raise_time (n : Nat) : (s.raise n).time = s.time := by
  rw [raise_eq]
@[simp] theorem raise_cal (n : Nat) : (s.raise n).cal = s.cal := by
  rw [raise_eq]
@[simp] theorem raise_mon (n : Nat) : (s.raise n).mon = s.mon := by
  rw [raise_eq]
@[simp] theorem raise_budget (n : Nat) : (s.raise n).budget = s.budget := by
  rw [raise_eq]
@[simp] theorem raise_hostQueue (n : Nat) : (s.raise n).hostQueue = s.hostQueue := by
  rw [raise_eq]
@[simp] theorem raise_out (n : Nat) : (s.raise n).out = s.out := by
  rw [raise_eq]
@[simp] theorem raise_core (n : Nat) (i : Nat) : (s.raise n).core i = s.core i := by
  simp only [State.core, raise_cores]
@[simp] theorem raise_session (n : Nat) (q : Port) : (s.raise n).session q = s.session q := by
  cases q <;> simp only [State.session, raise_pcie, raise_qspi]
@[simp] theorem raise_mem (n : Nat) (m : MemId) : (s.raise n).mem m = s.mem m := by
  cases m <;> simp only [State.mem, raise_registryMem, raise_stencilMem, raise_captureMem, raise_spineMem, raise_faProg, raise_faData]

/-! ### exhaust -/

@[simp] theorem exhaust_pending (c : Nat) : (s.exhaust c).pending = s.pending := by
  rw [exhaust_eq]
@[simp] theorem exhaust_phase (c : Nat) : (s.exhaust c).phase = s.phase := by
  rw [exhaust_eq]
@[simp] theorem exhaust_dev (c : Nat) : (s.exhaust c).dev = s.dev := by
  rw [exhaust_eq]
@[simp] theorem exhaust_prev (c : Nat) : (s.exhaust c).prev = s.prev := by
  rw [exhaust_eq]
@[simp] theorem exhaust_holdFrom (c : Nat) : (s.exhaust c).holdFrom = s.holdFrom := by
  rw [exhaust_eq]
@[simp] theorem exhaust_analogWest (c : Nat) : (s.exhaust c).analogWest = s.analogWest := by
  rw [exhaust_eq]
@[simp] theorem exhaust_analogEast (c : Nat) : (s.exhaust c).analogEast = s.analogEast := by
  rw [exhaust_eq]
@[simp] theorem exhaust_drone (c : Nat) : (s.exhaust c).drone = s.drone := by
  rw [exhaust_eq]
@[simp] theorem exhaust_fuses (c : Nat) : (s.exhaust c).fuses = s.fuses := by
  rw [exhaust_eq]
@[simp] theorem exhaust_pcie (c : Nat) : (s.exhaust c).pcie = s.pcie := by
  rw [exhaust_eq]
@[simp] theorem exhaust_qspi (c : Nat) : (s.exhaust c).qspi = s.qspi := by
  rw [exhaust_eq]
@[simp] theorem exhaust_drawn (c : Nat) : (s.exhaust c).drawn = s.drawn := by
  rw [exhaust_eq]
@[simp] theorem exhaust_lath (c : Nat) : (s.exhaust c).lath = s.lath := by
  rw [exhaust_eq]
@[simp] theorem exhaust_journal (c : Nat) : (s.exhaust c).journal = s.journal := by
  rw [exhaust_eq]
@[simp] theorem exhaust_returnedPart (c : Nat) : (s.exhaust c).returnedPart = s.returnedPart := by
  rw [exhaust_eq]
@[simp] theorem exhaust_job (c : Nat) : (s.exhaust c).job = s.job := by
  rw [exhaust_eq]
@[simp] theorem exhaust_shadow (c : Nat) : (s.exhaust c).shadow = s.shadow := by
  rw [exhaust_eq]
@[simp] theorem exhaust_registryMem (c : Nat) : (s.exhaust c).registryMem = s.registryMem := by
  rw [exhaust_eq]
@[simp] theorem exhaust_stencilMem (c : Nat) : (s.exhaust c).stencilMem = s.stencilMem := by
  rw [exhaust_eq]
@[simp] theorem exhaust_captureMem (c : Nat) : (s.exhaust c).captureMem = s.captureMem := by
  rw [exhaust_eq]
@[simp] theorem exhaust_spineMem (c : Nat) : (s.exhaust c).spineMem = s.spineMem := by
  rw [exhaust_eq]
@[simp] theorem exhaust_faProg (c : Nat) : (s.exhaust c).faProg = s.faProg := by
  rw [exhaust_eq]
@[simp] theorem exhaust_faData (c : Nat) : (s.exhaust c).faData = s.faData := by
  rw [exhaust_eq]
@[simp] theorem exhaust_memint (c : Nat) : (s.exhaust c).memint = s.memint := by
  rw [exhaust_eq]
@[simp] theorem exhaust_rx (c : Nat) : (s.exhaust c).rx = s.rx := by
  rw [exhaust_eq]
@[simp] theorem exhaust_tx (c : Nat) : (s.exhaust c).tx = s.tx := by
  rw [exhaust_eq]
@[simp] theorem exhaust_syn (c : Nat) : (s.exhaust c).syn = s.syn := by
  rw [exhaust_eq]
@[simp] theorem exhaust_tiles (c : Nat) : (s.exhaust c).tiles = s.tiles := by
  rw [exhaust_eq]
@[simp] theorem exhaust_bias (c : Nat) : (s.exhaust c).bias = s.bias := by
  rw [exhaust_eq]
@[simp] theorem exhaust_aerialLow (c : Nat) : (s.exhaust c).aerialLow = s.aerialLow := by
  rw [exhaust_eq]
@[simp] theorem exhaust_aerialBars (c : Nat) : (s.exhaust c).aerialBars = s.aerialBars := by
  rw [exhaust_eq]
@[simp] theorem exhaust_spectral (c : Nat) : (s.exhaust c).spectral = s.spectral := by
  rw [exhaust_eq]
@[simp] theorem exhaust_sched (c : Nat) : (s.exhaust c).sched = s.sched := by
  rw [exhaust_eq]
@[simp] theorem exhaust_fh (c : Nat) : (s.exhaust c).fh = s.fh := by
  rw [exhaust_eq]
@[simp] theorem exhaust_doze (c : Nat) : (s.exhaust c).doze = s.doze := by
  rw [exhaust_eq]
@[simp] theorem exhaust_cores (c : Nat) : (s.exhaust c).cores = s.cores := by
  rw [exhaust_eq]
@[simp] theorem exhaust_hod (c : Nat) : (s.exhaust c).hod = s.hod := by
  rw [exhaust_eq]
@[simp] theorem exhaust_bridge (c : Nat) : (s.exhaust c).bridge = s.bridge := by
  rw [exhaust_eq]
@[simp] theorem exhaust_time (c : Nat) : (s.exhaust c).time = s.time := by
  rw [exhaust_eq]
@[simp] theorem exhaust_cal (c : Nat) : (s.exhaust c).cal = s.cal := by
  rw [exhaust_eq]
@[simp] theorem exhaust_mon (c : Nat) : (s.exhaust c).mon = s.mon := by
  rw [exhaust_eq]
@[simp] theorem exhaust_hostQueue (c : Nat) : (s.exhaust c).hostQueue = s.hostQueue := by
  rw [exhaust_eq]
@[simp] theorem exhaust_out (c : Nat) : (s.exhaust c).out = s.out := by
  rw [exhaust_eq]
@[simp] theorem exhaust_core (c : Nat) (i : Nat) : (s.exhaust c).core i = s.core i := by
  simp only [State.core, exhaust_cores]
@[simp] theorem exhaust_session (c : Nat) (q : Port) : (s.exhaust c).session q = s.session q := by
  cases q <;> simp only [State.session, exhaust_pcie, exhaust_qspi]
@[simp] theorem exhaust_mem (c : Nat) (m : MemId) : (s.exhaust c).mem m = s.mem m := by
  cases m <;> simp only [State.mem, exhaust_registryMem, exhaust_stencilMem, exhaust_captureMem, exhaust_spineMem, exhaust_faProg, exhaust_faData]

/-! ### results -/

@[simp] theorem results_pending (l : List Nat) : (s.results l).pending = s.pending := by
  rw [results_eq]
@[simp] theorem results_phase (l : List Nat) : (s.results l).phase = s.phase := by
  rw [results_eq]
@[simp] theorem results_dev (l : List Nat) : (s.results l).dev = s.dev := by
  rw [results_eq]
@[simp] theorem results_prev (l : List Nat) : (s.results l).prev = s.prev := by
  rw [results_eq]
@[simp] theorem results_holdFrom (l : List Nat) : (s.results l).holdFrom = s.holdFrom := by
  rw [results_eq]
@[simp] theorem results_analogWest (l : List Nat) : (s.results l).analogWest = s.analogWest := by
  rw [results_eq]
@[simp] theorem results_analogEast (l : List Nat) : (s.results l).analogEast = s.analogEast := by
  rw [results_eq]
@[simp] theorem results_drone (l : List Nat) : (s.results l).drone = s.drone := by
  rw [results_eq]
@[simp] theorem results_fuses (l : List Nat) : (s.results l).fuses = s.fuses := by
  rw [results_eq]
@[simp] theorem results_pcie (l : List Nat) : (s.results l).pcie = s.pcie := by
  rw [results_eq]
@[simp] theorem results_qspi (l : List Nat) : (s.results l).qspi = s.qspi := by
  rw [results_eq]
@[simp] theorem results_drawn (l : List Nat) : (s.results l).drawn = s.drawn := by
  rw [results_eq]
@[simp] theorem results_lath (l : List Nat) : (s.results l).lath = s.lath := by
  rw [results_eq]
@[simp] theorem results_journal (l : List Nat) : (s.results l).journal = s.journal := by
  rw [results_eq]
@[simp] theorem results_returnedPart (l : List Nat) : (s.results l).returnedPart = s.returnedPart := by
  rw [results_eq]
@[simp] theorem results_job (l : List Nat) : (s.results l).job = s.job := by
  rw [results_eq]
@[simp] theorem results_shadow (l : List Nat) : (s.results l).shadow = s.shadow := by
  rw [results_eq]
@[simp] theorem results_registryMem (l : List Nat) : (s.results l).registryMem = s.registryMem := by
  rw [results_eq]
@[simp] theorem results_stencilMem (l : List Nat) : (s.results l).stencilMem = s.stencilMem := by
  rw [results_eq]
@[simp] theorem results_captureMem (l : List Nat) : (s.results l).captureMem = s.captureMem := by
  rw [results_eq]
@[simp] theorem results_spineMem (l : List Nat) : (s.results l).spineMem = s.spineMem := by
  rw [results_eq]
@[simp] theorem results_faProg (l : List Nat) : (s.results l).faProg = s.faProg := by
  rw [results_eq]
@[simp] theorem results_faData (l : List Nat) : (s.results l).faData = s.faData := by
  rw [results_eq]
@[simp] theorem results_memint (l : List Nat) : (s.results l).memint = s.memint := by
  rw [results_eq]
@[simp] theorem results_rx (l : List Nat) : (s.results l).rx = s.rx := by
  rw [results_eq]
@[simp] theorem results_tx (l : List Nat) : (s.results l).tx = s.tx := by
  rw [results_eq]
@[simp] theorem results_syn (l : List Nat) : (s.results l).syn = s.syn := by
  rw [results_eq]
@[simp] theorem results_tiles (l : List Nat) : (s.results l).tiles = s.tiles := by
  rw [results_eq]
@[simp] theorem results_bias (l : List Nat) : (s.results l).bias = s.bias := by
  rw [results_eq]
@[simp] theorem results_aerialLow (l : List Nat) : (s.results l).aerialLow = s.aerialLow := by
  rw [results_eq]
@[simp] theorem results_aerialBars (l : List Nat) : (s.results l).aerialBars = s.aerialBars := by
  rw [results_eq]
@[simp] theorem results_spectral (l : List Nat) : (s.results l).spectral = s.spectral := by
  rw [results_eq]
@[simp] theorem results_sched (l : List Nat) : (s.results l).sched = s.sched := by
  rw [results_eq]
@[simp] theorem results_fh (l : List Nat) : (s.results l).fh = s.fh := by
  rw [results_eq]
@[simp] theorem results_doze (l : List Nat) : (s.results l).doze = s.doze := by
  rw [results_eq]
@[simp] theorem results_cores (l : List Nat) : (s.results l).cores = s.cores := by
  rw [results_eq]
@[simp] theorem results_hod (l : List Nat) : (s.results l).hod = s.hod := by
  rw [results_eq]
@[simp] theorem results_bridge (l : List Nat) : (s.results l).bridge = s.bridge := by
  rw [results_eq]
@[simp] theorem results_time (l : List Nat) : (s.results l).time = s.time := by
  rw [results_eq]
@[simp] theorem results_cal (l : List Nat) : (s.results l).cal = s.cal := by
  rw [results_eq]
@[simp] theorem results_mon (l : List Nat) : (s.results l).mon = s.mon := by
  rw [results_eq]
@[simp] theorem results_budget (l : List Nat) : (s.results l).budget = s.budget := by
  rw [results_eq]
@[simp] theorem results_events (l : List Nat) : (s.results l).events = s.events := by
  rw [results_eq]
@[simp] theorem results_hostQueue (l : List Nat) : (s.results l).hostQueue = s.hostQueue := by
  rw [results_eq]
@[simp] theorem results_out (l : List Nat) : (s.results l).out = s.out := by
  rw [results_eq]
@[simp] theorem results_core (l : List Nat) (i : Nat) : (s.results l).core i = s.core i := by
  simp only [State.core, results_cores]
@[simp] theorem results_session (l : List Nat) (q : Port) : (s.results l).session q = s.session q := by
  cases q <;> simp only [State.session, results_pcie, results_qspi]
@[simp] theorem results_mem (l : List Nat) (m : MemId) : (s.results l).mem m = s.mem m := by
  cases m <;> simp only [State.mem, results_registryMem, results_stencilMem, results_captureMem, results_spineMem, results_faProg, results_faData]

/-! ### complete -/

@[simp] theorem complete_pending (c : CmdCode) : (s.complete c).pending = s.pending := by
  rw [complete_eq]
@[simp] theorem complete_phase (c : CmdCode) : (s.complete c).phase = s.phase := by
  rw [complete_eq]
@[simp] theorem complete_dev (c : CmdCode) : (s.complete c).dev = s.dev := by
  rw [complete_eq]
@[simp] theorem complete_prev (c : CmdCode) : (s.complete c).prev = s.prev := by
  rw [complete_eq]
@[simp] theorem complete_holdFrom (c : CmdCode) : (s.complete c).holdFrom = s.holdFrom := by
  rw [complete_eq]
@[simp] theorem complete_analogWest (c : CmdCode) : (s.complete c).analogWest = s.analogWest := by
  rw [complete_eq]
@[simp] theorem complete_analogEast (c : CmdCode) : (s.complete c).analogEast = s.analogEast := by
  rw [complete_eq]
@[simp] theorem complete_drone (c : CmdCode) : (s.complete c).drone = s.drone := by
  rw [complete_eq]
@[simp] theorem complete_fuses (c : CmdCode) : (s.complete c).fuses = s.fuses := by
  rw [complete_eq]
@[simp] theorem complete_pcie (c : CmdCode) : (s.complete c).pcie = s.pcie := by
  rw [complete_eq]
@[simp] theorem complete_qspi (c : CmdCode) : (s.complete c).qspi = s.qspi := by
  rw [complete_eq]
@[simp] theorem complete_drawn (c : CmdCode) : (s.complete c).drawn = s.drawn := by
  rw [complete_eq]
@[simp] theorem complete_lath (c : CmdCode) : (s.complete c).lath = s.lath := by
  rw [complete_eq]
@[simp] theorem complete_journal (c : CmdCode) : (s.complete c).journal = s.journal := by
  rw [complete_eq]
@[simp] theorem complete_returnedPart (c : CmdCode) : (s.complete c).returnedPart = s.returnedPart := by
  rw [complete_eq]
@[simp] theorem complete_shadow (c : CmdCode) : (s.complete c).shadow = s.shadow := by
  rw [complete_eq]
@[simp] theorem complete_registryMem (c : CmdCode) : (s.complete c).registryMem = s.registryMem := by
  rw [complete_eq]
@[simp] theorem complete_stencilMem (c : CmdCode) : (s.complete c).stencilMem = s.stencilMem := by
  rw [complete_eq]
@[simp] theorem complete_captureMem (c : CmdCode) : (s.complete c).captureMem = s.captureMem := by
  rw [complete_eq]
@[simp] theorem complete_spineMem (c : CmdCode) : (s.complete c).spineMem = s.spineMem := by
  rw [complete_eq]
@[simp] theorem complete_faProg (c : CmdCode) : (s.complete c).faProg = s.faProg := by
  rw [complete_eq]
@[simp] theorem complete_faData (c : CmdCode) : (s.complete c).faData = s.faData := by
  rw [complete_eq]
@[simp] theorem complete_memint (c : CmdCode) : (s.complete c).memint = s.memint := by
  rw [complete_eq]
@[simp] theorem complete_rx (c : CmdCode) : (s.complete c).rx = s.rx := by
  rw [complete_eq]
@[simp] theorem complete_tx (c : CmdCode) : (s.complete c).tx = s.tx := by
  rw [complete_eq]
@[simp] theorem complete_syn (c : CmdCode) : (s.complete c).syn = s.syn := by
  rw [complete_eq]
@[simp] theorem complete_tiles (c : CmdCode) : (s.complete c).tiles = s.tiles := by
  rw [complete_eq]
@[simp] theorem complete_bias (c : CmdCode) : (s.complete c).bias = s.bias := by
  rw [complete_eq]
@[simp] theorem complete_aerialLow (c : CmdCode) : (s.complete c).aerialLow = s.aerialLow := by
  rw [complete_eq]
@[simp] theorem complete_aerialBars (c : CmdCode) : (s.complete c).aerialBars = s.aerialBars := by
  rw [complete_eq]
@[simp] theorem complete_spectral (c : CmdCode) : (s.complete c).spectral = s.spectral := by
  rw [complete_eq]
@[simp] theorem complete_sched (c : CmdCode) : (s.complete c).sched = s.sched := by
  rw [complete_eq]
@[simp] theorem complete_fh (c : CmdCode) : (s.complete c).fh = s.fh := by
  rw [complete_eq]
@[simp] theorem complete_doze (c : CmdCode) : (s.complete c).doze = s.doze := by
  rw [complete_eq]
@[simp] theorem complete_cores (c : CmdCode) : (s.complete c).cores = s.cores := by
  rw [complete_eq]
@[simp] theorem complete_hod (c : CmdCode) : (s.complete c).hod = s.hod := by
  rw [complete_eq]
@[simp] theorem complete_bridge (c : CmdCode) : (s.complete c).bridge = s.bridge := by
  rw [complete_eq]
@[simp] theorem complete_time (c : CmdCode) : (s.complete c).time = s.time := by
  rw [complete_eq]
@[simp] theorem complete_cal (c : CmdCode) : (s.complete c).cal = s.cal := by
  rw [complete_eq]
@[simp] theorem complete_mon (c : CmdCode) : (s.complete c).mon = s.mon := by
  rw [complete_eq]
@[simp] theorem complete_budget (c : CmdCode) : (s.complete c).budget = s.budget := by
  rw [complete_eq]
@[simp] theorem complete_hostQueue (c : CmdCode) : (s.complete c).hostQueue = s.hostQueue := by
  rw [complete_eq]
@[simp] theorem complete_out (c : CmdCode) : (s.complete c).out = s.out := by
  rw [complete_eq]
@[simp] theorem complete_core (c : CmdCode) (i : Nat) : (s.complete c).core i = s.core i := by
  simp only [State.core, complete_cores]
@[simp] theorem complete_session (c : CmdCode) (q : Port) : (s.complete c).session q = s.session q := by
  cases q <;> simp only [State.session, complete_pcie, complete_qspi]
@[simp] theorem complete_mem (c : CmdCode) (m : MemId) : (s.complete c).mem m = s.mem m := by
  cases m <;> simp only [State.mem, complete_registryMem, complete_stencilMem, complete_captureMem, complete_spineMem, complete_faProg, complete_faData]
@[simp] theorem complete_job (c : CmdCode) : (s.complete c).job = none := by rw [complete_eq]
@[simp] theorem begin_spineRuns (p : Port) (op : Nat) : (s.begin p op).spineRuns = s.spineRuns := by
  simp only [State.spineRuns, begin_phase]

end Sys2Proof.Laws
end

