-- ==== Sys2Proof/Laws/Settle.lean ====
section
/-! SUPPORT. What settling leaves alone: everything but sessions' time limits, a command that ends, path states and drain
enables, mute switches, event delivery, and the order of frames. -/

namespace Sys2Proof.Laws

open Sys2Proof.Machine

variable (s : State)

/-- The fields that settling may write; with `all`, those too that it writes when it ends a command. -/
def settled (all : Bool) (f : Fld) : Bool :=
  (List.range 64).any (fun p => f.key == (Reg.pathStateState p).key || f.key == (Reg.pathStateFenceReason p).key) ||
    (List.range 8).any (fun t => f.key == (Reg.tileStatusDrain t).key) ||
    (List.range 4).any (fun q => f.key == (Reg.obsStatusBusy q).key) ||
    (all && [Reg.arg 0, Reg.arg 1, Reg.cmdStatusCode, Reg.cmdStatusRunning, Reg.cmdStatusSeq, Reg.evStatus 0].any
      fun g => f.key == g.key)

/-- Settling leaves the running command as it is: there is none, or it does not end in FAULT, is not PATH_PREPARE, and waits
for no synthesizer that locks no more. -/
def quietJob (s : State) : Bool :=
  match s.job with
  | none => true
  | some (.pathPrepare _ _) => false
  | some (.synHop left b) => !(s.dev == .fault && (Job.synHop left b).endsInFault) && !left.any s.synIdle
  | some (.synCal x k) => !(s.dev == .fault && (Job.synCal x k).endsInFault) && !s.synIdle x
  | some j => !(s.dev == .fault && j.endsInFault)

/-- A time limit does not change a session's role. -/
theorem expireSession_role (t : Nat) (x : Session) : (expireSession t x).role = x.role := by
  simp only [expireSession]
  repeat' split
  all_goals rfl

/-- A part of the state that settling does not touch but for sessions' time limits, as seen through its updates. -/
structure Beyond (all : Bool) {β : Type} (g : State → β) : Prop where
  job : all = true → ∀ (s : State) j, g { s with job := j } = g s
  undo : ∀ (s : State), g s.undo = g s
  spans : ∀ (s : State) l a, g { s with rx := { s.rx with spans := l, active := a } } = g s
  closed : ∀ (s : State) l, g { s with tx := { s.tx with closed := l } } = g s
  chain : ∀ (s : State) v l, g { s with tx := { s.tx with view := v, past := l } } = g s
  events : ∀ (s : State) e, g { s with events := e } = g s
  out : ∀ (s : State) l m, g { s with out := { s.out with link := l, msix := m } } = g s
  set : ∀ (s : State) (f : Fld) v, settled all f = true → g (s.setF f v) = g s

/-- A part of the state that settling does not touch. -/
structure Apart (all : Bool) {β : Type} (g : State → β) : Prop extends Beyond all g where
  sessions : ∀ (s : State) a b, a.role = s.pcie.role → b.role = s.qspi.role → g { s with pcie := a, qspi := b } = g s

theorem settled_path (all : Bool) {p : Nat} (h : p < 64) : settled all (Reg.pathStateState p) = true := by
  simp only [settled, Bool.or_eq_true]
  exact .inl (.inl (.inl (List.any_eq_true.mpr ⟨p, List.mem_range.mpr h, by simp⟩)))

theorem settled_reason (all : Bool) {p : Nat} (h : p < 64) : settled all (Reg.pathStateFenceReason p) = true := by
  simp only [settled, Bool.or_eq_true]
  exact .inl (.inl (.inl (List.any_eq_true.mpr ⟨p, List.mem_range.mpr h, by simp⟩)))

theorem settled_drain (all : Bool) {t : Nat} (h : t < 8) : settled all (Reg.tileStatusDrain t) = true := by
  simp only [settled, Bool.or_eq_true]
  exact .inl (.inl (.inr (List.any_eq_true.mpr ⟨t, List.mem_range.mpr h, by simp⟩)))

theorem settled_obs (all : Bool) {q : Nat} (h : q < 4) : settled all (Reg.obsStatusBusy q) = true := by
  simp only [settled, Bool.or_eq_true]
  exact .inl (.inr (List.any_eq_true.mpr ⟨q, List.mem_range.mpr h, by simp⟩))

theorem settled_arg0 : settled true (Reg.arg 0) = true := by decide +kernel
theorem settled_arg1 : settled true (Reg.arg 1) = true := by decide +kernel
theorem settled_code : settled true Reg.cmdStatusCode = true := by decide +kernel
theorem settled_running : settled true Reg.cmdStatusRunning = true := by decide +kernel
theorem settled_seq : settled true Reg.cmdStatusSeq = true := by decide +kernel
theorem settled_status : settled true (Reg.evStatus 0) = true := by decide +kernel

/-- What holds for each element of a list done in order. -/
theorem each_frame_mem {α β : Type} (g : State → β) (f : State → α → State) (l : List α)
    (h : ∀ x ∈ l, ∀ s, g (f s x) = g s) : ∀ s : State, g (s.each l f) = g s := by
  induction l with
  | nil => intro s; rfl
  | cons x t ih =>
    intro s
    exact (ih (fun y hy => h y (List.mem_cons_of_mem x hy)) (f s x)).trans (h x (List.mem_cons_self ..) s)

section
variable {β : Type} {g : State → β}

theorem Beyond.raise_low (a : Beyond true g) {n : Nat} (h : n < 32) (s : State) : g (s.raise n) = g s := by
  simp only [State.raise]
  rw [a.events]
  split
  · rfl
  · have : n / 32 = 0 := Nat.div_eq_of_lt h
    rw [this]
    exact a.set _ _ _ settled_status

theorem Beyond.complete (a : Beyond true g) (c : CmdCode) (s : State) : g (s.complete c) = g s := by
  simp only [State.complete, State.addWrap]
  rw [a.raise_low (by decide), a.set _ _ _ settled_seq, a.set _ _ _ settled_running,
    a.set _ _ _ settled_code, a.job rfl]

theorem Apart.sessions_settle {all : Bool} (a : Apart all g) : g s.settleSessions = g s :=
  a.sessions _ _ _ (expireSession_role _ _) (expireSession_role _ _)

theorem Beyond.jobs_settle (a : Beyond true g) : g s.settleJobs = g s := by
  simp only [State.settleJobs]
  split
  · rfl
  · split
    · rw [a.raise_low (by decide), a.complete]
      simp only [State.results]
      exact a.set _ _ _ settled_arg0
    · split
      · split
        · simp only [State.completeDone, State.results]
          rw [a.complete]
          exact (a.set _ _ _ settled_arg1).trans (a.set _ _ _ settled_arg0)
        · exact a.job rfl _ _
      all_goals first
        | rfl
        | (split
           · exact a.complete _ _
           · rfl)

theorem Beyond.obs_settle {all : Bool} (a : Beyond all g) : g s.settleObs = g s := by
  refine each_frame_mem g _ _ (fun q hq s => ?_) s
  split
  · split
    · exact a.set _ _ _ (settled_obs _ (List.mem_range.mp hq))
    · rfl
  · rfl

theorem Beyond.paths_settle {all : Bool} (a : Beyond all g) : g s.settlePaths = g s := by
  simp only [State.settlePaths]
  split
  · rfl
  · refine each_frame_mem g _ _ (fun p hp s => ?_) s
    split
    · rw [a.undo]
      simp only [State.setPath]
      rw [a.set _ _ _ (settled_reason _ (List.mem_range.mp hp)), a.set _ _ _ (settled_path _ (List.mem_range.mp hp))]
    · rfl

theorem Beyond.span_add {all : Bool} (a : Beyond all g) (lo hi : Nat) (c : Option Nat) (k : SpanCause) (x : Nat)
    (y : Option Nat) : g (s.addSpan lo hi c k x y) = g s := a.spans s _ s.rx.active

theorem Beyond.active_now {all : Bool} (a : Beyond all g) (p : Nat) : g (s.nowActive p) = g s := by
  simp only [State.nowActive]
  split
  · exact a.spans s _ s.rx.active
  · exact a.span_add s _ _ _ _ _ _

theorem Beyond.active_settle {all : Bool} (a : Beyond all g) : g s.settleActive = g s := by
  simp only [State.settleActive]
  split
  · rfl
  · refine (a.spans _ _ _).trans ?_
    rw [each_frame g _ fun s p => a.span_add s _ _ _ _ _ _, each_frame g _ fun s p => a.active_now s p]

theorem Beyond.drains_settle {all : Bool} (a : Beyond all g) : g s.settleDrains = g s :=
  each_frame_mem g _ _ (fun _ ht s => a.set s _ _ (settled_drain _ (List.mem_range.mp ht))) s

theorem Beyond.mutes_settle {all : Bool} (a : Beyond all g) : g s.settleMutes = g s := a.closed _ _

theorem Beyond.chain_settle {all : Bool} (a : Beyond all g) : g s.settleChain = g s := by
  simp only [State.settleChain]
  split
  · rfl
  · exact a.chain s _ _

theorem Beyond.events_settle {all : Bool} (a : Beyond all g) : g s.settleEvents = g s := by
  simp only [State.settleEvents]
  rw [each_frame g _ (fun s v => ?_), a.events]
  simp only [State.sendVector]
  split
  · exact a.events _ _
  · exact a.out s _ _

/-- A quiet command stays. -/
theorem jobs_settle_quiet (h : quietJob s = true) : s.settleSessions.settleJobs = s.settleSessions := by
  have hj : s.settleSessions.job = s.job := rfl
  have hd : s.settleSessions.dev = s.dev := rfl
  have hx : s.settleSessions.synIdle = s.synIdle := rfl
  simp only [State.settleJobs, hj, hd, hx]
  revert h
  unfold quietJob
  cases s.job with
  | none => simp
  | some j => cases j <;> simp [Job.endsInFault] <;> intros <;> simp_all

/-- Settling leaves what stands beyond its updates, once the sessions' time limits have run out. -/
theorem Beyond.settle (a : Beyond true g) : g (settle s) = g s.settleSessions := by
  simp only [Machine.settle, State.settleLink]
  rw [a.out _ _ _, a.events_settle, a.chain_settle, a.mutes_settle, a.drains_settle, a.active_settle, a.paths_settle,
    a.obs_settle, a.jobs_settle]

/-- Settling leaves what stands apart from its updates. -/
theorem Apart.settle (a : Apart true g) : g (settle s) = g s := (a.toBeyond.settle s).trans (a.sessions_settle s)

/-- While the command is quiet, settling leaves what stands apart from its other updates. -/
theorem Apart.settle_quiet {all : Bool} (a : Apart all g) (h : quietJob s = true) : g (Machine.settle s) = g s := by
  simp only [Machine.settle, State.settleLink]
  rw [a.out _ _ _, a.events_settle, a.chain_settle, a.mutes_settle, a.drains_settle, a.active_settle, a.paths_settle,
    a.obs_settle, jobs_settle_quiet s h, a.sessions_settle]

end

/-! ### The parts that stand apart -/

theorem apart_phase : Apart true State.phase := 
  ⟨by constructor <;> intros <;> rfl, fun _ _ _ _ _ => rfl⟩
theorem apart_dev : Apart true State.dev := 
  ⟨by constructor <;> intros <;> rfl, fun _ _ _ _ _ => rfl⟩
theorem apart_prev : Apart true State.prev := 
  ⟨by constructor <;> intros <;> rfl, fun _ _ _ _ _ => rfl⟩
theorem apart_holdFrom : Apart true State.holdFrom := 
  ⟨by constructor <;> intros <;> rfl, fun _ _ _ _ _ => rfl⟩
theorem apart_analogWest : Apart true State.analogWest := 
  ⟨by constructor <;> intros <;> rfl, fun _ _ _ _ _ => rfl⟩
theorem apart_analogEast : Apart true State.analogEast := 
  ⟨by constructor <;> intros <;> rfl, fun _ _ _ _ _ => rfl⟩
theorem apart_drone : Apart true State.drone := 
  ⟨by constructor <;> intros <;> rfl, fun _ _ _ _ _ => rfl⟩
theorem apart_fuses : Apart true State.fuses := 
  ⟨by constructor <;> intros <;> rfl, fun _ _ _ _ _ => rfl⟩
theorem apart_drawn : Apart true State.drawn := 
  ⟨by constructor <;> intros <;> rfl, fun _ _ _ _ _ => rfl⟩
theorem apart_lath : Apart true State.lath := 
  ⟨by constructor <;> intros <;> rfl, fun _ _ _ _ _ => rfl⟩
theorem apart_journal : Apart true State.journal := 
  ⟨by constructor <;> intros <;> rfl, fun _ _ _ _ _ => rfl⟩
theorem apart_returnedPart : Apart true State.returnedPart := 
  ⟨by constructor <;> intros <;> rfl, fun _ _ _ _ _ => rfl⟩
theorem apart_shadow : Apart true State.shadow := 
  ⟨by constructor <;> intros <;> rfl, fun _ _ _ _ _ => rfl⟩
theorem apart_registryMem : Apart true State.registryMem := 
  ⟨by constructor <;> intros <;> rfl, fun _ _ _ _ _ => rfl⟩
theorem apart_stencilMem : Apart true State.stencilMem := 
  ⟨by constructor <;> intros <;> rfl, fun _ _ _ _ _ => rfl⟩
theorem apart_captureMem : Apart true State.captureMem := 
  ⟨by constructor <;> intros <;> rfl, fun _ _ _ _ _ => rfl⟩
theorem apart_spineMem : Apart true State.spineMem := 
  ⟨by constructor <;> intros <;> rfl, fun _ _ _ _ _ => rfl⟩
theorem apart_faProg : Apart true State.faProg := 
  ⟨by constructor <;> intros <;> rfl, fun _ _ _ _ _ => rfl⟩
theorem apart_faData : Apart true State.faData := 
  ⟨by constructor <;> intros <;> rfl, fun _ _ _ _ _ => rfl⟩
theorem apart_memint : Apart true State.memint := 
  ⟨by constructor <;> intros <;> rfl, fun _ _ _ _ _ => rfl⟩
theorem apart_syn : Apart true State.syn := 
  ⟨by constructor <;> intros <;> rfl, fun _ _ _ _ _ => rfl⟩
theorem apart_tiles : Apart true State.tiles := 
  ⟨by constructor <;> intros <;> rfl, fun _ _ _ _ _ => rfl⟩
theorem apart_bias : Apart true State.bias := 
  ⟨by constructor <;> intros <;> rfl, fun _ _ _ _ _ => rfl⟩
theorem apart_aerialLow : Apart true State.aerialLow := 
  ⟨by constructor <;> intros <;> rfl, fun _ _ _ _ _ => rfl⟩
theorem apart_aerialBars : Apart true State.aerialBars := 
  ⟨by constructor <;> intros <;> rfl, fun _ _ _ _ _ => rfl⟩
theorem apart_spectral : Apart true State.spectral := 
  ⟨by constructor <;> intros <;> rfl, fun _ _ _ _ _ => rfl⟩
theorem apart_fh : Apart true State.fh := 
  ⟨by constructor <;> intros <;> rfl, fun _ _ _ _ _ => rfl⟩
theorem apart_doze : Apart true State.doze := 
  ⟨by constructor <;> intros <;> rfl, fun _ _ _ _ _ => rfl⟩
theorem apart_cores : Apart true State.cores := 
  ⟨by constructor <;> intros <;> rfl, fun _ _ _ _ _ => rfl⟩
theorem apart_hod : Apart true State.hod := 
  ⟨by constructor <;> intros <;> rfl, fun _ _ _ _ _ => rfl⟩
theorem apart_bridge : Apart true State.bridge := 
  ⟨by constructor <;> intros <;> rfl, fun _ _ _ _ _ => rfl⟩
theorem apart_time : Apart true State.time := 
  ⟨by constructor <;> intros <;> rfl, fun _ _ _ _ _ => rfl⟩
theorem apart_cal : Apart true State.cal := 
  ⟨by constructor <;> intros <;> rfl, fun _ _ _ _ _ => rfl⟩
theorem apart_mon : Apart true State.mon := 
  ⟨by constructor <;> intros <;> rfl, fun _ _ _ _ _ => rfl⟩
theorem apart_budget : Apart true State.budget := 
  ⟨by constructor <;> intros <;> rfl, fun _ _ _ _ _ => rfl⟩
theorem apart_hostQueue : Apart true State.hostQueue := 
  ⟨by constructor <;> intros <;> rfl, fun _ _ _ _ _ => rfl⟩
theorem apart_pending : Apart true State.pending := 
  ⟨by constructor <;> intros <;> rfl, fun _ _ _ _ _ => rfl⟩

@[simp] theorem settle_phase : (settle s).phase = s.phase := apart_phase.settle s
@[simp] theorem settle_dev : (settle s).dev = s.dev := apart_dev.settle s
@[simp] theorem settle_prev : (settle s).prev = s.prev := apart_prev.settle s
@[simp] theorem settle_holdFrom : (settle s).holdFrom = s.holdFrom := apart_holdFrom.settle s
@[simp] theorem settle_analogWest : (settle s).analogWest = s.analogWest := apart_analogWest.settle s
@[simp] theorem settle_analogEast : (settle s).analogEast = s.analogEast := apart_analogEast.settle s
@[simp] theorem settle_drone : (settle s).drone = s.drone := apart_drone.settle s
@[simp] theorem settle_fuses : (settle s).fuses = s.fuses := apart_fuses.settle s
@[simp] theorem settle_drawn : (settle s).drawn = s.drawn := apart_drawn.settle s
@[simp] theorem settle_lath : (settle s).lath = s.lath := apart_lath.settle s
@[simp] theorem settle_journal : (settle s).journal = s.journal := apart_journal.settle s
@[simp] theorem settle_returnedPart : (settle s).returnedPart = s.returnedPart := apart_returnedPart.settle s
@[simp] theorem settle_shadow : (settle s).shadow = s.shadow := apart_shadow.settle s
@[simp] theorem settle_registryMem : (settle s).registryMem = s.registryMem := apart_registryMem.settle s
@[simp] theorem settle_stencilMem : (settle s).stencilMem = s.stencilMem := apart_stencilMem.settle s
@[simp] theorem settle_captureMem : (settle s).captureMem = s.captureMem := apart_captureMem.settle s
@[simp] theorem settle_spineMem : (settle s).spineMem = s.spineMem := apart_spineMem.settle s
@[simp] theorem settle_faProg : (settle s).faProg = s.faProg := apart_faProg.settle s
@[simp] theorem settle_faData : (settle s).faData = s.faData := apart_faData.settle s
@[simp] theorem settle_memint : (settle s).memint = s.memint := apart_memint.settle s
@[simp] theorem settle_syn : (settle s).syn = s.syn := apart_syn.settle s
@[simp] theorem settle_tiles : (settle s).tiles = s.tiles := apart_tiles.settle s
@[simp] theorem settle_bias : (settle s).bias = s.bias := apart_bias.settle s
@[simp] theorem settle_aerialLow : (settle s).aerialLow = s.aerialLow := apart_aerialLow.settle s
@[simp] theorem settle_aerialBars : (settle s).aerialBars = s.aerialBars := apart_aerialBars.settle s
@[simp] theorem settle_spectral : (settle s).spectral = s.spectral := apart_spectral.settle s
@[simp] theorem settle_fh : (settle s).fh = s.fh := apart_fh.settle s
@[simp] theorem settle_doze : (settle s).doze = s.doze := apart_doze.settle s
@[simp] theorem settle_cores : (settle s).cores = s.cores := apart_cores.settle s
@[simp] theorem settle_hod : (settle s).hod = s.hod := apart_hod.settle s
@[simp] theorem settle_bridge : (settle s).bridge = s.bridge := apart_bridge.settle s
@[simp] theorem settle_time : (settle s).time = s.time := apart_time.settle s
@[simp] theorem settle_cal : (settle s).cal = s.cal := apart_cal.settle s
@[simp] theorem settle_mon : (settle s).mon = s.mon := apart_mon.settle s
@[simp] theorem settle_budget : (settle s).budget = s.budget := apart_budget.settle s
@[simp] theorem settle_hostQueue : (settle s).hostQueue = s.hostQueue := apart_hostQueue.settle s
@[simp] theorem settle_pending : (settle s).pending = s.pending := apart_pending.settle s

/-- Settling keeps a field that it does not write. -/
theorem apart_getF {all : Bool} {f : Fld} (h : settled all f = false) : Apart all fun s => s.getF f := by
  refine ⟨?_, fun _ _ _ _ _ => rfl⟩
  constructor <;> intros <;> try rfl
  rename_i t g v hg
  refine getF_setF_ne _ (fun e => ?_) _
  rw [settled, e, ← settled, hg] at h
  exact absurd h (by decide)

theorem settle_getF {f : Fld} (h : settled true f = false) : (settle s).getF f = s.getF f := (apart_getF h).settle s

theorem settle_flag {f : Fld} (h : settled true f = false) : (settle s).flag f = s.flag f := by
  simp [State.flag, settle_getF s h]

theorem settle_getF_quiet {f : Fld} (hq : quietJob s = true) (h : settled false f = false) :
    (settle s).getF f = s.getF f := (apart_getF h).settle_quiet s hq

/-- A quiet command stays. -/
theorem settle_job (hq : quietJob s = true) : (settle s).job = s.job := by
  have a : Apart false State.job := by
    constructor
    · constructor
      case job => intro h; exact absurd h (by decide)
      all_goals intros; rfl
    · intros; rfl
  exact a.settle_quiet s hq

@[simp] theorem settle_core (n : Nat) : (settle s).core n = s.core n := by simp [State.core]

@[simp] theorem settle_mem (m : MemId) : (settle s).mem m = s.mem m := by cases m <;> simp [State.mem]

@[simp] theorem settle_getSh (f : Fld) : (settle s).getSh f = s.getSh f := by simp [State.getSh]

@[simp] theorem settle_role (p : Port) : ((settle s).session p).role = (s.session p).role := by
  have a : Apart true fun s : State => ((s.session p).role) :=
    ⟨by constructor <;> intros <;> cases p <;> rfl, by intros; cases p <;> assumption⟩
  exact a.settle s

@[simp] theorem settle_reads : (settle s).out.reads = s.out.reads := by
  have a : Apart true fun s : State => s.out.reads :=
    ⟨by constructor <;> intros <;> rfl, fun _ _ _ _ _ => rfl⟩
  exact a.settle s

@[simp] theorem settle_qspiOut : (settle s).out.qspi = s.out.qspi := by
  have a : Apart true fun s : State => s.out.qspi :=
    ⟨by constructor <;> intros <;> rfl, fun _ _ _ _ _ => rfl⟩
  exact a.settle s

@[simp] theorem settle_bridgeOut : (settle s).out.bridge = s.out.bridge := by
  have a : Apart true fun s : State => s.out.bridge :=
    ⟨by constructor <;> intros <;> rfl, fun _ _ _ _ _ => rfl⟩
  exact a.settle s

@[simp] theorem settle_rffe : (settle s).out.rffe = s.out.rffe := by
  have a : Apart true fun s : State => s.out.rffe :=
    ⟨by constructor <;> intros <;> rfl, fun _ _ _ _ _ => rfl⟩
  exact a.settle s

@[simp] theorem settle_hostOut : (settle s).out.host = s.out.host := by
  have a : Apart true fun s : State => s.out.host :=
    ⟨by constructor <;> intros <;> rfl, fun _ _ _ _ _ => rfl⟩
  exact a.settle s

/-- Settling lets the time limits of a session run out and changes nothing else of it. -/
theorem settle_session (p : Port) : (settle s).session p = expireSession s.drone.ticks (s.session p) := by
  have a : Beyond true fun s : State => s.session p := by constructor <;> intros <;> cases p <;> rfl
  rw [a.settle s]
  cases p <;> rfl

/-- Settling changes nothing of the receive state but the runs of invalid samples and which paths count as ACTIVE. -/
theorem settle_rx :
    (settle s).rx = { s.rx with spans := (settle s).rx.spans, active := (settle s).rx.active } := by
  have a : Apart true fun s : State => ({ s.rx with spans := [], active := [] } : RxState) :=
    ⟨by constructor <;> intros <;> rfl, fun _ _ _ _ _ => rfl⟩
  have h := a.settle s
  generalize (settle s).rx = x at h ⊢
  cases x
  simp_all

/-- Settling changes nothing of the transmit state but which mute switches are closed, and what the chains go by. -/
theorem settle_tx : (settle s).tx =
    { s.tx with closed := (settle s).tx.closed, view := (settle s).tx.view, past := (settle s).tx.past } := by
  have a : Apart true fun s : State => ({ s.tx with closed := [], view := ⟨[], [], [], []⟩, past := [] } : TxState) :=
    ⟨by constructor <;> intros <;> rfl, fun _ _ _ _ _ => rfl⟩
  have h := a.settle s
  generalize (settle s).tx = x at h ⊢
  cases x
  simp_all

/-- Settling changes nothing of the scheduler but which preparation is stale. -/
theorem settle_sched : (settle s).sched = { s.sched with staleFrom := (settle s).sched.staleFrom } := by
  have a : Apart true fun s : State => ({ s.sched with staleFrom := none } : SchedState) :=
    ⟨by constructor <;> intros <;> rfl, fun _ _ _ _ _ => rfl⟩
  have h := a.settle s
  generalize (settle s).sched = x at h ⊢
  cases x
  simp_all

end Sys2Proof.Laws
end

