-- ==== Sys2Proof/Laws/Commands.lean ====
section
/-! SUPPORT. What the framework of the command register does, once for all commands: the checks that a command passes or
fails, what starting and completing one changes, and which fields settling leaves. -/

namespace Sys2Proof.Laws

open Sys2Proof.Machine

variable (s : State)

/-! ### Fields that settling leaves -/

theorem Fld.key_ne {f g : Fld} (h : f.addr ≠ g.addr) (hf : f.lo < 32) (hg : g.lo < 32) : f.key ≠ g.key := by
  unfold Fld.key
  omega

/-- Settling writes no field below the path block but those of a command's end, and none above the tile block. -/
theorem settled_outside {f : Fld} (hl : f.lo < 32)
    (h : f.addr < 0x400000 ∧ f.addr ≠ 0x44 ∧ f.addr ≠ 0x80 ∧ f.addr ≠ 0x84 ∧ f.addr ≠ 0x100000 ∨ 0x700000 ≤ f.addr) :
    settled true f = false := by
  simp only [settled, Bool.or_eq_false_iff, List.any_eq_false, List.mem_range, Bool.true_and, Bool.or_eq_true, not_or,
    beq_iff_eq, Fld.key, Reg.pathStateState, Reg.pathStateFenceReason, Reg.tileStatusDrain, Reg.obsStatusBusy]
  refine ⟨⟨⟨fun p hp => ?_, fun t ht => ?_⟩, fun q hq => ?_⟩, ?_⟩
  · omega
  · omega
  · omega
  · intro x hx
    simp only [List.mem_cons, List.not_mem_nil, or_false] at hx
    rcases hx with rfl | rfl | rfl | rfl | rfl | rfl <;>
      simp only [Reg.arg, Reg.cmdStatusCode, Reg.cmdStatusRunning, Reg.cmdStatusSeq, Reg.evStatus] <;> omega

/-! ### Fields that starting and ending a command leave -/

/-- The fields that starting or ending a command writes. -/
def reported (f : Fld) : Bool :=
  [Reg.cmdStatusCode, Reg.cmdStatusRunning, Reg.cmdStatusPort, Reg.cmdStatusOpcode, Reg.cmdStatusSeq,
    Reg.evStatus 0].any fun g => f.key == g.key

theorem reported_iff {f : Fld} : reported f = false ↔
    f.key ≠ Reg.cmdStatusCode.key ∧ f.key ≠ Reg.cmdStatusRunning.key ∧ f.key ≠ Reg.cmdStatusPort.key ∧
      f.key ≠ Reg.cmdStatusOpcode.key ∧ f.key ≠ Reg.cmdStatusSeq.key ∧ f.key ≠ (Reg.evStatus 0).key := by
  simp only [reported, List.any_cons, List.any_nil, Bool.or_false, Bool.or_eq_false_iff, beq_eq_false_iff_ne, ne_eq]

/-- Starting a command writes CMD_STATUS only. -/
theorem begin_getF {f : Fld} (h : reported f = false) (p : Port) (op : Nat) : (s.begin p op).getF f = s.getF f := by
  obtain ⟨a, b, c, d, -, -⟩ := reported_iff.mp h
  simp only [State.begin]
  rw [getF_setF_ne _ d, getF_setF_ne _ c, getF_setF_ne _ a, getF_setF_ne _ b]

theorem begin_flag {f : Fld} (h : reported f = false) (p : Port) (op : Nat) : (s.begin p op).flag f = s.flag f := by
  simp only [State.flag, begin_getF s h]

theorem begin_argW {i : Nat} (hi : i < 65536) (p : Port) (op : Nat) : (s.begin p op).argW i = s.argW i := by
  refine begin_getF s (reported_iff.mpr ⟨?_, ?_, ?_, ?_, ?_, ?_⟩) p op <;>
    simp only [Fld.key, Reg.arg, Reg.cmdStatusCode, Reg.cmdStatusRunning, Reg.cmdStatusPort, Reg.cmdStatusOpcode,
      Reg.cmdStatusSeq, Reg.evStatus] <;> omega

theorem begin_port (p : Port) (op : Nat) : (s.begin p op).getF Reg.cmdStatusPort = portCode p := by
  simp only [State.begin]
  rw [getF_setF_ne _ (by decide), getF_setF_same]
  cases p <;> rfl

theorem begin_opcode (p : Port) (op : Nat) : (s.begin p op).getF Reg.cmdStatusOpcode = op % 256 := by
  simp only [State.begin]
  rw [getF_setF_same]
  rfl

theorem begin_running (p : Port) (op : Nat) : (s.begin p op).getF Reg.cmdStatusRunning = 1 := by
  simp only [State.begin]
  rw [getF_setF_ne _ (by decide), getF_setF_ne _ (by decide), getF_setF_ne _ (by decide), getF_setF_same]
  rfl

theorem begin_code (p : Port) (op : Nat) : (s.begin p op).getF Reg.cmdStatusCode = 1 := by
  simp only [State.begin]
  rw [getF_setF_ne _ (by decide), getF_setF_ne _ (by decide), getF_setF_same]
  rfl

theorem begin_seq (p : Port) (op : Nat) : (s.begin p op).getF Reg.cmdStatusSeq = s.getF Reg.cmdStatusSeq := by
  simp only [State.begin]
  rw [getF_setF_ne _ (by decide), getF_setF_ne _ (by decide), getF_setF_ne _ (by decide), getF_setF_ne _ (by decide)]

/-- Ending a command leaves every field but CODE, RUNNING, SEQ and the first STATUS word. -/
theorem complete_getF {f : Fld} (h : reported f = false) (c : CmdCode) : (s.complete c).getF f = s.getF f := by
  obtain ⟨a, b, -, -, d, e⟩ := reported_iff.mp h
  simp only [State.complete, State.addWrap]
  rw [raise_getF _ 8 e, getF_setF_ne _ d, getF_setF_ne _ b, getF_setF_ne _ a]
  rfl

theorem complete_flag {f : Fld} (h : reported f = false) (c : CmdCode) : (s.complete c).flag f = s.flag f := by
  simp only [State.flag, complete_getF s h]

theorem complete_port (c : CmdCode) : (s.complete c).getF Reg.cmdStatusPort = s.getF Reg.cmdStatusPort := by
  simp only [State.complete, State.addWrap]
  rw [raise_getF _ 8 (by decide), getF_setF_ne _ (by decide), getF_setF_ne _ (by decide), getF_setF_ne _ (by decide)]
  rfl

theorem complete_opcode (c : CmdCode) : (s.complete c).getF Reg.cmdStatusOpcode = s.getF Reg.cmdStatusOpcode := by
  simp only [State.complete, State.addWrap]
  rw [raise_getF _ 8 (by decide), getF_setF_ne _ (by decide), getF_setF_ne _ (by decide), getF_setF_ne _ (by decide)]
  rfl

theorem complete_code (c : CmdCode) : (s.complete c).getF Reg.cmdStatusCode = c.code := by
  simp only [State.complete, State.addWrap]
  rw [raise_getF _ 8 (by decide), getF_setF_ne _ (by decide), getF_setF_ne _ (by decide), getF_setF_same]
  cases c <;> rfl

theorem complete_running (c : CmdCode) : (s.complete c).getF Reg.cmdStatusRunning = 0 := by
  simp only [State.complete, State.addWrap]
  rw [raise_getF _ 8 (by decide), getF_setF_ne _ (by decide), getF_setF_same]
  rfl

theorem complete_seq (c : CmdCode) :
    (s.complete c).getF Reg.cmdStatusSeq = (s.getF Reg.cmdStatusSeq + 1) % 65536 := by
  simp only [State.complete, State.addWrap]
  rw [raise_getF _ 8 (by decide), getF_setF_same, getF_setF_ne _ (by decide), getF_setF_ne _ (by decide)]
  rfl

theorem complete_event (c : CmdCode) : testBit ((s.complete c).getF (Reg.evStatus 0)) 8 = true := by
  simp only [State.complete]
  exact raise_status _ 8

/-- Writing results leaves every field that lies outside the argument block. -/
theorem results_getF {f : Fld} (l : List Nat) (h : ∀ i, i < l.length → f.key ≠ (Reg.arg i).key) :
    (s.results l).getF f = s.getF f := by
  refine each_frame_mem (fun s => s.getF f) _ _ (fun x hx s => ?_) s
  refine getF_setF_ne s (h _ ?_) _
  exact List.mem_range.mp (List.of_mem_zip hx).1

theorem arg_key_ne {f : Fld} {n : Nat} (hl : f.lo < 32) (h : f.addr < 0x80 ∨ 0x80 + 4 * n ≤ f.addr) :
    ∀ i, i < n → f.key ≠ (Reg.arg i).key := by
  intro i hi
  simp only [Fld.key, Reg.arg]
  omega

/-- A result word reads as it was written. -/
theorem results_arg (l : List Nat) : (s.results l).resultsAre l := by
  suffices h : ∀ (k : Nat) (l : List Nat) (t : State) (i : Nat), i < l.length →
      (t.each ((List.range' k l.length).zip l) fun s p => s.setF (Reg.arg p.1) p.2).getF (Reg.arg (k + i)) =
        l.getD i 0 % 2 ^ 32 by
    intro i hi
    have := h 0 l s i hi
    simpa [State.results, List.range_eq_range'] using this
  intro k l
  induction l generalizing k with
  | nil => intro t i hi; exact absurd hi (by simp)
  | cons x l ih =>
    intro t i hi
    simp only [List.length_cons, List.range'_succ, List.zip_cons_cons, State.each, List.foldl_cons]
    cases i with
    | succ i =>
      have := ih (k + 1) (t.setF (Reg.arg k) x) i (by simpa using hi)
      simp only [State.each] at this
      have e : k + (i + 1) = k + 1 + i := by omega
      rw [e, this]
      simp
    | zero =>
      have hf := each_frame_mem (fun s => s.getF (Reg.arg k)) (fun s (p : Nat × Nat) => s.setF (Reg.arg p.1) p.2)
        ((List.range' (k + 1) l.length).zip l) (fun y hy s => by
          refine getF_setF_ne s ?_ _
          have := List.mem_range'.mp (List.of_mem_zip hy).1
          simp only [Fld.key, Reg.arg]
          omega) (t.setF (Reg.arg k) x)
      simp only [State.each, Nat.add_zero] at hf ⊢
      rw [hf, getF_setF_same]
      simp [Reg.arg]

/-- Nothing waits to be settled after a command has ended. -/
theorem quiet_of_none (h : s.job = none) : quietJob s = true := by simp [quietJob, h]

/-! ### Issuing -/

/-- The readiness of a port in the framework's own tests. -/
theorem ready_tests {p : Port} (h : s.ready p) :
    s.spineRuns = true ∧ s.portWaits p = false ∧ s.claimedFrom p = false ∧ s.flag Reg.cmdStatusRunning = false := by
  obtain ⟨a, q, -, b, c⟩ := h
  refine ⟨a, by simpa [State.portWaits] using q, ?_, ?_⟩
  · simp only [State.claimedFrom, State.claimOwner]
    generalize s.getF Reg.cmdClaimOwner = n at b
    match n with
    | 0 => rfl
    | 1 => cases p <;> first | rfl | exact absurd rfl b
    | 2 => cases p <;> first | rfl | exact absurd rfl b
    | n + 3 => rfl
  · simp [State.flag, c]

/-- A command of a ready port starts. -/
theorem issue_ready {p : Port} (h : s.ready p) (op : Nat) (go : State → State) :
    s.issue p op go = go (s.begin p op) := by
  obtain ⟨a, q, b, c⟩ := ready_tests s h
  simp [State.issue, a, q, b, c]

/-- A port that is ready is ready when its access comes. -/
theorem framed_ready {p : Port} (h : s.ready p) : (s.framed p).ready p := by
  obtain ⟨a, q, w, b, c⟩ := h
  refine ⟨by simpa [State.spineRuns] using a, fun x hx => q x ?_, ?_, by simpa using b, by simpa using c⟩ <;> cases p
  · exact hx
  · exact (List.mem_filter.mp hx).1
  · exact w
  · exact w

/-- A ready port stays ready when the outputs are emptied. -/
theorem ready_out {p : Port} (h : s.ready p) : ({ s with out := .empty } : State).ready p := h

/-- A command that passes every check runs. -/
theorem check_runs (c : CmdSpec) (p : Port) (hs : c.states s.dev = true) (hr : c.role s.dev (s.session p).role = true)
    (ha : c.argOk s = true) (hb : c.classes.any s.deferred = false) (hw : c.usesPath = true → s.dev ≠ .doze) :
    c.check p s = c.run p s := by
  unfold CmdSpec.check
  have : (c.usesPath && s.dev == .doze) = false := by
    cases hu : c.usesPath
    · rfl
    · simp [hw hu]
  simp [hs, hr, ha, hb, this]

/-- What a completed command leaves for the reader of CMD_STATUS, through settling. -/
theorem settle_ended (u : State) (s : State) (p : Port) (op : Nat) (c : CmdCode)
    (hp : u.getF Reg.cmdStatusPort = portCode p) (ho : u.getF Reg.cmdStatusOpcode = op)
    (hq : u.getF Reg.cmdStatusSeq = s.getF Reg.cmdStatusSeq) :
    s.ended (settle (u.complete c)) p op c.code := by
  have hj : quietJob (u.complete c) = true := quiet_of_none _ (complete_job u c)
  refine ⟨⟨?_, ?_, ?_, ?_⟩, ?_, ?_, ?_⟩
  · rw [settle_getF_quiet _ hj (by decide +kernel), complete_port, hp]
  · rw [settle_getF_quiet _ hj (by decide +kernel), complete_opcode, ho]
  · rw [settle_getF_quiet _ hj (by decide +kernel), complete_code]
  · rw [settle_getF_quiet _ hj (by decide +kernel), complete_running]
  · rw [settle_getF_quiet _ hj (by decide +kernel), complete_seq, hq]
  · rw [settle_job _ hj, complete_job]
  · rw [settle_getF_quiet _ hj (by decide +kernel)]
    exact complete_event u c

end Sys2Proof.Laws
end

