-- ==== Sys2Proof/Laws/Memory.lean ====
section
/-! SUPPORT. The coded memories: what a byte reads as after bytes are stored, that every operation keeps the canonical
form, and what reading, writing and journalling leave of the rest of the state. -/

namespace Sys2Proof.Laws

open Sys2Proof.Machine

/-! ### One memory -/

/-- The cells of a run lie inside it and are not 0. -/
theorem runCells_mem (l : List Byte) : ∀ (a : Nat) (c : Host.Cell), c ∈ runCells a l →
    a ≤ c.1 ∧ c.1 < a + l.length ∧ c.2 ≠ 0 := by
  induction l with
  | nil => intro a c h; exact absurd h (by simp [runCells])
  | cons b t ih =>
    intro a c h
    simp only [runCells] at h
    simp only [List.length_cons]
    split at h
    · obtain ⟨h1, h2, h3⟩ := ih (a + 1) c h
      exact ⟨by omega, by omega, h3⟩
    · rcases List.mem_cons.mp h with rfl | h
      · exact ⟨Nat.le_refl a, by simp, by assumption⟩
      · obtain ⟨h1, h2, h3⟩ := ih (a + 1) c h
        exact ⟨by omega, by omega, h3⟩

/-- The cells of a run are in canonical form. -/
theorem runCells_wf (l : List Byte) : ∀ a, mapWf 0 (runCells a l) = true := by
  induction l with
  | nil => intro a; rfl
  | cons b t ih =>
    intro a
    simp only [runCells]
    split
    · exact ih (a + 1)
    · rename_i hb
      have hk : keysAbove a (runCells (a + 1) t) = true := keysAbove_of_mem fun q hq => by
        have := runCells_mem t (a + 1) q hq
        omega
      simp only [mapWf, Bool.and_eq_true, decide_eq_true_eq]
      exact ⟨⟨hb, hk⟩, ih (a + 1)⟩

/-- Storing bytes keeps the canonical form. -/
theorem setBytes_wf (x : CodedMem) (h : x.wf = true) (a : Nat) (l : List Byte) : (x.setBytes a l).wf = true := by
  simp only [CodedMem.wf, CodedMem.setBytes, Bool.and_eq_true] at h ⊢
  refine ⟨?_, h.2⟩
  rw [List.append_assoc]
  refine mapWf_append _ _ _ (mapWf_filter _ _ _ h.1) (mapWf_append _ _ _ (runCells_wf l a) (mapWf_filter _ _ _ h.1) ?_) ?_
  · intro p hp q hq
    have h1 := runCells_mem l a p hp
    have h2 := (List.mem_filter.mp hq).2
    simp only [decide_eq_true_eq] at h2
    omega
  · intro p hp q hq
    have h1 := (List.mem_filter.mp hp).2
    simp only [decide_eq_true_eq] at h1
    rcases List.mem_append.mp hq with hq | hq
    · have h2 := runCells_mem l a q hq
      omega
    · have h2 := (List.mem_filter.mp hq).2
      simp only [decide_eq_true_eq] at h2
      omega

/-- A key that no entry of the first part has is read in the second. -/
theorem mapGet_append_of_absent {β : Type} (d : β) (k : Nat) (a b : List (Nat × β)) (h : ∀ p ∈ a, p.1 ≠ k) :
    mapGet d k (a ++ b) = mapGet d k b := by
  induction a with
  | nil => rfl
  | cons p t ih =>
    have hp : p.1 ≠ k := h p (by simp)
    simp only [List.cons_append, mapGet, if_neg hp]
    exact ih fun q hq => h q (by simp [hq])

/-- A key that no entry of the second part has is read in the first. -/
theorem mapGet_append_left {β : Type} (d : β) (k : Nat) (a b : List (Nat × β)) (h : ∀ p ∈ b, p.1 ≠ k) :
    mapGet d k (a ++ b) = mapGet d k a := by
  induction a with
  | nil =>
    show mapGet d k b = d
    induction b with
    | nil => rfl
    | cons p t ih =>
      have hp : p.1 ≠ k := h p (by simp)
      simp only [mapGet, if_neg hp]
      exact ih fun q hq => h q (by simp [hq])
  | cons p t ih =>
    simp only [List.cons_append, mapGet]
    split
    · rfl
    · exact ih

/-- Filtering by a test that a key passes does not change what it reads as. -/
theorem mapGet_filter {β : Type} (d : β) (k : Nat) (f : Nat × β → Bool) (m : List (Nat × β))
    (h : ∀ p ∈ m, p.1 = k → f p = true) : mapGet d k (m.filter f) = mapGet d k m := by
  induction m with
  | nil => rfl
  | cons p t ih =>
    have ht := ih fun q hq => h q (by simp [hq])
    by_cases hp : p.1 = k
    · have hf : f p = true := h p (by simp) hp
      simp [List.filter, hf, mapGet, hp]
    · by_cases hf : f p = true
      · simp [List.filter, hf, mapGet, hp, ht]
      · simp [List.filter, hf, mapGet, hp, ht]

/-- A byte of a run reads as the run has it. -/
theorem mapGet_runCells (l : List Byte) : ∀ (a i : Nat), i < l.length → mapGet 0 (a + i) (runCells a l) = l.getD i 0 := by
  induction l with
  | nil => intro a i h; exact absurd h (by simp)
  | cons b t ih =>
    intro a i h
    cases i with
    | zero =>
      simp only [runCells]
      split
      · rename_i hb
        have := mapGet_append_left (0 : Byte) a [] (runCells (a + 1) t) fun p hp => by
          have := runCells_mem t (a + 1) p hp
          omega
        simpa [mapGet, hb] using this
      · simp [mapGet]
    | succ i =>
      have hi : i < t.length := by simpa using h
      have e : a + (i + 1) = a + 1 + i := by omega
      simp only [runCells]
      split
      · rw [e, ih (a + 1) i hi]; simp
      · simp only [mapGet]
        rw [if_neg (by simp), e, ih (a + 1) i hi]; simp

/-- After bytes are stored, a byte of the run reads as stored. -/
theorem byte_setBytes_inside (x : CodedMem) (a : Nat) (l : List Byte) {i : Nat} (h : i < l.length) :
    (x.setBytes a l).byte (a + i) = l.getD i 0 := by
  simp only [CodedMem.byte, CodedMem.setBytes]
  rw [mapGet_append_left, mapGet_append_of_absent]
  · exact mapGet_runCells l a i h
  · intro p hp e
    have := (List.mem_filter.mp hp).2
    simp only [decide_eq_true_eq] at this
    omega
  · intro p hp e
    have := (List.mem_filter.mp hp).2
    simp only [decide_eq_true_eq] at this
    omega

/-- After bytes are stored, every other byte reads as before. -/
theorem byte_setBytes_outside (x : CodedMem) (a : Nat) (l : List Byte) {b : Nat} (h : b < a ∨ a + l.length ≤ b) :
    (x.setBytes a l).byte b = x.byte b := by
  have mid : ∀ p ∈ runCells a l, p.1 ≠ b := fun p hp e => by
    have := runCells_mem l a p hp
    omega
  simp only [CodedMem.byte, CodedMem.setBytes]
  rcases h with h | h
  · rw [List.append_assoc, mapGet_append_left, mapGet_filter]
    · intro p _ e; simp [e, h]
    · intro p hp e
      rcases List.mem_append.mp hp with hp | hp
      · exact mid p hp e
      · have := (List.mem_filter.mp hp).2
        simp only [decide_eq_true_eq] at this
        omega
  · rw [mapGet_append_of_absent, mapGet_filter]
    · intro p _ e; simp [e, h]
    · intro p hp e
      rcases List.mem_append.mp hp with hp | hp
      · have := (List.mem_filter.mp hp).2
        simp only [decide_eq_true_eq] at this
        omega
      · exact mid p hp e

/-! ### The memories of the state -/

variable (s : State)

/-- The six memories are in canonical form. -/
def memoriesWf (s : State) : Prop := ∀ m, (s.mem m).wf = true

@[simp] theorem mem_setMem_same (m : MemId) (x : CodedMem) : (s.setMem m x).mem m = x := by cases m <;> rfl

theorem mem_setMem_ne {m k : MemId} (h : k ≠ m) (x : CodedMem) : (s.setMem m x).mem k = s.mem k := by
  cases m <;> cases k <;> first | rfl | exact absurd rfl h

theorem setMem_wf (h : memoriesWf s) (m : MemId) (x : CodedMem) (hx : x.wf = true) : memoriesWf (s.setMem m x) := by
  intro k
  by_cases e : k = m
  · subst e; simpa using hx
  · rw [mem_setMem_ne s e]; exact h k

/-- Setting a mark keeps the canonical form. -/
theorem setMark_wf (h : memoriesWf s) (m : MemId) (w : Nat) (k : Mark) : memoriesWf (s.setMark m w k) := by
  refine setMem_wf s h m _ ?_
  have := h m
  simp only [CodedMem.wf, Bool.and_eq_true] at this ⊢
  exact ⟨this.1, mapWf_mapSet _ _ _ _ this.2⟩

/-- The memories of a filled machine are canonical. -/
theorem filled_wf (m : MemId) : (CodedMem.filled m).wf = true := by cases m <;> rfl

/-- After power-up every memory is canonical. -/
theorem reset_wf : memoriesWf State.reset := by intro m; cases m <;> rfl

/-! ### What the memory operations leave -/

/-- The fields that counts and events of the memories and the journal write. -/
def logged (f : Fld) : Bool :=
  (List.range 6).any (fun m => f.key == (Reg.memCe m).key || f.key == (Reg.memUeUeRead m).key ||
    f.key == (Reg.memPartialUePartial m).key) ||
    (List.range 4).any (fun w => f.key == (Reg.evStatus w).key) ||
    [Reg.logStatusLost, Reg.exhausted, Reg.exhaustedNow].any fun g => f.key == g.key

/-- A part of the state that the counts and events of the memories do not touch. -/
structure Steady {β : Type} (g : State → β) : Prop where
  set : ∀ (s : State) (f : Fld) v, logged f = true → g (s.setF f v) = g s
  events : ∀ (s : State) e, g { s with events := e } = g s
  memint : ∀ (s : State) e, g { s with memint := e } = g s

theorem memId_lt (m : MemId) : m.code < 6 := by cases m <;> decide

theorem logged_ce {m : Nat} (h : m < 6) : logged (Reg.memCe m) = true := by
  revert m; decide +kernel
theorem logged_ue {m : Nat} (h : m < 6) : logged (Reg.memUeUeRead m) = true := by
  revert m; decide +kernel
theorem logged_partial {m : Nat} (h : m < 6) : logged (Reg.memPartialUePartial m) = true := by
  revert m; decide +kernel
theorem logged_status {w : Nat} (h : w < 4) : logged (Reg.evStatus w) = true := by
  revert w; decide +kernel
theorem logged_lost : logged Reg.logStatusLost = true := by decide +kernel
theorem logged_exhausted : logged Reg.exhausted = true := by decide +kernel
theorem logged_exhaustedNow : logged Reg.exhaustedNow = true := by decide +kernel

section
variable {β : Type} {g : State → β}

theorem Steady.raise (a : Steady g) {n : Nat} (h : n < 128) (s : State) : g (s.raise n) = g s := by
  simp only [State.raise]
  rw [a.events]
  split
  · rfl
  · exact a.set _ _ _ (logged_status (by omega))

theorem Steady.logErr (a : Steady g) (m : MemId) (w k : Nat) (r : Requester) (y : Nat) (s : State) :
    g (s.logErr m w k r y) = g s := by
  simp only [State.logErr, State.addSat]
  split
  · exact a.memint s _
  · exact a.set _ _ _ logged_lost

theorem Steady.readWord (a : Steady g) (m : MemId) (w : Nat) (r : Requester) (q : Bool) (s : State) :
    g (s.readWord m w r q).1 = g s := by
  have hm := memId_lt m
  simp only [State.readWord]
  split
  · rfl
  · simp only
    split
    · simp only [State.addSat]
      rw [a.raise (by decide), a.logErr, a.set _ _ _ (logged_ce hm)]
    · rw [a.memint, a.raise (by decide), a.logErr]
      exact a.set _ _ _ (logged_ce hm)
  · simp only
    split
    · rw [a.logErr]; exact a.set _ _ _ (logged_ue hm)
    · rw [a.raise (by decide), a.logErr]; exact a.set _ _ _ (logged_ue hm)
  · simp only
    split
    · rw [a.logErr]; exact a.set _ _ _ (logged_ue hm)
    · rw [a.raise (by decide), a.logErr]; exact a.set _ _ _ (logged_ue hm)

theorem Steady.readWords (a : Steady g) (m : MemId) (r : Requester) (n : Nat) : ∀ (w : Nat) (s : State),
    g (s.readWords m r w n).1 = g s := by
  induction n with
  | zero => intro w s; rfl
  | succ n ih =>
    intro w s
    simp only [State.readWords]
    rw [ih, a.readWord]

/-- Reading bytes of a memory changes only counts, events and the error log. -/
theorem Steady.readBytes (a : Steady g) (m : MemId) (r : Requester) (x n : Nat) (s : State) :
    g (s.readBytes m r x n).1 = g s := by
  simp only [State.readBytes]
  split
  · rfl
  · exact a.readWords m r _ _ s

/-- Writing bytes of a memory changes only that memory, counts, events and the error log. -/
theorem Steady.writePart (a : Steady g) {m : MemId} (hm : ∀ s x, g (State.setMem s m x) = g s) (r : Requester) (x : Nat)
    (d : List Byte) (s : State) : g (s.writePart m r x d) = g s := by
  have hc : ∀ (s : State) w, g (s.cancelWriteBack m w) = g s := fun s w => a.memint s _
  have hk : ∀ (s : State) w k, g (s.setMark m w k) = g s := fun s w k => hm s _
  have hl := memId_lt m
  simp only [State.writePart, State.addSat]
  split
  · rw [hm, hc]
  · rw [a.raise (by decide), a.set _ _ _ (logged_ce hl), hk, hm, hc]
  · rw [a.raise (by decide), a.logErr, a.set _ _ _ (logged_partial hl), hk, hm, hc]
  · rw [a.raise (by decide), a.logErr, a.set _ _ _ (logged_partial hl), hm, hc]

theorem Steady.writeBytes (a : Steady g) {m : MemId} (hm : ∀ s x, g (State.setMem s m x) = g s) (r : Requester) (x : Nat)
    (d : List Byte) (s : State) : g (s.writeBytes m r x d) = g s := by
  have hc : ∀ (s : State) w, g (s.cancelWriteBack m w) = g s := fun s w => a.memint s _
  have hk : ∀ (s : State) w k, g (s.setMark m w k) = g s := fun s w k => hm s _
  simp only [State.writeBytes]
  generalize d.length / 32 + 2 = n
  induction n generalizing x d s with
  | zero => rfl
  | succ n ih =>
    simp only [State.writeRun]
    split
    · rfl
    · rw [ih]
      simp only [State.writeInWord]
      split
      · simp only [State.writeWhole]
        rw [hk, hm, hc]
      · split
        · rfl
        · exact a.writePart hm r _ _ s

end

/-- Reading and writing memory leave a field that they do not count in. -/
theorem steady_getF {f : Fld} (h : logged f = false) : Steady fun s => s.getF f := by
  constructor <;> intros <;> try rfl
  rename_i t k v hk
  refine getF_setF_ne _ (fun e => ?_) _
  rw [logged, e, ← logged, hk] at h
  exact absurd h (by decide)

/-! ### Reading clean words and what a write stores -/

@[simp] theorem rawBytes_length (m : MemId) (a n : Nat) : (s.rawBytes m a n).length = n := by simp [State.rawBytes]

theorem rawBytes_getD (m : MemId) (a n i : Nat) (h : i < n) : (s.rawBytes m a n).getD i 0 = (s.mem m).byte (a + i) := by
  simp [State.rawBytes, h]

/-- Clean words read as they stand, and the read changes nothing. -/
theorem readWords_clean (m : MemId) (r : Requester) (n : Nat) : ∀ w,
    (∀ k, w ≤ k → k < w + n → s.wordMark m k = .clean) → s.readWords m r w n = (s, s.rawBytes m (32 * w) (32 * n), true) := by
  induction n with
  | zero => intro w _; rfl
  | succ n ih =>
    intro w h
    have h0 : s.wordMark m w = .clean := h w (Nat.le_refl w) (by omega)
    have h1 := ih (w + 1) fun k hk hn => h k (by omega) (by omega)
    have hw : s.readWord m w r false = (s, ⟨s.rawBytes m (32 * w) 32, true⟩) := by simp [State.readWord, h0]
    simp only [State.readWords, hw, h1, Bool.true_and, Prod.mk.injEq, true_and, and_true]
    simp only [State.rawBytes]
    refine List.ext_getElem (by simp; omega) fun i hi _ => ?_
    simp only [List.length_append, List.length_map, List.length_range] at hi
    by_cases hlt : i < 32
    · simp [hlt]
    · simp only [List.getElem_append, List.length_map, List.length_range, hlt, dite_false, List.getElem_map,
        List.getElem_range]
      congr 1
      omega

/-- Bytes of clean words read as they stand, and the read changes nothing (R477). -/
theorem readBytes_clean (m : MemId) (r : Requester) (a n : Nat)
    (h : ∀ w, a / 32 ≤ w → w ≤ (a + n - 1) / 32 → s.wordMark m w = .clean) :
    s.readBytes m r a n = (s, s.rawBytes m a n, true) := by
  simp only [State.readBytes]
  split
  · rename_i h0; subst h0; rfl
  · rename_i h0
    rw [readWords_clean s m r _ _ fun k hk hn => h k hk (by omega)]
    simp only [Prod.mk.injEq, true_and, and_true, slice]
    refine List.ext_getElem (by simp) fun i hi _ => ?_
    simp only [List.length_map, List.length_range] at hi
    rw [List.getElem_map, List.getElem_range, rawBytes_getD _ _ _ _ _ (by omega)]
    simp only [State.rawBytes, List.getElem_map, List.getElem_range]
    congr 1
    omega

/-- The contents of a memory, and its bytes, stand apart from counts and events. -/
theorem steady_mem (m : MemId) : Steady fun s : State => s.mem m := by
  constructor <;> intros <;> cases m <;> rfl

theorem byte_setMem_marks (m : MemId) (x : CodedMem) (k : List (Nat × Mark)) (b : Nat) :
    ((s.setMem m { x with marks := k }).mem m).byte b = x.byte b := by
  rw [mem_setMem_same]; rfl

@[simp] theorem byte_setMark (m : MemId) (w : Nat) (k : Mark) (b : Nat) :
    ((s.setMark m w k).mem m).byte b = (s.mem m).byte b := byte_setMem_marks s m _ _ b

@[simp] theorem mem_cancelWriteBack (m k : MemId) (w : Nat) : (s.cancelWriteBack m w).mem k = s.mem k :=
  (steady_mem k).memint s _

/-- A write inside one word stores its bytes and leaves every other byte of the memory. -/
theorem byte_writeInWord (m : MemId) (r : Requester) (a : Nat) (d : List Byte) (b : Nat) :
    ((s.writeInWord m r a d).mem m).byte b =
      if a ≤ b ∧ b < a + d.length then d.getD (b - a) 0 else (s.mem m).byte b := by
  have hset : ∀ (x : CodedMem), (x.setBytes a d).byte b =
      if a ≤ b ∧ b < a + d.length then d.getD (b - a) 0 else x.byte b := by
    intro x
    split
    · rename_i h
      have := byte_setBytes_inside x a d (i := b - a) (by omega)
      rwa [Nat.add_sub_cancel' h.1] at this
    · exact byte_setBytes_outside x a d (by omega)
  simp only [State.writeInWord]
  split
  · rename_i h
    simp only [Bool.and_eq_true, decide_eq_true_eq, beq_iff_eq] at h
    have e : 32 * (a / 32) = a := by omega
    simp only [State.writeWhole, byte_setMark, mem_setMem_same, mem_cancelWriteBack, e]
    exact hset _
  · split
    · rename_i h
      have : d = [] := by simpa using h
      subst this
      rw [if_neg (by simp)]
    · have hl : ∀ (s : State) w k r y, (s.logErr m w k r y).mem m = s.mem m := fun s w k r y =>
        (steady_mem m).logErr m w k r y s
      have hr : ∀ (s : State) n, n < 128 → (s.raise n).mem m = s.mem m := fun s n h => (steady_mem m).raise h s
      have hc := memId_lt m
      have hset' : ∀ (s : State) f v, logged f = true → (s.setF f v).mem m = s.mem m := fun s f v h =>
        (steady_mem m).set s f v h
      simp only [State.writePart, State.addSat]
      split
      · rw [mem_setMem_same, mem_cancelWriteBack, hset]
      · rw [hr _ _ (by decide), hset' _ _ _ (logged_ce hc), byte_setMark, mem_setMem_same, mem_cancelWriteBack, hset]
      · rw [hr _ _ (by decide), hl, hset' _ _ _ (logged_partial hc), byte_setMark, mem_setMem_same,
          mem_cancelWriteBack, hset]
      · rw [hr _ _ (by decide), hl, hset' _ _ _ (logged_partial hc), mem_setMem_same, mem_cancelWriteBack, hset]

/-- A write stores its bytes and leaves every other byte of the memory. -/
theorem byte_writeBytes (m : MemId) (r : Requester) (a : Nat) (d : List Byte) (b : Nat) :
    ((s.writeBytes m r a d).mem m).byte b =
      if a ≤ b ∧ b < a + d.length then d.getD (b - a) 0 else (s.mem m).byte b := by
  suffices h : ∀ (n : Nat) (s : State) (a : Nat) (d : List Byte), a % 32 + d.length ≤ 32 * n →
      ((s.writeRun m r n a d).mem m).byte b =
        if a ≤ b ∧ b < a + d.length then d.getD (b - a) 0 else (s.mem m).byte b from
    h _ s a d (by omega)
  intro n
  induction n with
  | zero =>
    intro s a d h
    have : d.length = 0 := by omega
    rw [if_neg (by omega)]
    rfl
  | succ n ih =>
    intro s a d h
    simp only [State.writeRun]
    split
    · rename_i h0
      have : d = [] := by simpa using h0
      subst this
      rw [if_neg (by simp)]
    · rw [ih _ _ _ (by simp only [List.length_drop]; omega), byte_writeInWord]
      simp only [List.length_drop, List.length_take]
      have hm : 0 < 32 - a % 32 := by omega
      generalize 32 - a % 32 = k at hm ⊢
      by_cases h1 : a ≤ b ∧ b < a + d.length
      · rw [if_pos h1]
        by_cases h2 : a + k ≤ b
        · rw [if_pos (by omega)]
          simp only [List.getD_eq_getElem?_getD, List.getElem?_drop]
          congr 2
          omega
        · rw [if_neg (by omega), if_pos (by omega)]
          simp only [List.getD_eq_getElem?_getD]
          rw [List.getElem?_take_of_lt (by omega)]
      · rw [if_neg h1, if_neg (by omega), if_neg (by omega)]

/-- A write to one memory leaves the others. -/
theorem mem_writeBytes_ne {m k : MemId} (h : k ≠ m) (r : Requester) (a : Nat) (d : List Byte) :
    (s.writeBytes m r a d).mem k = s.mem k :=
  (steady_mem k).writeBytes (m := m) (fun s x => mem_setMem_ne s h x) r a d s

/-! ### Every memory operation keeps the canonical form -/

theorem wf_of_mem_eq {s t : State} (h : ∀ m, t.mem m = s.mem m) (hs : memoriesWf s) : memoriesWf t := fun m => by
  rw [h m]; exact hs m

theorem writeInWord_wf (h : memoriesWf s) (m : MemId) (r : Requester) (a : Nat) (d : List Byte) :
    memoriesWf (s.writeInWord m r a d) := by
  have hc : ∀ w, memoriesWf (s.cancelWriteBack m w) := fun w => wf_of_mem_eq (fun k => mem_cancelWriteBack s m k w) h
  have hp : ∀ w b e, memoriesWf ((s.cancelWriteBack m w).setMem m (((s.cancelWriteBack m w).mem m).setBytes b e)) :=
    fun w b e => setMem_wf _ (hc w) m _ (setBytes_wf _ (hc w m) b e)
  have hr : ∀ (t : State) n, n < 128 → memoriesWf t → memoriesWf (t.raise n) := fun t n hn =>
    wf_of_mem_eq fun k => (steady_mem k).raise hn t
  have hl : ∀ (t : State) w k y, memoriesWf t → memoriesWf (t.logErr m w k r y) := fun t w k y =>
    wf_of_mem_eq fun j => (steady_mem j).logErr m w k r y t
  have hf : ∀ (t : State) f v, memoriesWf t → memoriesWf (t.setF f v) := fun t f v h k => by
    have := h k
    cases k <;> exact this
  simp only [State.writeInWord]
  split
  · exact setMark_wf _ (hp _ _ _) m _ _
  · split
    · exact h
    · simp only [State.writePart, State.addSat]
      split
      · exact hp _ _ _
      · exact hr _ _ (by decide) (hf _ _ _ (setMark_wf _ (hp _ _ _) m _ _))
      · exact hr _ _ (by decide) (hl _ _ _ _ (hf _ _ _ (setMark_wf _ (hp _ _ _) m _ _)))
      · exact hr _ _ (by decide) (hl _ _ _ _ (hf _ _ _ (hp _ _ _)))

/-- Writing bytes keeps the canonical form. -/
theorem writeBytes_wf (h : memoriesWf s) (m : MemId) (r : Requester) (a : Nat) (d : List Byte) :
    memoriesWf (s.writeBytes m r a d) := by
  simp only [State.writeBytes]
  generalize d.length / 32 + 2 = n
  induction n generalizing a d s with
  | zero => exact h
  | succ n ih =>
    simp only [State.writeRun]
    split
    · exact h
    · exact ih _ (writeInWord_wf s h m r a _) _ _

/-- Writing a word poisoned keeps the canonical form. -/
theorem writePoisoned_wf (h : memoriesWf s) (m : MemId) (w : Nat) (d : List Byte) :
    memoriesWf (s.writePoisoned m w d) := by
  have hc : memoriesWf (s.cancelWriteBack m w) := wf_of_mem_eq (fun k => mem_cancelWriteBack s m k w) h
  exact setMark_wf _ (setMem_wf _ hc m _ (setBytes_wf _ (hc m) _ _)) m _ _

/-- Writing zero codewords keeps the canonical form. -/
theorem zeroWords_wf (h : memoriesWf s) (m : MemId) (w n : Nat) : memoriesWf (s.zeroWords m w n) := by
  have hm : ∀ (t : State) e, memoriesWf t → memoriesWf { t with memint := e } := fun t e h k => by
    have := h k
    cases k <;> exact this
  have hx := h m
  simp only [CodedMem.wf, Bool.and_eq_true] at hx
  have h1 := fun e f g => setMem_wf _ (hm s e h) m
    { (s.mem m) with bytes := (s.mem m).bytes.filter f, marks := (s.mem m).marks.filter g }
    (by simp only [CodedMem.wf, Bool.and_eq_true]; exact ⟨mapWf_filter _ _ _ hx.1, mapWf_filter _ _ _ hx.2⟩)
  simp only [State.zeroWords]
  split
  · exact h1 _ _ _
  · have h2 : ∀ (l : List Nat) (t : State), memoriesWf t →
        memoriesWf (t.each l fun s i => s.setMark m (w + i) .clean) := by
      intro l
      induction l with
      | nil => intro t ht; exact ht
      | cons x l ih => intro t ht; exact ih _ (setMark_wf _ ht m _ _)
    exact h2 _ _ (h1 _ _ _)

/-- Zeroing a memory keeps the canonical form. -/
theorem zeroMem_wf (h : memoriesWf s) (m : MemId) : memoriesWf (s.zeroMem m) := by
  refine setMem_wf _ (fun k => ?_) m _ rfl
  have := h k
  cases k <;> exact this

end Sys2Proof.Laws
end

