-- ==== Sys2Proof/Laws/Faeror.lean ====
section
/-! SUPPORT. The Faeror cores: reading a core after it is replaced, and what the issue of one instruction does, once for
all instructions that change their core alone. -/

namespace Sys2Proof.Laws

open Sys2Proof.Machine

variable (s : State)

theorem core_setCore {n : Nat} (h : n < 24) (c : Core) : (s.setCore n c).core n = c := by
  simp [State.setCore, State.core, vecGet, vecSet, h]

theorem core_setCore_ne {n k : Nat} (h : k ≠ n) (c : Core) : (s.setCore n c).core k = s.core k := by
  simp [State.setCore, State.core, vecGet, vecSet, h.symm]

/-- An instruction that may issue does issue: its fetch changes nothing. -/
theorem faIssue_eq {n : Nat} {i : FaInstr} (h : s.issues n i) : s.faIssue n i = s.faDo n i := by
  obtain ⟨h1, h2, h3, h4, h8, h5, h6, h7⟩ := h.1
  have hr : s.faReady n = true := by simp [State.faReady, State.mayCycle, State.faOn, h1, h2, h3, h4, h8]
  have hb : s.faFetchBad n (s.core n).pc = false := by
    simp only [State.faFetchBad, progWord]
    rw [h5]
  have hw : (s.readWord .faProg (progWord n + (s.core n).pc / 8) .core false).1 = s := by
    simp only [State.readWord, progWord]
    rw [h5]
  simp [State.faIssue, hr, hb, h6, hw]

/-- Events of the AV bits leave what EV_65 leaves. -/
theorem avRise_frame {β : Type} (g : State → β) (h : ∀ t : State, g (t.raise 65) = g t) (a b : Nat) (t : State) :
    g (t.avRise a b) = g t := each_frame g _ (fun s _ => h s) _ t

/-- What a class may use depends on the budgets and on the registers outside the EVENTS block. -/
theorem mayUse_of (t : State) (hb : t.budget = s.budget)
    (hg : ∀ f : Fld, 0x200000 ≤ f.addr → f.lo < 32 → t.getF f = s.getF f) (c r : Nat) : t.mayUse c r = s.mayUse c r := by
  have a := hg (Reg.budgetClassFloor c r) (by simp only [Reg.budgetClassFloor]; omega) (by simp [Reg.budgetClassFloor])
  have b := hg (Reg.budgetClassCeil c r) (by simp only [Reg.budgetClassCeil]; omega) (by simp [Reg.budgetClassCeil])
  have d := hg Reg.budgetStatusEnforcing (by decide) (by decide)
  have e := hg Reg.sagStatusStage (by decide) (by decide)
  have m := hg Reg.sagShedShedMask1 (by decide) (by decide)
  have n := hg Reg.sagShedShedMask2 (by decide) (by decide)
  have hs : t.shed c = s.shed c := by unfold State.shed; rw [e, m, n]
  have hr : t.reserve c r = s.reserve c r := by unfold State.reserve; rw [hb]
  have hu : t.used c r = s.used c r := by unfold State.used; rw [hb]
  have hc : t.ceiling c r = s.ceiling c r := by unfold State.ceiling; rw [a, b, d, hs, hr]
  unfold State.mayUse
  rw [hc, hu]

/-- The AV bits' events change no budget, and no register outside the EVENTS block. -/
theorem avRise_budget (a b : Nat) : (s.avRise a b).budget = s.budget :=
  avRise_frame State.budget (fun t => raise_budget t 65) a b s

theorem avRise_getF (a b : Nat) (f : Fld) (ha : 0x200000 ≤ f.addr) (hl : f.lo < 32) :
    (s.avRise a b).getF f = s.getF f :=
  avRise_frame (fun s => s.getF f) (fun t => raise_getF t 65 (by simp only [Fld.key, Reg.evStatus]; omega)) a b s

/-- A core's cycles, where its class has cycles left after them, are charged and stall nothing. -/
theorem chargeCore_room {c k : Nat} (h : (s.charge c 1 k).mayUse c 1 = true) : s.chargeCore c k = s.charge c 1 k := by
  simp [State.chargeCore, State.stallCores, h]

/-- The cycles of an instruction after which its class has some left, charged to a state with the same budgets. -/
theorem chargeCore_after {t : State} {n k : Nat} (hk : s.roomAfter n k) (hb : t.budget = s.budget)
    (hg : ∀ f : Fld, 0x200000 ≤ f.addr → f.lo < 32 → t.getF f = s.getF f) :
    t.chargeCore ((s.core n).land.cyclesPass k).cls k = t.charge (s.core n).land.cls 1 k := by
  have e : (t.charge (s.core n).land.cls 1 k).budget = (s.charge (s.core n).land.cls 1 k).budget := by
    simp only [State.charge, State.used, hb]
  exact chargeCore_room t ((mayUse_of (s.charge (s.core n).land.cls 1 k) _ e hg _ 1).trans hk)

/-- The core after an instruction that changes its core alone by `f`, issued without a stall: `c` is the core as it
reads it. -/
def afterOk (s : State) (n : Nat) (i : FaInstr) (f : Core → Core) : Core :=
  let c := (s.core n).land.cyclesPass (1 + (s.core n).land.stalls i)
  let c' := f { c with lastAv := 0 }
  { c'.moveOn c i with
    accOld := c.acc
    inFlight := if i.stores then c'.inFlight ++ [2] else c'.inFlight }

/-- What the issue of an instruction that changes its core alone does. -/
theorem faDo_core {n : Nat} (hn : n < 24) {i : FaInstr} (h : (s.core n).land.misplaced i = false)
    (hk : s.roomAfter n (1 + (s.core n).land.stalls i)) (f : Core → Core)
    (hf : ∀ t : State, t.faRun n ((s.core n).land.cyclesPass (1 + (s.core n).land.stalls i))
      ((s.core n).land.cyclesPass (1 + (s.core n).land.stalls i)).lastAv i = t.faOk n f) :
    (s.faDo n i).core n = afterOk s n i f ∧ (∀ k, k ≠ n → (s.faDo n i).core k = s.core k) ∧
      ∀ {β : Type} (g : State → β), (∀ (t : State) x, g { t with cores := x } = g t) →
        (∀ (t : State) b, g { t with budget := b } = g t) → (∀ t : State, g (t.raise 65) = g t) →
        g (s.faDo n i) = g s := by
  have hr (k : Nat) (a b : Nat) (t : State) : (t.avRise a b).core k = t.core k :=
    avRise_frame (fun s => s.core k) (fun t => raise_core t 65 k) a b t
  simp only [State.faDo, h, Bool.false_eq_true, if_false, hf, State.faOk, State.modCore]
  rw [chargeCore_after s hk (by rw [avRise_budget, avRise_budget]; rfl)
    fun f ha hl => by rw [avRise_getF _ _ _ _ ha hl, avRise_getF _ _ _ _ ha hl]; rfl]
  refine ⟨?_, fun k hk => ?_, fun g hc hb hr => ?_⟩
  · rw [charge_core, hr, hr, core_setCore _ hn, core_setCore _ hn, core_setCore _ hn]
    rfl
  · rw [charge_core, hr, hr, core_setCore_ne _ hk, core_setCore_ne _ hk, core_setCore_ne _ hk]
  · refine (hb _ _).trans ((avRise_frame g hr _ _ _).trans ((avRise_frame g hr _ _ _).trans ?_))
    exact ((hc _ _).trans (hc _ _)).trans (hc _ _)

/-- Only dual loads stall. -/
theorem stalls_single (c : Core) {i : FaInstr} (h : i.dual = false) : c.stalls i = 0 := by simp [Core.stalls, h]

/-- Late writes that land do not stop a core. -/
theorem landOne_run (c : Core) (e : LateEff) : (c.landOne e).run = c.run := by
  simp only [Core.landOne]
  repeat' split
  all_goals rfl

theorem landList_run (l : List Late) : ∀ c : Core, (l.foldl (fun c x => c.landOne x.eff) c).run = c.run := by
  induction l with
  | nil => intro c; rfl
  | cons x t ih => intro c; exact (ih _).trans (landOne_run c x.eff)

theorem land_run (c : Core) : c.land.run = c.run := (landList_run _ _).trans rfl

/-- What no instruction changes stays through settling. -/
theorem otherCores_of (u : State) (n : Nat) (p : List Instr) (h2 : ∀ k, k ≠ n → u.core k = s.core k)
    (h3 : ∀ {β : Type} (g : State → β), (∀ (t : State) x, g { t with cores := x } = g t) →
      (∀ (t : State) b, g { t with budget := b } = g t) → (∀ t : State, g (t.raise 65) = g t) →
      g u = g { s with out := .empty }) :
    s.otherCores { settle u with pending := p } n ∧ s.sameMemories { settle u with pending := p } := by
  refine ⟨⟨fun k hk => ?_, ?_, ?_, ?_, fun q => ?_, ?_, ?_, ?_⟩, fun m => ?_⟩
  · exact (settle_core u k).trans (h2 k hk)
  · exact (settle_phase u).trans (h3 State.phase (fun _ _ => rfl) (fun _ _ => rfl) fun t => raise_phase t 65)
  · exact (settle_dev u).trans (h3 State.dev (fun _ _ => rfl) (fun _ _ => rfl) fun t => raise_dev t 65)
  · exact (settle_lath u).trans (h3 State.lath (fun _ _ => rfl) (fun _ _ => rfl) fun t => raise_lath t 65)
  · have e : (({ settle u with pending := p } : State).session q).role = ((settle u).session q).role := by
      cases q <;> rfl
    rw [e, settle_role]
    exact congrArg Session.role ((h3 (fun s => s.session q) (fun _ _ => by cases q <;> rfl)
      (fun _ _ => by cases q <;> rfl) fun t => raise_session t 65 q).trans (by cases q <;> rfl))
  · exact (settle_journal u).trans (h3 State.journal (fun _ _ => rfl) (fun _ _ => rfl) fun t => raise_journal t 65)
  · exact (settle_time u).trans (h3 State.time (fun _ _ => rfl) (fun _ _ => rfl) fun t => raise_time t 65)
  · exact (settle_shadow u).trans (h3 State.shadow (fun _ _ => rfl) (fun _ _ => rfl) fun t => raise_shadow t 65)
  · have e : ({ settle u with pending := p } : State).mem m = (settle u).mem m := by cases m <;> rfl
    rw [e, settle_mem]
    exact (h3 (fun s => s.mem m) (fun _ _ => by cases m <;> rfl) (fun _ _ => by cases m <;> rfl)
      fun t => raise_mem t 65 m).trans (by cases m <;> rfl)

/-- `moveOn` changes program order only. -/
theorem moveOn_eq (c' c : Core) (i : FaInstr) :
    c'.moveOn c i = { c' with
      pc := (c'.moveOn c i).pc, loops := (c'.moveOn c i).loops, branch := (c'.moveOn c i).branch } := by
  simp only [Core.moveOn]
  generalize c.branch = b
  cases b with
  | none => rfl
  | some y => by_cases h : 1 < y.slots <;> simp only [h, if_true, if_false]

/-- Outside delay slots and repeats the next address follows. -/
theorem moveOn_plain (c' c : Core) {i : FaInstr} (hr : ∀ n k, i ≠ .rep n k) (hl : c.loops = []) (hb : c.branch = none) :
    (c'.moveOn c i).pc = (c.pc + 1) % 16384 ∧ (c'.moveOn c i).loops = [] ∧ (c'.moveOn c i).branch = c'.branch := by
  have : ∀ x : Nat × List Loop, x = ((c.pc + 1) % 16384, []) →
      (c'.moveOn c i).pc = (c.pc + 1) % 16384 ∧ (c'.moveOn c i).loops = [] ∧ (c'.moveOn c i).branch = c'.branch := by
    intro x hx
    cases i <;> simp only [Core.moveOn, hl, hb, stepLoops] <;> first | exact absurd rfl (hr _ _) | simp
  exact this _ rfl

/-- The core as an instruction that does not stall reads it: one cycle has passed. -/
def readCore (s : State) (n : Nat) : Core := { (s.core n).land.cyclesPass 1 with lastAv := 0 }

/-- What one cycle leaves of a core. -/
theorem readCore_same (n : Nat) (h : (s.core n).run = .running) :
    let c := (s.core n).land
    let e := readCore s n
    e.g = c.g ∧ e.acc = c.acc ∧ e.accOld = c.accOld ∧ e.p = c.p ∧ e.m = c.m ∧ e.l = c.l ∧ e.b = c.b ∧ e.st = c.st ∧
      e.late = c.late ∧ c.sameSpecials e ∧ c.timed e ∧ e.run = .running ∧ e.cycles = (c.cycles + 1) % 2 ^ 32 ∧
      e.pc = c.pc ∧ e.loops = c.loops ∧ e.branch = c.branch := by
  have hrun : (s.core n).land.run = .running := (land_run (s.core n)).trans h
  simp only [readCore]
  generalize (s.core n).land = c at hrun ⊢
  have : (0 < c.timer ∧ c.timer ≤ 1) ↔ c.timer = 1 := by omega
  simp only [Core.cyclesPass, Core.sameSpecials, Core.timed, hrun, this, and_self]

/-- An instruction that changes its core alone and takes no branch, on the machine, from what it does to the core it
reads. -/
theorem core_ran {n : Fin 24} {i : FaInstr} (hi : s.issues n i) (hd : i.dual = false) (hr : ∀ n k, i ≠ .rep n k)
    {f : Core → Core} (hf : ∀ (t : State) c av, t.faRun n c av i = t.faOk n f)
    (g : Vector Word 16) (acc : Vector Int 4) (p : Vector Word 8) (l : List LateEff) (sticky : Nat)
    (h : let e := readCore s n
      (f e).g = g ∧ (f e).acc = acc ∧ (f e).p = p ∧ (f e).m = e.m ∧ (f e).l = e.l ∧ (f e).b = e.b ∧
        e.wrote (f e) l sticky ∧ e.sameSpecials (f e) ∧ (f e).timer = e.timer ∧ (f e).irq = e.irq ∧
        (f e).run = e.run ∧ (f e).cycles = e.cycles ∧ (f e).branch = e.branch) :
    ∃ t, act s (State.faIssue n i) = .next t ∧ s.coreRan t n g acc p l sticky ∧ s.sameMemories t := by
  refine ⟨_, rfl, ?_⟩
  have hi' : ({ s with out := .empty } : State).issues n i := hi
  obtain ⟨h1, h2, h3⟩ := faDo_core { s with out := .empty } n.isLt hi.1.2.2.2.2.2.2.2 hi.2 f fun t => hf t _ _
  have hrc := readCore_same s n hi.1.2.2.1
  rw [faIssue_eq _ hi']
  generalize ({ s with out := .empty } : State).faDo n i = u at h1 h2 h3
  have hcore : ({ settle u with pending := s.pending } : State).core n = u.core n := settle_core u n
  obtain ⟨hA, hB⟩ := otherCores_of s u n s.pending h2 h3
  have hs0 : ({ s with out := .empty } : State).core n = s.core n := rfl
  have he : ({ (s.core n).land.cyclesPass (1 + 0) with lastAv := 0 } : Core) = readCore s n := rfl
  simp only [State.coreRan, hcore, h1, afterOk, hs0]
  rw [stalls_single _ hd, he]
  generalize readCore s n = e at h hrc
  generalize (s.core n).land = c at *
  obtain ⟨s1, s2, -, s4, s5, s6, s7, s8, s9, s10, s11, s12, s13, s14, s15, s16⟩ := hrc
  obtain ⟨f1, f2, f3, f4, f5, f6, f7, f8, f9, f10, f11, f12, f13⟩ := h
  have hpl := fun a b => moveOn_plain (f e) (c.cyclesPass (1 + 0)) hr a b
  rw [moveOn_eq]
  refine ⟨⟨f1, f2, f3, f4.trans s5, f5.trans s6, f6.trans s7, ?_, ?_, ?_,
    ⟨f11.trans s12, f12.trans s13, fun a b => ?_⟩, hA⟩, hB⟩
  · simp only [Core.wrote] at f7 ⊢
    rw [s8, s9] at f7
    exact f7
  · simp only [Core.sameSpecials] at f8 s10 ⊢
    simp_all
  · exact ⟨f9.trans s11.1, f10.trans s11.2⟩
  · obtain ⟨q1, q2, q3⟩ := hpl a b
    exact ⟨q1, q2, q3.trans (f13.trans (s16.trans b))⟩

end Sys2Proof.Laws
end

