-- ==== Sys2Proof/Laws/Journal.lean ====
section
/-! SUPPORT. What writing a journal record leaves of the rest of the state: it writes the journal, its place in spine
memory, the tail latch, and what its sending to the twin takes. -/

namespace Sys2Proof.Laws

open Sys2Proof.Machine

/-- A part of the state that a journal record does not touch. -/
structure Unnoted {β : Type} (g : State → β) : Prop extends Steady g where
  spine : ∀ (s : State) x, g (s.setMem .spine x) = g s
  journal : ∀ (s : State) j, g { s with journal := j } = g s
  tail : ∀ (s : State) x, g { s with drone := { s.drone with tail := x } } = g s
  budget : ∀ (s : State) b, g { s with budget := b } = g s
  send : ∀ (s : State) q o, g { s with bridge := { s.bridge with seqTx := q }, out := { s.out with bridge := o } } = g s

section
variable {β : Type} {g : State → β}

theorem Unnoted.exhaust (a : Unnoted g) (c : Nat) (s : State) : g (s.exhaust c) = g s := by
  simp only [State.exhaust]
  have h1 := logged_exhausted
  have h2 := logged_exhaustedNow
  generalize Reg.exhausted = f at h1 ⊢
  generalize Reg.exhaustedNow = f2 at h2 ⊢
  have e1 : g (if testBit (s.getF f) c = true then s else s.setF f (s.getF f + 2 ^ c)) = g s := by
    split
    · rfl
    · exact a.set _ _ _ h1
  generalize (if testBit (s.getF f) c = true then s else s.setF f (s.getF f + 2 ^ c)) = t at e1 ⊢
  have e2 : g (if testBit (t.getF f2) c = true then t else t.setF f2 (t.getF f2 + 2 ^ c)) = g s := by
    split
    · exact e1
    · exact (a.set _ _ _ h2).trans e1
  generalize (if testBit (t.getF f2) c = true then t else t.setF f2 (t.getF f2 + 2 ^ c)) = u at e2 ⊢
  split
  · exact e2
  · rw [a.toSteady.raise (by decide)]
    exact (a.budget u _).trans e2

theorem Unnoted.arbitrate (a : Unnoted g) (r n : Nat) (s : State) : g (s.arbitrate r n) = g s := a.budget s _

theorem Unnoted.charge (a : Unnoted g) (c r n : Nat) (s : State) : g (s.charge c r n) = g s := a.budget s _

theorem Unnoted.grant (a : Unnoted g) (c r n : Nat) (s : State) : g (s.grant c r n) = g s := by
  simp only [State.grant]
  split
  · rfl
  · have e := (a.charge c r n (s.arbitrate r s.fretCycle)).trans (a.arbitrate r s.fretCycle s)
    generalize (s.arbitrate r s.fretCycle).charge c r n = t at e ⊢
    exact (a.budget t _).trans e

theorem Unnoted.grantRest (a : Unnoted g) (c r n : Nat) (s : State) : g (s.grantRest c r n) = g s := by
  simp only [State.grantRest]
  have e := a.grant c r (n - s.part c r) s
  generalize s.grant c r (n - s.part c r) = t at e ⊢
  exact (a.budget t _).trans e

theorem Unnoted.grantPart (a : Unnoted g) (c r n : Nat) (s : State) : g (s.grantPart c r n) = g s := by
  simp only [State.grantPart]
  have e := a.grant c r (s.drawable c r (n - s.part c r)) s
  generalize s.grant c r (s.drawable c r (n - s.part c r)) = t at e ⊢
  split
  · exact (a.budget t _).trans e
  · exact (a.exhaust c _).trans ((a.budget t _).trans e)

theorem Unnoted.ask (a : Unnoted g) (c r n : Nat) (s : State) : g (s.ask c r n).1 = g s := by
  simp only [State.ask]
  split
  · exact a.grantRest c r n s
  · exact a.grantPart c r n s

theorem Unnoted.append (a : Unnoted g) (n : JournalNote) (s : State) : g (s.journalAppend n) = g s := by
  simp only [State.journalAppend]
  generalize hw : s.writeBytes .spine .spine (journalAddr s.journal.next) (s.journalImage n) = t
  have e : g t = g s := by rw [← hw]; exact a.toSteady.writeBytes (m := .spine) a.spine _ _ _ s
  generalize hu : ({ t with
    journal := { t.journal with next := s.journal.next + 1 }
    drone := { t.drone with tail := some (s.journal.next, Config.sha384 (s.journalImage n)) } } : State) = u
  have e2 : g u = g s := by
    rw [← hu]
    exact ((a.tail { t with journal := { t.journal with next := s.journal.next + 1 } } _).trans
      (a.journal t _)).trans e
  split
  · rw [a.toSteady.raise (by decide)]; exact e2
  · exact e2

theorem Unnoted.flush (a : Unnoted g) (s : State) : g s.journalFlush = g s := by
  simp only [State.journalFlush]
  split
  · rfl
  · rw [a.append]; exact a.journal s _

theorem Unnoted.bridgeSend (a : Unnoted g) (k : Nat) (l : List Byte) (s : State) : g (s.bridgeSend k l) = g s :=
  a.send s _ _

theorem Unnoted.sendUpTo (a : Unnoted g) (n : Nat) : ∀ s : State, g (s.journalSendUpTo n) = g s := by
  induction n with
  | zero => intro s; rfl
  | succ n ih =>
    intro s
    simp only [State.journalSendUpTo]
    split
    · rfl
    · have e := a.ask 13 4 4 s
      split
      · exact e
      · rw [ih]
        generalize max s.journal.sent (s.journal.next - 4096) = q
        have e2 := a.toSteady.readBytes .spine .spine (journalAddr q) 128 (s.ask 13 4 4).1
        generalize (s.ask 13 4 4).1.readBytes .spine .spine (journalAddr q) 128 = r at e2 ⊢
        generalize hv : ({ r.1 with journal := { r.1.journal with sent := q + 1 } } : State) = v
        have e3 : g v = g s := by rw [← hv]; exact ((a.journal _ _).trans e2).trans e
        split
        · exact (a.bridgeSend _ _ v).trans e3
        · exact e3

/-- Writing a record leaves what stands apart from the journal. -/
theorem Unnoted.note (a : Unnoted g) (n : JournalNote) (s : State) : g (s.note n) = g s := by
  simp only [State.note]
  split
  · rfl
  · have e := a.flush s
    generalize s.journalFlush = t at e ⊢
    have e2 := (a.append n t).trans e
    generalize t.journalAppend n = u at e2 ⊢
    have hs : ∀ v : State, g v.journalSend = g v := fun v => a.sendUpTo _ v
    repeat' split
    all_goals first
      | exact (hs _).trans ((a.journal u _).trans e2)
      | exact (hs _).trans e2
      | exact (a.journal t _).trans e

/-- Ending a session leaves what stands apart from the journal and from sessions. -/
theorem Unnoted.endSession (a : Unnoted g) (p : Port) (h : ∀ (s : State) x, g (s.setSession p x) = g s) (s : State) :
    g (s.endSession p) = g s := by
  simp only [State.endSession]
  split
  · rfl
  · rw [a.note, h]

end

/-- Writing a record leaves every field that memory and journal do not count in. -/
theorem unnoted_getF {f : Fld} (h : logged f = false) : Unnoted fun s => s.getF f :=
  { steady_getF h with
    spine := fun _ _ => rfl
    journal := fun _ _ => rfl
    tail := fun _ _ => rfl
    budget := fun _ _ => rfl
    send := fun _ _ _ => rfl }

theorem unnoted_dev : Unnoted State.dev := by constructor <;> first | (constructor <;> intros <;> rfl) | (intros; rfl)
theorem unnoted_phase : Unnoted State.phase := by
  constructor <;> first | (constructor <;> intros <;> rfl) | (intros; rfl)
theorem unnoted_job : Unnoted State.job := by constructor <;> first | (constructor <;> intros <;> rfl) | (intros; rfl)
theorem unnoted_lath : Unnoted State.lath := by constructor <;> first | (constructor <;> intros <;> rfl) | (intros; rfl)
theorem unnoted_fuses : Unnoted State.fuses := by
  constructor <;> first | (constructor <;> intros <;> rfl) | (intros; rfl)
theorem unnoted_session (p : Port) : Unnoted fun s : State => s.session p := by
  cases p <;> constructor <;> first | (constructor <;> intros <;> rfl) | (intros; rfl)
theorem unnoted_cores : Unnoted State.cores := by
  constructor <;> first | (constructor <;> intros <;> rfl) | (intros; rfl)

end Sys2Proof.Laws
end

