-- ==== Sys2Proof/WellFormed.lean ====
section
/-! DEFINITION. Which commands are well formed: those whose operands lie in the ranges that their types leave open. A
command outside them has the meaning that its fields give it all the same. -/

namespace Sys2Proof

/-- No element occurs twice. -/
def distinct {α : Type} [DecidableEq α] : List α → Bool
  | [] => true
  | x :: t => !t.contains x && distinct t

/-- A write of at least one byte that ends inside its window. -/
def inWindow (size offset : Nat) (bytes : List Byte) : Bool := !bytes.isEmpty && decide (offset + bytes.length ≤ size)

/-- The IDs that a slot of a tile answers: an 8-bit PRODUCT_ID and a 10-bit MANUFACTURER_ID (R192). -/
def slotIdsOk : Option (Nat × Nat) → Bool
  | none => true
  | some x => decide (x.1 < 256) && decide (x.2 < 1024)

/-- A command whose operands are all in range. -/
def WellFormed : Instr → Bool
  | .droneRead _ words => decide (1 ≤ words)
  | .spaceRead _ words => decide (1 ≤ words)
  | .spaceWrite _ data => !data.isEmpty
  | .lathStream bytes => !bytes.isEmpty
  | .stencilHostWrite _ offset bytes => inWindow 0x300000 offset bytes
  | .registryWindowWrite _ offset bytes => inWindow 0x1000000 offset bytes
  | .faerorWindowWrite _ offset bytes => inWindow 0x800000 offset bytes
  | .hostWindowRead _ offset => decide (offset < 2 ^ 28) && offset % 4 == 0
  | .hostWindowWrite _ offset bytes => inWindow (2 ^ 28) offset bytes
  | .fretBoundary peaks far => distinct (peaks.map Prod.fst) && distinct far
  | .symbolStart _ _ runs _ _ => distinct (runs.map TxRun.path)
  | .tileEnumeration _ a b => slotIdsOk a && slotIdsOk b
  | .calPassEnd _ l _ => distinct (l.map CalMeasure.path)
  | .particleStrike _ _ errs => !errs.isEmpty && errs.all fun x => x.2 != 0
  | .dpdAdaptPass _ coefs _ => coefs.length == 40
  | .ageingMeasurement drifts => drifts.length == 32
  | .regCmd _ _ _ args _ => args.length == 4
  | .forward _ _ args _ => args.length == 4
  | .syncMark _ count => decide (count < 2 ^ 32)
  | .layerDataSection _ _ _ _ blocks => decide (blocks.length ≤ 9216)
  | .ptpFrame frame => decide (frame.length ≤ 9216)
  | .powerUp .. | .oscReady .. | .coldReset .. | .brownOut .. | .brownOutHoldEnd .. | .pllUnlock .. | .pcieReset ..
  | .serviceStart .. | .serviceStop .. | .holdOff .. | .lightHoldEnter .. | .lightHoldExit .. | .deepHoldEnter ..
  | .warmReset .. | .stateInfo .. | .timeSet .. | .timeStep .. | .timeLock .. | .timeUnlock .. | .timeSetNoPps ..
  | .lathLoad .. | .lathApply .. | .lathCancel .. | .lathInfo .. | .roleChallenge .. | .roleProve .. | .roleDrop ..
  | .nonceExpiry .. | .lockoutEnd .. | .installerEnrol .. | .journalCopy .. | .journalAck .. | .capsuleCopy ..
  | .capsuleClear .. | .makerEnter .. | .calRun .. | .pathTest .. | .calSave .. | .calRestore .. | .marginReplan ..
  | .pathPrepare .. | .pathFence .. | .pathUnfence .. | .rxSync .. | .dpdAdapt .. | .captureStart ..
  | .captureStop .. | .synHop .. | .synCal .. | .synStoreClear .. | .tileEnum .. | .tileRelease .. | .aerialTune ..
  | .rffeXfer .. | .stencilSelect .. | .gridBuild .. | .regWrite .. | .regBulk .. | .regFree .. | .regFind ..
  | .regWindow .. | .twinInfo .. | .divergenceCopy .. | .divergenceClear .. | .hodStart .. | .hodStop ..
  | .hkStart .. | .hkStop .. | .hkClear .. | .lathStreamGapTimeout .. | .wake .. | .resetEnable .. | .droneReset ..
  | .registerWrite .. | .shadowWrite .. | .commitArm .. | .commitDisarm .. | .cmdClaim .. | .cmdRelease ..
  | .eventsStatusClear .. | .faRun .. | .faHostHalt .. | .doorbell .. | .biasCodeWrite .. | .biasRangeWrite ..
  | .biasSafeHoldEnd .. | .biasStrobe .. | .reqBankWrite .. | .dpdCoefWrite .. | .capLengthWrite ..
  | .capLengthApply .. | .incHiWrite .. | .cmpArm .. | .txtsIdRead .. | .txtsPop .. | .logAddrRead .. | .logPop ..
  | .accLoRead .. | .owdStart .. | .bridgeEnableWrite .. | .skimEnWrite .. | .muteWrite .. | .uplinkSectionSend ..
  | .windowListClose .. | .windowMap .. | .windowMapRevision .. | .fretPreparation .. | .runaheadRebuild ..
  | .dozeWakeStart .. | .dozeWakeComplete .. | .holdCompare .. | .lightHoldWakeComplete ..
  | .deepHoldEntryComplete .. | .deepHoldWake .. | .timeCompare .. | .ppsInEdge .. | .ppsMissing .. | .ppsOut ..
  | .cicOutput .. | .hkRunStart .. | .hkRunEnd .. | .thermalReading .. | .sagNChange .. | .sagStageEntry ..
  | .sagStepDown .. | .sagDeepHold .. | .synLock .. | .synUnlock .. | .synCalFail .. | .overloadBackoff ..
  | .tilePresent .. | .tileDebounceEnd .. | .tileRemoved .. | .drainDelayEnd .. | .aerialCheck ..
  | .txCouplerRun .. | .obsGrant .. | .captureRun .. | .captureEnd .. | .seamMeasurement .. | .seamOkTimeout ..
  | .signatureRefresh .. | .gridDetection .. | .detectReport .. | .sigReport .. | .linkUp .. | .linkDown ..
  | .frameDiscard .. | .announce .. | .announceAck .. | .regResp .. | .status .. | .oneWayDelayRequest ..
  | .oneWayDelayResponse .. | .remoteRequest .. | .followUp .. | .owdTimeout .. | .ptpTxSlot ..
  | .bridgeTraining .. | .bridgeTrained .. | .ident .. | .heartbeatSend .. | .heartbeat .. | .bridgeLossDeclare ..
  | .witnessReqRepeat .. | .witnessVote .. | .witnessTimeout .. | .notice .. | .mirror .. | .mirrorAck ..
  | .mirrorResend .. | .forwardResp .. | .repairReq .. | .repairResp .. | .journal .. | .agree ..
  | .twinAgreementTimeout .. | .bridgeFrameDiscard .. | .skimRead .. | .ceWriteback .. | .hodDescriptorFetch ..
  | .hodDescriptorEnd .. | .hodBusFault .. | .faInterruptEntry .. | .waitEnd .. | .faTimerExpiry ..
  | .illegalInstruction .. | .nop .. | .halt .. | .b .. | .bc .. | .call .. | .ret .. | .reti .. | .wait ..
  | .sig .. | .repeatBlock .. | .add .. | .sub .. | .adds .. | .subs .. | .and .. | .or .. | .xor .. | .shl ..
  | .shr .. | .sra .. | .shlv .. | .srav .. | .min .. | .max .. | .abs .. | .neg .. | .cmp .. | .cadd .. | .csub ..
  | .conj .. | .cswap .. | .mov .. | .addi .. | .andi .. | .ori .. | .xori .. | .movi .. | .movhi .. | .cmpi ..
  | .ldw .. | .ldh .. | .stw .. | .sth .. | .wzero .. | .ldd .. | .cmac .. | .cmacj .. | .cmsu .. | .cmsuj ..
  | .cmul .. | .cmulj .. | .rmac .. | .rmsu .. | .rmul .. | .cmacld .. | .cmacjld .. | .cmsuld .. | .cmsujld ..
  | .clra .. | .mvag .. | .mvga .. | .acopy .. | .aadd .. | .asub .. | .cmbg .. | .stac .. | .stah .. | .mvtp ..
  | .mvtm .. | .mvtl .. | .mvtb .. | .mvfp .. | .mvfm .. | .mvfl .. | .mvfb .. | .mvts .. | .mvfs .. | .lip ..
  | .lim .. | .lil .. | .lib .. | .twinBridgeTraining .. | .heartbeatCheckResume .. | .msixUnmask ..
  | .makerEraseComplete .. | .pathTestEnd .. | .latchingRead .. => true

end Sys2Proof
end

