-- ==== Sys2Proof/Tests/Slice0.lean ====
section
/-! SUPPORT. Tests of one step or one word each, ill-formed commands that WellFormed refuses, and for every statement with
hypotheses a state and operands that meet them. -/

set_option Elab.async false

namespace Sys2Proof.Tests
open Sys2Proof Sys2Proof.Machine

/-! ## Small states -/

/-- A machine that runs in a device state, with a role on the PCIe port. -/
def up (d : DevState) (r : Option Role) : State :=
  { State.reset with phase := .run, dev := d, pcie := { Session.none with role := r } }
/-- With argument words. -/

def DevState.all : List DevState := [.bare, .unlathed, .lathed, .service, .doze, .lightHold, .fault, .maker]
/-- With the link up and a baseband found. -/
def linked (d : DevState) : State :=
  (((((up d none).setF Reg.linkCtrlEnable 1).setF Reg.linkStatusUp 1).setF Reg.linkStatusBbFound 1).setF Reg.bbMacLo
    0xC3D4E5F6).setF Reg.bbMacHi 0xA1B2 |>.setF Reg.timeStatusState 1
/-- A downlink layer 3 of carrier 1, 100 µs before bar 1. -/
def dlReady : State :=
  { (((((linked .service).setF (Reg.carConfigEnable 1 1) 1).setF (Reg.layerConfigEnable 1 3) 1).setF (Reg.layerConfigCarrier 1 3) 1).setF
      (Reg.layerConfigBfpWidth 1 3) 2).setF (Reg.carConfigPrbCount 1 1) 25 with
    time := { TimeState.fresh with now := 9900000 * 2 ^ 32, fret := 39 } }
/-- The header of a downlink section with width code 2. -/
def sectionHead (bar slot sym first count : Nat) : BitVec 128 :=
  BitVec.ofNat 128 (bar * 2 ^ 96 + slot * 2 ^ 88 + sym * 2 ^ 84 + 8 * 2 ^ 80 + 2 * 2 ^ 80 + first * 2 ^ 48 + count * 2 ^ 32)
/-- Uplink layer 2 of carrier 0, whose symbol 0 of bar 0 has started, with group 0 VALID. -/
def ulLayer : LayerLatch := ⟨2, 1, [0x12345000], none, none⟩
/-- Symbol 0 of bar 0 of an uplink carrier of one PRB, as it was latched. -/
def ulSymbol : SymLatch := ⟨0, 0, 0, 0, 100, 128, 0, 1, 0, 0, 0, [ulLayer], [], [], true, [], [], [], [], none⟩
/-- A machine with that symbol to send. -/
def ulReady (s : State) : State := { s with spectral := { s.spectral with latched := [(0, [ulSymbol])] } }
/-- A transmit slot with a frame of 60 bytes whose time is wanted under ID 0x1234. -/
def txSlotBytes : List Byte := fit 256 ([60, 0, 1, 0, 0x34, 0x12] ++ List.replicate 10 0 ++ (List.replicate 60 7))
/-- A window of entry 9 in fret 41. -/
def oneWin : Win := ⟨9, 0, 41, 41, 45, 0, 0, some 1, none, none, none, true, false, false, false, 0, 4⟩
/-- A chip that may form a pair. -/
def west (d : DevState) : State := linked d
/-- A chip whose IDENT is sent. -/
def trained : State := { west .lathed with bridge := { BridgeState.fresh with training := true, identSent := true } }
/-- A chip of a formed pair in a role. -/
def pair (r : Nat) : State :=
  let s := (((west .lathed).setF Reg.bridgeStatusTrained 1).setF Reg.bridgeRole r).setF Reg.peerUidLo 5
  { s with bridge := { BridgeState.fresh with paired := true } }
/-- A chip whose lost Bridge was declared at a tick. -/
def lost (k : Nat) : State :=
  let s := (((west .lathed).setF Reg.bridgeStatusArbitrating 1).setF Reg.bridgeRole 2).setF Reg.peerUidLo 5
  { s.setF Reg.linkCtrlWitnessEn 1 with
    bridge := { BridgeState.fresh with declaredTick := some k }, fh := { FhState.fresh with witnessTick := 12 } }
/-- A path 63 whose aerial check has begun in SERVICE. -/
def aerialUp : State :=
  let s := ((((up .service none).setF (Reg.pathStateState 63) 3).setF Reg.mismatchAction 1).setF Reg.mismatchThreshold 255).setF Reg.mismatchPeriod 100
  { s with
    aerialLow := [63]
    drone := { s.drone with ticks := 5000 }
    tx := { s.tx with granted := [⟨5, 63, 0, 16, 63⟩, ⟨5, 63, 1, 16, 63⟩], starts := [⟨5, 63, 0, 0, some 100⟩, ⟨5, 63, 1, 0, some 200⟩] } }
/-- A path 9 on air whose TX_COUPLER capture has begun, with the runs taken before. -/
def couplerUp (l : List (Nat × List (List Int))) : State :=
  { (((((up .service none).setF (Reg.pathStateState 9) 3).setF (Reg.synStatusState 0) 2).setF (Reg.synStatusState 1) 2).setF
      Reg.calCtrlAutoCoupler 1).setF (Reg.tileStatusState 1) 3 with
    analogWest := true
    drone := { State.reset.drone with ticks := 5000 }
    cal := { State.reset.cal with coupler := l }
    tx := { State.reset.tx with closed := [9], granted := [⟨5, 9, 0, 16, 9⟩], starts := [⟨5, 9, 0, 0, some 9⟩] } }
/-- A frame for the device whose eCPRI payload has `n` bytes. -/
def frameTo (src : BitVec 48) (n : Nat) : FrameHead := ⟨Config.linkMac, src, none, BitVec.ofNat 16 (22 + n), 1, false, BitVec.ofNat 16 n⟩
/-- A type 2 message for the device whose body has `n` bytes. -/
def ctlTo (src : BitVec 48) (n : Nat) : CtlHead := ⟨frameTo src (4 + n), 0x80⟩
/-- Entry 7 with pilots of fret 3 in data memory and eight ACTIVE paths. -/
def refreshUp : State :=
  let s := (((List.range 8).foldl (fun s p => s.setF (Reg.pathStateState p) 3) (up .lathed none)).setF Reg.linkCtrlSigReportEn 1).putWord0 7
    (0x55 + 2 * 2 ^ 40 + 2 ^ 204 + 2 ^ 205 + 3 * 2 ^ 92)
  { s with spectral := { s.spectral with copied := [⟨7, 0x55, 3, 0, 0, 1, 0, 0, []⟩] } }

/-- The state that a command answers, for tests of commands that answer one. -/
def after (c : Instr) (s : State) : State :=
  match exec c s with
  | .next t => t
  | _ => s

/-- Core 3 about to issue an instruction at address 0. -/
def coreWith (i : FaInstr) : State :=
  ({ up .lathed none with faProg := CodedMem.zeroed.setBytes 196608 (leBytes 4 (faEncode i)) }).modCore 3 fun c =>
    { c with run := .running }

/-- With registers g1 and g2, and address register p0. -/
def coreHolding (i : FaInstr) (a b p : Word) : State :=
  (coreWith i).modCore 3 fun c => { c with g := vecSet (vecSet c.g 1 a) 2 b, p := vecSet c.p 0 p }

/-! ## Ill-formed commands -/

theorem test_wellformed_refuses_no_words : WellFormed (.droneRead 0 0) = false ∧ WellFormed (.spaceRead 0 0) = false ∧
    WellFormed (.spaceWrite 0 []) = false ∧ WellFormed (.lathStream []) = false := by decide
theorem test_wellformed_refuses_window_ends : WellFormed (.stencilHostWrite .pcie 0x2FFFFF [1, 2]) = false ∧
    WellFormed (.registryWindowWrite .pcie 0xFFFFFF [1, 2]) = false ∧
    WellFormed (.faerorWindowWrite .qspi 0x7FFFFF [1, 2]) = false ∧
    WellFormed (.hostWindowWrite .pcie 0xFFFFFFF [1, 2]) = false ∧ WellFormed (.hostWindowRead .pcie 2) = false ∧
    WellFormed (.hostWindowRead .pcie 0x10000000) = false := by decide
theorem test_wellformed_takes_last_byte : WellFormed (.stencilHostWrite .pcie 0x2FFFFF [1]) = true := by decide
theorem test_wellformed_refuses_repeats : WellFormed (.fretBoundary [(1, 0), (1, 2)] []) = false ∧
    WellFormed (.fretBoundary [] [2, 2]) = false ∧
    WellFormed (.symbolStart 0 0 [⟨5, [], [], [], []⟩, ⟨5, [[(1, 0)]], [], [], []⟩] [] []) = false ∧
    WellFormed (.calPassEnd true [⟨1, [], none⟩, ⟨1, [], none⟩] 0) = false := by decide
theorem test_wellformed_refuses_ids : WellFormed (.tileEnumeration 0 (some (256, 0)) none) = false ∧
    WellFormed (.tileEnumeration 0 none (some (0, 1024))) = false := by decide
theorem test_wellformed_refuses_empty_strike : WellFormed (.particleStrike 0 0 []) = false ∧
    WellFormed (.particleStrike 0 0 [(1, 0)]) = false := by decide
theorem test_wellformed_refuses_lengths : WellFormed (.dpdAdaptPass [] [] 0) = false ∧
    WellFormed (.ageingMeasurement []) = false ∧ WellFormed (.regCmd (ctlTo 0 40) 0 0 [1, 2, 3] []) = false ∧
    WellFormed (.forward 0 0 [] []) = false ∧ WellFormed (.syncMark true (2 ^ 32)) = false := by decide
theorem test_wellformed_refuses_long_frames :
    WellFormed (.layerDataSection (frameTo 0 0) 0 0 0 (List.replicate 9217 0)) = false ∧
    WellFormed (.ptpFrame (List.replicate 9217 0)) = false := by decide +kernel

/-! ## Reset -/

theorem test_reset_memories_canonical : Laws.memoriesWf State.reset := Laws.reset_wf
theorem test_reset_queue_empty : State.reset.pending = [] := rfl
theorem test_no_table_word_spells_a_command : decodeTableWord 32 0x12345678 = none := rfl

/-! ## Instruction words, put together from the field tables of chapter 10 -/

-- Class 0x2, FUNC 1, RD 4, RS 5, RT 6.
theorem test_decode_sub : faDecode 0x20515800 = some (.alu3 .sub 4 5 6) := by decide
-- Class 0x3, FUNC 4, RD 7, IMM16 0x8001.
theorem test_decode_movi : faDecode 0x34708001 = some (.movi 7 0x8001) := by decide
-- Class 0xF has no instruction.
theorem test_decode_class_15 : faDecode 0xFFFFFFFF = none := by decide

/-! ## Single steps; the expected values are worked out from the rules by hand -/

-- ADD: 0xFFFFFFFF + 1 is 0 with Z and C (R310).
theorem test_add_wraps :
    let t := after (.add 3 4 1 2) (coreHolding (.alu3 .add 4 1 2) 0xFFFFFFFF 1 0)
    vecGet (t.core 3).g 4 1 = 0 ∧ (t.core 3).late = [⟨3, .flags 15 5⟩] ∧ (t.core 3).pc = 1 := by decide +kernel
-- SUB: 0 - 1 borrows, so C is 0 and N is 1.
theorem test_sub_borrows :
    let t := after (.sub 3 4 1 2) (coreHolding (.alu3 .sub 4 1 2) 0 1 0)
    vecGet (t.core 3).g 4 1 = 0xFFFFFFFF ∧ (t.core 3).late = [⟨3, .flags 15 2⟩] := by decide +kernel
-- ADDS saturates and sets SV, bit 8 of ST (R298).
theorem test_adds_saturates :
    let t := after (.adds 3 4 1 2) (coreHolding (.alu3 .adds 4 1 2) 0x7FFFFFFF 1 0)
    vecGet (t.core 3).g 4 1 = 0x7FFFFFFF ∧ (t.core 3).st = 256 := by decide +kernel
-- STW is little-endian (R4), in data memory 3 at byte 8.
theorem test_stw_little_endian :
    let t := after (.stw 3 1 0 .none) (coreHolding (.mem .stw 1 0 .none) 0x11223344 0 8)
    t.rawBytes .faData (3 * 131072 + 8) 4 = [0x44, 0x33, 0x22, 0x11] := by decide +kernel
-- A load at an odd address halts the core with ALIGN, 5 (R292).
theorem test_ldw_align :
    let t := after (.ldw 3 1 0 .none) (coreHolding (.mem .ldw 1 0 .none) 0 0 2)
    (t.core 3).run = .halted ∧ (t.core 3).cause = 5 ∧ (t.core 3).haltAddr = 2 := by decide +kernel
-- A command in a state that its table does not name ends with STATE_REJECT, 2, and reports the state code (R78).
theorem test_state_reject :
    let t := after (.serviceStart .pcie) (up .fault (some .operator))
    t.getF Reg.cmdStatusCode = 2 ∧ t.getF (Reg.arg 0) = 6 ∧ t.dev = .fault := by decide +kernel
-- Without its role a command ends with ROLE_REJECT, 3 (R77).
theorem test_role_reject :
    let t := after (.serviceStart .qspi) (up .lathed (some .installer))
    t.getF Reg.cmdStatusCode = 3 ∧ t.getF Reg.cmdStatusPort = 1 := by decide +kernel
-- Registry memory has 524,288 words (R476).
theorem test_strike_past_the_last_word :
    (exec (.particleStrike 0 524288 [(0, 1)]) (up .lathed none) = .fault .noSuchWord) := by rfl
-- One bad symbol is correctable, and the data read stay (R478).
theorem test_strike_one_symbol :
    let t := after (.particleStrike 3 7 [(2, 5)]) (up .lathed none)
    t.wordMark .spine 7 = .correctable 2 5 ∧ t.rawBytes .spine 224 32 = List.replicate 32 0 := by decide +kernel
-- Skim corrects the word that it reads and counts it (R488).
theorem test_skim_corrects :
    let t := after (.skimRead 3) ((up .lathed none).setMark .spine 0 (.correctable 2 5))
    t.wordMark .spine 0 = .clean ∧ t.getF (Reg.memCe 3) = 1 ∧ t.getF (Reg.skimPos 3) = 1 := by decide +kernel
-- A claim of the command register names its port (R528).
theorem test_claim_names_the_port : (after (.cmdClaim .qspi) (up .lathed none)).getF Reg.cmdClaimOwner = 2 := by
  decide +kernel
-- The queue: the front command runs and the rest wait.
theorem test_step_takes_the_front :
    ∃ t, step { up .lathed none with pending := [.cmdClaim .pcie, .stateInfo .pcie] } = .next t ∧
      t.pending = [.stateInfo .pcie] ∧ t.getF Reg.cmdClaimOwner = 1 := ⟨_, rfl, rfl, by decide +kernel⟩

/-! ## States in which a core issues each instruction -/

/-- Core 3 issues every instruction of a list, in the state made for it. -/
def allIssue (f : FaInstr → State) (l : List FaInstr) : Prop := ∀ i ∈ l, (f i).issues 3 i

theorem witness_FaerorSumsAndCompares : allIssue coreWith
    [.alu3 .add 15 1 2, .alu3 .sub 0 15 15, .alui .addi 1 2 0xFFFF, .cmp 1 15, .cmpi 15 0x8000] := by
  unfold allIssue State.issues State.mayIssue State.roomAfter; decide +kernel
theorem witness_FaerorLogicShiftsAndMoves : allIssue coreWith
    [.alu3 .and_ 1 2 3, .alu3 .or_ 1 2 3, .alu3 .xor_ 1 2 3, .alush .shl 1 2 31, .alush .shr 1 2 0, .alush .sra 1 2 31,
      .alu3 .shlv 1 2 3, .alu3 .srav 1 2 3, .alu3 .min 1 2 3, .alu3 .max 1 2 3, .alu2 .mov 1 2, .movi 1 0xFFFF,
      .alui .andi 1 2 0xFFFF, .alui .ori 1 2 0, .alui .xori 1 2 0x8000] := by unfold allIssue State.issues State.mayIssue State.roomAfter; decide +kernel
theorem witness_FaerorSaturatingArithmetic : allIssue coreWith
    [.alu3 .adds 1 2 3, .alu3 .subs 1 2 3, .alu2 .abs 1 2, .alu2 .neg 15 0] := by unfold allIssue State.issues State.mayIssue State.roomAfter; decide +kernel
theorem witness_FaerorComplexAlu : allIssue coreWith
    [.alu3 .cadd 1 2 3, .alu3 .csub 1 2 3, .alu2 .conj 1 2, .alu2 .cswap 1 2, .movhi 15 0xFFFF] := by
  unfold allIssue State.issues State.mayIssue State.roomAfter; decide +kernel
theorem witness_FaerorLoadsAndPostModify :
    allIssue coreWith [.mem .ldw 1 0 (.imm 4), .mem .ldh 1 0 (.reg 7), .ldd 1 2 0 1 none (some 3)] ∧
      (let s := coreWith (.ldd 1 2 0 1 none (some 3));
      (s.faP 3 0 % 4 = 0 ∧ s.faP 3 0 < 131072 ∧ s.wordMark .faData (4096 * 3 + s.faP 3 0 / 32) = .clean) ∧
        s.faP 3 1 = 0 ∧ (s.core 3).land.inFlight = []) := by unfold allIssue State.issues State.mayIssue State.roomAfter; decide +kernel
theorem witness_FaerorStores :
    allIssue (fun i => coreHolding i 0 0 0x1FFDC) [.mem .stw 1 0 .none, .mem .sth 1 0 (.reg 1), .stac 0 none 31,
      .stah 0 (some 7) 3 0, .wzero 0 .none] ∧
      (coreHolding (.mem .stw 1 0 .none) 0 0 0x1FFDC).faP 3 0 = 0x1FFDC := by unfold allIssue State.issues State.mayIssue State.roomAfter; decide +kernel
theorem witness_FaerorComplexMultiplies :
    allIssue coreWith [.cmul .cmac 1 2, .cmul .cmacj 1 2, .cmul .cmsu 1 2, .cmul .cmsuj 1 2, .cmul .cmul 1 2,
      .cmul .cmulj 1 2, .rmul .rmac 1 2 3 true false, .rmul .rmsu 1 2 0 false true, .rmul .rmul 1 2 0 true true,
      .cmulld .cmacld 1 2 0 1 2 3, .cmulld .cmacjld 1 2 0 1 2 3, .cmulld .cmsuld 1 2 0 1 2 3,
      .cmulld .cmsujld 1 2 0 1 2 3] ∧
      (let s := coreWith (.cmulld .cmacld 1 2 0 1 2 3);
      s.faP 3 0 % 4 = 0 ∧ s.faP 3 0 < 131072 ∧ s.wordMark .faData (4096 * 3 + s.faP 3 0 / 32) = .clean ∧
        s.faP 3 1 = 0 ∧ (s.core 3).land.inFlight = []) := by unfold allIssue State.issues State.mayIssue State.roomAfter; decide +kernel
theorem witness_FaerorAccumulatorMoves : allIssue coreWith
    [.clra 15, .mvga 1 3, .acopy 0 3, .asum .aadd 0 1, .asum .asub 3 3, .mvag 1 0 31, .cmbg 15 0] := by
  unfold allIssue State.issues State.mayIssue State.roomAfter; decide +kernel
theorem witness_FaerorRegisterMoves : allIssue coreWith
    [.mvt .p 1 7, .mvt .m 1 0, .mvt .l 1 7, .mvt .b 1 7, .li .p 0 0x1FFFFF, .li .m 0 0x100000, .li .l 7 0x20000,
      .li .b 0 1, .mvf .p 1 7, .mvf .m 1 7, .mvf .l 1 7, .mvf .b 1 7] := by unfold allIssue State.issues State.mayIssue State.roomAfter; decide +kernel
theorem witness_FaerorSpecialRegisters : allIssue coreWith [.mvfs 1 0, .mvfs 1 9, .mvts 1 0, .mvts 1 9] := by
  unfold allIssue State.issues State.mayIssue State.roomAfter; decide +kernel
theorem witness_FaerorControlFlow :
    allIssue coreWith [.b 0x3FFF, .bc 12 0, .call 1, .ret, .reti, .rep 3 (.imm 0), .rep 0 (.reg 1), .nop, .wait, .sig 23,
      .halt] ∧ ((coreWith .nop).core 3).land.branch = none ∧ ((coreWith .nop).core 3).land.loops = [] := by
  unfold allIssue State.issues State.mayIssue State.roomAfter; decide +kernel
theorem witness_FaerorTrapsHaltTheCore :
    allIssue (fun i => coreHolding i 0 0 1) [.mem .ldw 1 0 .none, .mem .stw 1 0 .none] ∧
      (coreHolding (.mem .ldw 1 0 .none) 0 0 1).faP 3 0 % 4 = 1 ∧
      allIssue (fun i => coreHolding i 0 0 131072) [.mem .ldw 1 0 .none, .mem .stw 1 0 .none] ∧
      131072 ≤ (coreHolding (.mem .ldw 1 0 .none) 0 0 131072).faP 3 0 ∧
      (let s := (coreWith (.mem .ldw 1 0 .none)).setMark .faData 12288 .poisoned;
      s.issues 3 (.mem .ldw 1 0 .none) ∧ s.faP 3 0 = 0 ∧ s.wordMark .faData 12288 = .poisoned) ∧
      (let s := { coreWith .nop with faProg := CodedMem.zeroed.setBytes 196608 [0xFF, 0xFF, 0xFF, 0xFF] };
      s.faReady 3 = true ∧ s.roomAfter 3 1 ∧ s.wordMark .faProg 6144 = .clean ∧ faDecode (s.faWord 3 0) = none) := by
  unfold allIssue State.issues State.mayIssue State.roomAfter; decide +kernel
theorem witness_FaerorInterruptsAndTimer :
    (let s := (coreWith .nop).modCore 3 fun c => { c with st := 512, irq := 64, ien := 64 };
      let c := s.core 3;
      let d := c.landAll;
      s.mayCycle 3 d.cls = true ∧ testBit c.st 9 = true ∧ c.holdsOff = false ∧ (s.charge d.cls 1 1).mayUse d.cls 1 = true ∧
      (List.range 8).find? (fun j => testBit c.irq j && testBit c.ien j) = some 6) ∧
    (let s := (coreWith .nop).modCore 3 fun c =>
        { c with run := .waiting, irq := 128, ien := 255, timer := 7, st := 512 };
      let d := (s.core 3).landAll;
      s.phase = .run ∧ s.domain .faeror = .on ∧ (s.core 3).run = .waiting ∧ d.inFret < coreFretCycles ∧
      s.mayUse d.cls 1 = true ∧ (s.charge d.cls 1 1).mayUse d.cls 1 = true ∧ testBit d.st 9 = true ∧
      (List.range 8).find? (fun j => testBit d.irq j && testBit d.ien j) = some 7 ∧ (s.core 3).timer ≠ 0) ∧
    (let s := (coreWith .nop).modCore 3 fun c => { c with run := .waiting, irq := 128, ien := 255 };
      let d := (s.core 3).landAll;
      s.phase = .run ∧ s.domain .faeror = .on ∧ (s.core 3).run = .waiting ∧ s.mayUse (s.core 3).cls 1 = true ∧
      testBit d.st 9 = false ∧ (List.range 8).find? (fun j => testBit d.irq j && testBit d.ien j) = some 7) ∧
    (let n := ((coreWith .nop).core 3).cls;
      let s := (((coreWith .nop).setF Reg.budgetStatusEnforcing 1).setF (Reg.budgetClassCeil n 1) 1).charge n 1
        (grainSize 1 - 1);
      s.mayIssue 3 .nop ∧ ¬ s.roomAfter 3 1 ∧ (s.core 3).land.cls = (s.core 3).cls) := by
  unfold State.mayIssue State.roomAfter; decide +kernel
theorem witness_IdleStepIsOneTick : State.reset.pending = [] := rfl
theorem witness_AerialsStayQuietOutsideService : ∃ t, step State.reset = .next t := ⟨_, rfl⟩
theorem witness_OnlyNamedStops : [524288, 98304, 131072, 40960, 49152, 98304].getD (5 : Fin 6).val 0 ≤
    (98304 : BitVec 20).toNat := by decide
theorem witness_FaerorEncodingRoundTrip : faDecode 0x20048C00 = some (.alu3 .add 1 2 3) := by decide

/-! ## Operands and states that meet the hypotheses of each statement -/

theorem witness_ClaimKeepsTheOtherPortOut :
     (let row : HostRow := ⟨0x10, .stateInfo, HostRow.awake, .none⟩;
      let p : Port := .qspi;
      let s : State := ((up .service none).setF Reg.cmdClaimOwner 1).setF Reg.cmdStatusRunning 1;
      row ∈ hostRows ∧ s.spineRuns = true ∧ (∀ q ∈ s.hostQueue, q.port ≠ p) ∧ s.getF Reg.cmdClaimOwner = 2 -
        portCode p ∧ s.jobWaits) := ⟨by simp [hostRows], by decide +kernel, by decide +kernel, by decide +kernel, trivial⟩

theorem witness_ARunningCommandBouncesTheNext :
     (let row : HostRow := ⟨0x10, .stateInfo, HostRow.awake, .none⟩;
      let p : Port := .pcie;
      let s : State := ((up .service none).setF Reg.cmdClaimOwner 1).setF Reg.cmdStatusRunning 1;
      row ∈ hostRows ∧ s.spineRuns = true ∧ (∀ q ∈ s.hostQueue, q.port ≠ p) ∧ s.getF Reg.cmdClaimOwner ≠ 2 -
        portCode p ∧ s.getF Reg.cmdStatusRunning = 1 ∧ s.jobWaits) := ⟨by simp [hostRows], by decide +kernel, by decide +kernel, by decide +kernel, by decide +kernel, trivial⟩

theorem witness_StateRejectHasNoOtherEffect :
     (let row : HostRow := ⟨0x10, .stateInfo, HostRow.awake, .none⟩;
      let p : Port := .qspi;
      let s : State := up .lightHold none;
      row ∈ hostRows ∧ s.ready p ∧ s.dev ∉ row.legal) := ⟨by simp [hostRows], by decide +kernel, by decide +kernel⟩

theorem witness_RoleRejectHasNoOtherEffect :
     (let row : HostRow := ⟨0x01, .serviceStart, [.lathed], .op⟩;
      let p : Port := .pcie;
      let s : State := up .lathed (some .installer);
      row ∈ hostRows ∧ s.ready p ∧ s.dev ∈ row.legal ∧ row.rule.permits s.dev (s.session p).role = false) := ⟨by simp [hostRows], by decide +kernel, by decide +kernel, by decide +kernel⟩

theorem witness_SessionsOpenAndClose :
     (let p : Port := .pcie;
      let r : Role := .operator;
      let s : State := (up .lathed none).results [3];
      s.ready p ∧ s.dev ≠ .lightHold ∧ (s.session p).lockedAt = none ∧ roleOfCode (s.argW 0) = some r) ∧
     (let p : Port := .qspi;
      let r : Role := .maker;
      let x : Nat := 5;
      let s : State :=
        { (up .bare none).results [1] with qspi := { Session.none with lockedAt := some 5, fails := 4 } };
      s.ready p ∧ s.dev ≠ .lightHold ∧ roleOfCode (s.argW 0) = some r ∧ (s.session p).lockedAt = some x ∧
        s.drone.ticks < x + 2457600000) ∧
     (let p : Port := .pcie;
      let r : Role := .operator;
      let n : Nonce := ⟨.operator, 7, 0⟩;
      let k : RoleKey := ⟨3, 0, []⟩;
      let s : State :=
        { (up .lathed (some .installer)).results [3, 0, 64] with lath := ⟨[], [⟨3, 0, []⟩], none, none⟩, pcie := { Session.none with role := some .installer, nonce := some ⟨.operator, 7, 0⟩, fails := 3 } };
      s.ready p ∧ s.mayRecord ∧ s.dev ≠ .lightHold ∧ roleOfCode (s.argW 0) = some r ∧ (s.argW 0 ≠ 1 ∨ s.dev =
        .maker) ∧ s.argW 2 % 4 = 0 ∧ s.argW 2 + 96 ≤ 4194304 ∧ s.cleanAt .capture (s.argW 2) 96 ∧ (s.session
        p).lockedAt = none ∧ (s.session p).nonce = some n ∧ n.role = r ∧ s.drone.ticks ≤ n.since + 2457600000 ∧
        s.lath.keys.find? (fun k => k.role == roleCode r && k.slot == s.argW 1) = some k) ∧
     (let p : Port := .pcie;
      let r : Role := .operator;
      let s : State := up .service (some .operator);
      s.ready p ∧ s.mayRecord ∧ s.dev ≠ .lightHold ∧ (s.session p).role = some r) ∧
     (let p : Port := .pcie;
      let n : Nonce := ⟨.operator, 7, 0⟩;
      let s : State :=
        { (up .lightHold none) with pcie := { Session.none with nonce := some ⟨.operator, 7, 0⟩ } };
      (s.session p).nonce = some n ∧ s.beyondFret (s.tickNs (n.since + 2457600001)) = false) ∧
     (let p : Port := .qspi;
      let x : Nat := 9;
      let s : State :=
        { (up .lightHold none) with qspi := { Session.none with lockedAt := some 9, fails := 4 } };
      (s.session p).lockedAt = some x ∧ s.beyondFret (s.tickNs (x + 2457600000)) = false) := by
  iterate 5 refine And.intro (by decide +kernel) ?_
  decide +kernel

theorem witness_JournalAckFreesUpToSeq :
     (let p : Port := .pcie;
      let s : State :=
        { (up .lathed (some .operator)).results [6] with journal := ⟨2, 9, 0, none, 0, 0, 0, false, 0⟩ };
      s.ready p ∧ s.dev ≠ .lightHold ∧ s.journal.lost = 0 ∧ (s.dev = .bare ∨ s.dev = .unlathed ∨ s.dev = .fault
        ∨ (s.session p).role = some .installer ∨ (s.session p).role = some .operator)) := by decide +kernel

theorem witness_EnrolmentJournalAndCapsule :
     (let p : Port := .pcie;
      let s : State := (up .unlathed none).results [0, 256, 512];
      s.ready p ∧ s.mayRecord ∧ s.dev = .unlathed ∧ s.argW 0 % 4 = 0 ∧ s.argW 0 + 168 ≤ 4194304 ∧ s.argW 1 % 4 =
        0 ∧ s.argW 1 + 116 ≤ 4194304 ∧ s.argW 2 % 4 = 0 ∧ s.argW 2 + 96 ≤ 4194304 ∧ s.cleanAt .capture (s.argW 0)
        168 ∧ s.cleanAt .capture (s.argW 1) 116 ∧ s.cleanAt .capture (s.argW 2) 96) ∧
     (let p : Port := .pcie;
      let s : State :=
        { (up .lathed (some .operator)).results [0, 3, 2, 64] with journal := ⟨2, 9, 0, none, 0, 0, 0, false, 0⟩, spineMem := ⟨[(384, 5), (513, 9), (700, 1)], [], .clean⟩ };
      s.ready p ∧ s.dev ≠ .lightHold ∧ (s.dev.keyless = true ∨ (s.session p).role.isSome = true) ∧ s.argW 0 = 0
        ∧ 1 ≤ s.argW 2 ∧ s.argW 2 ≤ 512 ∧ s.argW 3 % 4 = 0 ∧ s.argW 3 + 128 * s.argW 2 ≤ 4194304 ∧ (∀ i, i <
        s.argW 2 → s.cleanAt .spine ((max s.journal.first (s.argW 1) + i) % 4096 * 128) 128)) ∧
     (let p : Port := .pcie;
      let s : State := (up .lathed (some .operator)).results [64];
      s.ready p ∧ s.dev ≠ .lightHold ∧ (s.dev.keyless = true ∨ (s.session p).role.isSome = true) ∧ s.argW 0 % 4
        = 0 ∧ s.argW 0 + 16384 ≤ 4194304 ∧ s.journal.capsuleValid = false) ∧
     (let p : Port := .pcie;
      let s : State :=
        { (up .fault none).results [64] with journal := ⟨0, 0, 0, none, 0, 0, 0, true, 0⟩, spineMem := ⟨[(384, 5), (1048577, 9), (1052672, 1)], [], .clean⟩ };
      s.ready p ∧ s.dev ≠ .lightHold ∧ (s.dev.keyless = true ∨ (s.session p).role.isSome = true) ∧ s.argW 0 % 4
        = 0 ∧ s.argW 0 + 16384 ≤ 4194304 ∧ s.journal.capsuleValid = true ∧ s.cleanAt .spine 1048576 16384) ∧
     (let p : Port := .pcie;
      let s : State :=
        { (up .fault (some .installer)).results [64] with journal := ⟨0, 0, 0, none, 0, 0, 0, true, 3⟩, spineMem := ⟨[(384, 5), (1048577, 9), (1052672, 1), (1070000, 3)], [], .clean⟩ };
      s.ready p ∧ s.dev ≠ .lightHold ∧ ((s.session p).role = some .installer ∨ (s.session p).role = some
        .operator)) ∧
     (let p : Port := .qspi;
      let s : State := let u := (up .bare none).results [0, 256];
        { u with drone := { u.drone with straps := { u.drone.straps with makerEn := true } } };
      s.ready p ∧ s.mayRecord ∧ (s.dev = .bare ∨ s.dev = .unlathed ∨ s.dev = .lathed ∨ s.dev = .fault) ∧
        s.drone.straps.makerEn = true ∧ s.argW 0 % 4 = 0 ∧ s.argW 0 + 148 ≤ 4194304 ∧ s.argW 1 % 4 = 0 ∧ s.argW 1
        + 116 ≤ 4194304 ∧ s.fuses.returned < 4 ∧ s.cleanAt .capture (s.argW 0) 148 ∧ s.cleanAt .capture (s.argW 1)
        116) ∧
     (let s : State :=
        { (up .lathed (some .installer)) with job := some .makerErase, captureMem := ⟨[(384, 5)], [], .clean⟩ };
      s.job = some .makerErase ∧ s.phase = .run) := by
  iterate 6 refine And.intro (by decide +kernel) ?_
  decide +kernel

theorem witness_LathLoadsStreamsAndApplies :
     (let p : Port := .qspi;
      let s : State := (up .bare none).results [1, 1024, 4096, 0, 9];
      s.ready p ∧ s.mayRecord ∧ (s.dev = .bare ∨ s.dev = .unlathed) ∧ s.argW 0 = 1 ∧ s.argW 3 = 0 ∧ s.argW 1 % 4
        = 0 ∧ s.argW 1 + s.argW 2 ≤ 4194304 ∧ s.argW 4 ≠ 0) ∧
     (let p : Port := .qspi;
      let s : State := (up .bare none).results [0, 1024, 4096, 0, 9];
      s.ready p ∧ s.mayRecord ∧ (s.dev = .bare ∨ s.dev = .unlathed) ∧ s.argW 0 = 0 ∧ s.argW 3 = 0 ∧ s.argW 1 % 4
        = 0 ∧ s.argW 1 + s.argW 2 ≤ 4194304 ∧ s.cleanAt .capture (s.argW 1) (max 64 (s.argW 2))) ∧
     (let l : List Byte := [1, 2, 3];
      let off : Nat := 1024;
      let len : Nat := 4096;
      let mode : Nat := 0;
      let bar : Nat := 1;
      let n : Nat := 30;
      let tick : Nat := 0;
      let s : State := { up .bare none with job := some (.lathStream 1024 4096 0 1 30 0) };
      s.job = some (.lathStream off len mode bar n tick) ∧ n + l.length < 64 ∧ l ≠ [] ∧ s.dev ≠ .fault) ∧
     (let s : State := up .bare none;
      s.job = none ∧ s.drone.streamDropped ≤ 65535) ∧
     (let off : Nat := 1024;
      let len : Nat := 4096;
      let mode : Nat := 0;
      let bar : Nat := 1;
      let n : Nat := 30;
      let tick : Nat := 7;
      let s : State := { up .lightHold none with job := some (.lathStream 1024 4096 0 1 30 7) };
      s.job = some (.lathStream off len mode bar n tick) ∧ 0 < n ∧ s.mayRecord ∧ s.beyondFret (s.tickNs (tick +
        24576000)) = false) ∧
     (let l : LathLoad := ⟨0, 64, 1, [⟨0x0102, 1, 0, 1, []⟩], [], 0, 0⟩;
      let s : State :=
        { up .bare none with job := some (.lathChecked ⟨0, 64, 1, [⟨0x0102, 1, 0, 1, []⟩], [], 0, 0⟩) };
      s.job = some (.lathChecked l)) ∧
     (let p : Port := .pcie;
      let s : State := up .service (some .operator);
      s.ready p ∧ lathedUp s.dev = true ∧ (s.session p).role = some .operator ∧ s.lath.pending = none) ∧
     (let p : Port := .pcie;
      let l : LathLoad := ⟨0, 64, 1, [], [], 2, 3⟩;
      let s : State :=
        { up .service (some .operator) with lath := ⟨[], [], some ⟨0, 64, 1, [], [], 2, 3⟩, none⟩ };
      s.ready p ∧ lathedUp s.dev = true ∧ (s.session p).role = some .operator ∧ s.lath.pending = some l ∧
        s.nowNs + 250000 ≤ s.barBoundary l.targetBar ∧ s.mayRecord) ∧
     (let p : Port := .pcie;
      let l : LathLoad := ⟨0, 64, 1, [], [], 2, 0⟩;
      let s : State :=
        { up .service (some .operator) with lath := ⟨[], [], some ⟨0, 64, 1, [], [], 2, 0⟩, none⟩ };
      s.ready p ∧ lathedUp s.dev = true ∧ (s.session p).role = some .operator ∧ s.lath.pending = some l ∧
        s.barBoundary l.targetBar < s.nowNs + 250000) ∧
     (let p : Port := .qspi;
      let r : Role := .installer;
      let s : State :=
        { (up .unlathed none).results [2] with fuses := ⟨#v[⟨5, true, true⟩, ⟨6, true, false⟩, ⟨0, false, false⟩, ⟨0, false, false⟩], 1, 0⟩ };
      s.ready p ∧ s.dev ≠ .lightHold ∧ roleOfCode (s.argW 0) = some r) := by
  iterate 9 refine And.intro (by decide +kernel) ?_
  decide +kernel

theorem witness_ResetsAndPowerUp :
     (let ns : Nat := 1000;
      let s : State := (up .fault (some .operator)).setF Reg.incHi 9;
      1000 ≤ ns ∧ ¬(s.phase = .run ∧ s.dev = .maker) ∧ s.phase ≠ .reset .brownOut ∧ s.phase ≠ .deepHold ∧
        s.phase ≠ .deepEntry) ∧
     (let ns : Nat := 1000;
      let s : State := (up .maker (some .maker)).setF Reg.incHi 9;
      1000 ≤ ns ∧ s.phase = .run ∧ s.dev = .maker) ∧
     (let ns : Nat := 1000;
      let s : State := { State.reset with phase := .deepHold };
      1000 ≤ ns ∧ s.phase = .deepHold) ∧
     (let ns : Nat := 1000;
      let s : State := { up .lathed (some .operator) with phase := .deepEntry };
      1000 ≤ ns ∧ s.phase = .deepEntry) ∧
     (let ns : Nat := 99;
      ns < 100) ∧
     (let s : State := (up .fault (some .operator)).setF Reg.incHi 9;
      s.phase ≠ .deepHold ∧ ¬(s.phase = .run ∧ s.dev = .maker)) ∧
     (let s : State := { State.reset with phase := .reset .brownOut };
      s.phase = .reset .brownOut) ∧
     (let p : Port := .pcie;
      let s : State :=
        { ((up .service (some .operator)).setF Reg.divergenceCount 5).setF Reg.incHi 9 with spineMem := ⟨[(384, 5), (1048577, 9), (1052672, 1)], [], .clean⟩ };
      s.ready p ∧ s.job = none ∧ s.mayRecord ∧ s.dev ≠ .lightHold ∧ s.dev ≠ .maker ∧ RoleRule.permits
        .keylessBoth s.dev (s.session p).role = true) ∧
     (let s : State := let u := up .maker (some .maker);
        { u with drone := { u.drone with resetEnabled := true } };
      s.drone.resetEnabled = true) ∧
     (let s : State := up .maker (some .maker);
      s.drone.resetEnabled = false) ∧
     (let n : Nat := 30000;
      let k : ResetKind := .cold;
      let s : State := let u := State.reset;
        { u with phase := .reset .cold, drone := { u.drone with tail := some (6, 0) } };
      s.phase = .reset k ∧ k ≠ .brownOut ∧ k ≠ .warm ∧ s.dev = .bare ∧ s.drone.refDone = false ∧ 29400 ≤ n ∧ n ≤
        30600 ∧ s.fuses.returned = s.fuses.eraseDone ∧ s.drone.straps.bootSel ≠ 2) ∧
     (let n : Nat := 30000;
      let k : ResetKind := .powerUp;
      let s : State := State.reset;
      s.phase = .reset k ∧ k ≠ .brownOut ∧ k ≠ .warm ∧ s.dev = .bare ∧ s.drone.refDone = false ∧ 29400 ≤ n ∧ n ≤
        30600 ∧ s.fuses.returned = s.fuses.eraseDone ∧ s.drone.straps.bootSel ≠ 2 ∧ s.job = none ∧ s.lath.pending
        = none) ∧
     (let s : State := let u := State.reset;
        { u with phase := .reset .warm, drone := { u.drone with refDone := true, refClass := 3 }, spineMem := ⟨[(384, 5), (1130496, 9)], [], .clean⟩ };
      s.phase = .reset .warm ∧ s.dev = .bare ∧ s.drone.refDone = true ∧ s.drone.refClass ≠ 0 ∧ s.fuses.returned
        = s.fuses.eraseDone ∧ s.drone.straps.bootSel ≠ 2 ∧ s.cleanAt .spine 1130496 8) ∧
     (let s : State := { up .service (some .operator) with analogWest := true };
      s.mayRecord ∧ s.dev ≠ .fault ∧ s.dev ≠ .maker ∧ s.job = none ∧ s.lath.pending = none ∧
        s.journal.capsuleValid = false) ∧
     (let s : State := let u := up .lathed (some .operator);
        { u with phase := .deepEntry, drone := { u.drone with wakeTicks := 8 } };
      s.phase = .deepEntry ∧ s.drone.wakeHeld = none) ∧
     (let c : WakeCause := .qspi;
      let s : State := let u := up .lathed (some .operator);
        { u with phase := .deepEntry, drone := { u.drone with wakeHeld := some .qspi } };
      s.phase = .deepEntry ∧ s.drone.wakeHeld = some c ∧ c ≠ .resetPin) ∧
     (let s : State := let u := up .lathed (some .operator);
        { u with phase := .deepEntry, drone := { u.drone with wakeHeld := some .resetPin } };
      s.phase = .deepEntry ∧ s.drone.wakeHeld = some .resetPin) ∧
     (let s : State := let u := State.reset;
        { u with phase := .deepHold, drone := { u.drone with wakeCompare := 40, ticks := 75003 } };
      s.phase = .deepHold ∧ s.drone.wakeCompare < 2 ^ 48 ∧ s.wakeCount < s.drone.wakeCompare) ∧
     (let s : State := { State.reset with phase := .deepHold };
      s.phase = .deepHold) ∧
     (let s : State := { State.reset with phase := .deepEntry };
      s.phase = .deepEntry ∧ s.drone.wakeHeld = none) ∧
     (let s : State := { up .lightHold (some .operator) with faData := .filled .faData };
      s.phase = .run ∧ s.dev = .lightHold ∧ s.getF Reg.dozeStatusWaking = 0) := by
  iterate 20 refine And.intro (by decide +kernel) ?_
  decide +kernel

theorem witness_ServiceAndHoldCommands :
     (let p : Port := .pcie;
      let s : State := ((List.range 64).foldl (fun s i => s.setF (Reg.pathStateState i) 2) ((up .lathed (some
        .operator)).setF Reg.timeStatusState 1)).results [5];
      s.ready p ∧ s.dev = .lathed ∧ (s.session p).role = some .operator ∧ s.getF Reg.timeStatusState ≠ 0 ∧
        (s.getF Reg.bridgeRole = 2 → s.getF Reg.bridgeStatusSynced = 1) ∧ s.getF Reg.sagStatusStage < 3 ∧ (∀ i ∈
        List.range 64, s.path i = 2 ∨ s.path i = 5) ∧ (s.argW 0 = 0 ∨ 0 < barDiff (s.argW 0) s.bar ∧ barDiff
        (s.argW 0) s.bar ≤ 256)) ∧
     (let p : Port := .pcie;
      let s : State := (up .lathed (some .operator));
      s.ready p ∧ s.dev = .lathed ∧ (s.session p).role = some .operator ∧ s.getF Reg.timeStatusState = 0 ∧
        s.argW 0 = 0) ∧
     (let p : Port := .pcie;
      let s : State := (up .service (some .operator));
      s.ready p ∧ (s.dev = .service ∨ s.dev = .doze) ∧ ((s.session p).role = some .installer ∨ (s.session
        p).role = some .operator)) ∧
     (let p : Port := .pcie;
      let s : State := (up .doze (some .operator));
      s.ready p ∧ (s.dev = .service ∨ s.dev = .doze) ∧ ((s.session p).role = some .installer ∨ (s.session
        p).role = some .operator) ∧ s.argW 0 = 0) ∧
     (let p : Port := .pcie;
      let s : State := (up .service (some .installer)).results [7];
      s.ready p ∧ s.dev = .service ∧ ((s.session p).role = some .installer ∨ (s.session p).role = some
        .operator) ∧ s.argW 0 ≠ 0 ∧ s.argW 0 ≠ 0xFFFFFFFF ∧ 0 < barDiff (s.argW 0) s.bar) ∧
     (let p : Port := .pcie;
      let s : State := (up .doze (some .installer)).results [0xFFFFFFFF];
      s.ready p ∧ s.phase = .run ∧ s.dev = .doze ∧ ((s.session p).role = some .installer ∨ (s.session p).role =
        some .operator) ∧ s.argW 0 = 0xFFFFFFFF ∧ s.getF Reg.dozeStatusWaking = 0) ∧
     (let p : Port := .pcie;
      let s : State := (up .lathed (some .operator)).results [0, 0, 2000001];
      s.ready p ∧ (s.dev = .lathed ∨ s.dev = .service ∨ s.dev = .doze) ∧ (s.session p).role = some .operator ∧
        s.inPair = false ∧ s.nowNs + 2000000 ≤ (s.argW 0 + s.argW 1 % 65536 * 2 ^ 32) * 1000000000 + s.argW 2) ∧
     (let p : Port := .pcie;
      let s : State := (fun u : State => { u with pcie := { u.pcie with role := some .operator } }) ((pair
        1).results [0, 0, 2000001]);
      s.ready p ∧ (s.dev = .lathed ∨ s.dev = .service ∨ s.dev = .doze) ∧ (s.session p).role = some .operator ∧
        s.inPair = true ∧ s.getF Reg.bridgeRole ≠ 2 ∧ s.nowNs + 2000000 ≤ (s.argW 0 + s.argW 1 % 65536 * 2 ^ 32) *
        1000000000 + s.argW 2) ∧
     (let p : Port := .qspi;
      let s : State := { up .lightHold none with faData := .filled .faData };
      s.ready p ∧ s.phase = .run ∧ s.dev = .lightHold ∧ s.getF Reg.dozeStatusWaking = 0) ∧
     (let p : Port := .qspi;
      let s : State := (up .bare none).results [100, 3];
      s.ready p ∧ (s.dev = .bare ∨ s.dev = .unlathed ∨ s.dev = .lathed ∨ s.dev = .fault) ∧ RoleRule.permits
        .keylessBoth s.dev (s.session p).role = true ∧ s.journal.first = s.journal.next ∧ s.inPair = false) ∧
     (let p : Port := .qspi;
      let s : State :=
        { up .fault none with prev := .service, journal := ⟨0, 9, 0, some 8, 0, 0, 0, false, 0⟩ };
      s.ready p ∧ s.dev ≠ .lightHold) := by
  iterate 10 refine And.intro (by decide +kernel) ?_
  decide +kernel

theorem witness_DozeAndHoldEvents :
     (let w : Nat := 100000;
      let s : State := (fun u : State => { u with doze := { u.doze with wakeAt := some 100000 } }) ((up .doze
        none).setF Reg.dozeStatusWestIdle 1);
      s.phase = .run ∧ s.dev = .doze ∧ s.getF Reg.dozeStatusWaking = 0 ∧ s.doze.wakeAt = some w ∧ s.beyondFret
        (max s.nowNs w) = false ∧ 0 < s.inc) ∧
     (let s : State := (up .doze none).setF Reg.dozeStatusWaking 1;
      s.phase = .run ∧ s.dev = .doze ∧ s.getF Reg.dozeStatusWaking = 1 ∧ s.job = none ∧ (s.analogWest = true →
        s.getF (Reg.synStatusState 0) = 2 ∧ s.getF (Reg.synStatusState 1) = 2) ∧ (s.analogEast = true → s.getF
        (Reg.synStatusState 2) = 2 ∧ s.getF (Reg.synStatusState 3) = 2) ∧ s.beyondFret (s.tickNs (4 * (s.each [0,
        1] fun s h => s.closeSpans h .syncReset (s.doze.wakeTick / 4 + 64)).firstValid)) = false) ∧
     (let c : Nat := 12345678;
      let s : State :=
        { up .lightHold none with faData := .filled .faData, doze := { State.reset.doze with compare := some 12345678 } };
      s.phase = .run ∧ s.dev = .lightHold ∧ s.getF Reg.dozeStatusWaking = 0 ∧ s.doze.compare = some c ∧ 0 <
        s.inc) ∧
     (let s : State :=
        { (up .lightHold none).setF Reg.dozeStatusWaking 1 with holdFrom := .lathed, faData := .filled .faData };
      s.phase = .run ∧ s.dev = .lightHold ∧ s.getF Reg.dozeStatusWaking = 1 ∧ (s.holdFrom = .service ∨
        s.holdFrom = .lathed) ∧ s.job = none ∧ (s.analogWest = true → s.getF (Reg.synStatusState 0) = 2 ∧ s.getF
        (Reg.synStatusState 1) = 2) ∧ (s.analogEast = true → s.getF (Reg.synStatusState 2) = 2 ∧ s.getF
        (Reg.synStatusState 3) = 2)) ∧
     (let s : State := { up .lightHold none with faData := .filled .faData };
      s.phase = .run ∧ s.dev = .lightHold ∧ s.getF Reg.dozeStatusWaking = 0) ∧
     (let s : State := up .service none;
      s.dev ≠ .lightHold ∧ s.doze.light = none) ∧
     (let e : LightEntry := ⟨3, 0, false, true⟩;
      let s : State := (fun u : State => { u with doze := { u.doze with light := some ⟨3, 0, false, true⟩ } })
        (up .service none);
      s.phase = .run ∧ s.dev ≠ .lightHold ∧ s.doze.light = some e ∧ s.job ≠ some .lightHold) ∧
     (let s : State := (fun u : State =>
        { u with bridge := { u.bridge with paired := true, checkSuspended := true } })
        { up .lathed none with drone := { State.reset.drone with ticks := 1000000 } };
      s.bridge.paired = true ∧ s.bridge.checkSuspended = true ∧ s.dev ≠ .lightHold ∧ s.doze.light = none ∧
        s.beyondFret (s.tickNs (s.doze.wakeTick + 491520)) = false) := by
  iterate 7 refine And.intro (by decide +kernel) ?_
  decide +kernel

theorem witness_DeviceTimeIsSetAndStepped :
     (let p : Port := .qspi;
      let s : State := (up .bare none).results [1234567, 2, 999999999, 0];
      s.ready p ∧ s.phase = .run ∧ (s.dev = .bare ∨ s.dev = .unlathed ∨ s.dev = .lathed ∨ s.dev = .fault) ∧
        RoleRule.permits .keylessBoth s.dev (s.session p).role = true ∧ s.argW 2 < 1000000000 ∧ s.argW 3 = 0 ∧
        s.getF Reg.timeStatusState = 0 ∧ s.bridge.passedStart = none ∧ s.bridge.autoStart = none) ∧
     (let p : Port := .pcie;
      let s : State := ((up .lathed (some .installer)).setF Reg.ppsInEn 1).results [5, 0, 6, 1];
      s.ready p ∧ (s.dev = .bare ∨ s.dev = .unlathed ∨ s.dev = .lathed ∨ s.dev = .fault) ∧ RoleRule.permits
        .keylessBoth s.dev (s.session p).role = true ∧ s.argW 2 < 1000000000 ∧ s.argW 3 = 1 ∧ s.getF Reg.ppsInEn =
        1 ∧ (s.getF Reg.timeStatusState = 2 → s.getF Reg.timeStatusStepUsed = 0) ∧ s.bridge.passedStart = none ∧
        s.bridge.autoStart = none ∧ s.dev ≠ .fault) ∧
     (let ns : Nat := 5000000007;
      let since : Nat := 3;
      let s : State :=
        { (up .lathed (some .installer)).setF Reg.ppsInEn 1 with job := some (.timeSetPps 5000000007 3) };
      s.phase = .run ∧ s.getF Reg.ppsInEn = 1 ∧ s.job = some (.timeSetPps ns since) ∧ s.getF Reg.timeStatusState
        = 0 ∧ s.startPending = false ∧ (s.time.ppsSeen = true → s.time.ppsTick + 221184000 ≤ s.drone.ticks)) ∧
     (let ns : Nat := 5000000007;
      let since : Nat := 3;
      let s : State := let u := (up .lathed (some .installer)).setF Reg.ppsInEn 1;
        { u with job := some (.timeSetPps 5000000007 3), bridge := { u.bridge with passedStart := some 4 } };
      s.phase = .run ∧ s.getF Reg.ppsInEn = 1 ∧ s.job = some (.timeSetPps ns since) ∧ s.startPending = true ∧
        (s.time.ppsSeen = true → s.time.ppsTick + 221184000 ≤ s.drone.ticks)) ∧
     (let ns : Nat := 7;
      let since : Nat := 3;
      let s : State :=
        { up .bare none with job := some (.timeSetPps 7 3), drone := { State.reset.drone with ticks := 270336003 } };
      s.job = some (.timeSetPps ns since) ∧ s.beyondFret (s.tickNs (since + 270336000)) = false) ∧
     (let p : Port := .qspi;
      let d : Int := -12;
      let s : State :=
        { ((up .bare none).setF Reg.timeStatusState 2).results [4294967284] with time := { State.reset.time with now := 12 * 2 ^ 32 } };
      s.ready p ∧ s.phase = .run ∧ (s.dev = .bare ∨ s.dev = .unlathed ∨ s.dev = .lathed ∨ s.dev = .fault) ∧
        RoleRule.permits .keylessBoth s.dev (s.session p).role = true ∧ s.argW 0 = (d % 2 ^ 32).toNat ∧ -(2 ^ 31)
        ≤ d ∧ d < 2 ^ 31 ∧ 0 ≤ s.nowNs + d ∧ s.nowNs + d < 2 ^ 48 * 1000000000 ∧ s.getF Reg.timeStatusState ≠ 0 ∧
        (s.getF Reg.timeStatusState = 2 → s.getF Reg.timeStatusStepUsed = 0) ∧ s.bridge.passedStart = none ∧
        s.bridge.autoStart = none ∧ (∀ k ∈ List.range 8, s.getF (Reg.cmpCtrlArm k) ≠ 0 → ((if s.getF
        (Reg.cmpCtrlMode k) < 2 then max 0 d else 0) : Int) + s.tickNs (s.drone.ticks + 1) < s.cmpFires k)) ∧
     (let p : Port := .qspi;
      let s : State := ((up .fault none).setF Reg.timeStatusState 2).setF Reg.timeStatusStepUsed 1;
      s.ready p ∧ (s.dev = .bare ∨ s.dev = .unlathed ∨ s.dev = .lathed ∨ s.dev = .fault) ∧ RoleRule.permits
        .keylessBoth s.dev (s.session p).role = true ∧ s.argW 0 < 2 ^ 31 ∧ s.nowNs + s.argW 0 < 2 ^ 48 *
        1000000000 ∧ s.startPending = false ∧ (s.getF Reg.timeStatusState = 0 ∨ s.getF Reg.timeStatusState = 2 ∧
        s.getF Reg.timeStatusStepUsed = 1)) ∧
     (let p : Port := .qspi;
      let s : State := let u := (up .fault none).setF Reg.timeStatusState 2;
        { u with bridge := { u.bridge with passedStart := some 4 } };
      s.ready p ∧ (s.dev = .bare ∨ s.dev = .unlathed ∨ s.dev = .lathed ∨ s.dev = .fault) ∧ RoleRule.permits
        .keylessBoth s.dev (s.session p).role = true ∧ s.argW 0 < 2 ^ 31 ∧ s.nowNs + s.argW 0 < 2 ^ 48 *
        1000000000 ∧ s.startPending = true) ∧
     (let p : Port := .pcie;
      let s : State := ((up .service (some .operator)).setF Reg.timeStatusState 1).setF Reg.timeStatusStepUsed
        1;
      s.ready p ∧ s.dev ≠ .lightHold ∧ RoleRule.permits .both s.dev (s.session p).role = true) ∧
     (let p : Port := .pcie;
      let s : State := (up .service (some .operator)).setF Reg.timeStatusState 2;
      s.ready p ∧ s.dev ≠ .lightHold ∧ RoleRule.permits .both s.dev (s.session p).role = true) := by
  iterate 9 refine And.intro (by decide +kernel) ?_
  decide +kernel

theorem witness_ComparesAndPulsesPerSecond :
     (let k : Fin 8 := 3;
      let s : State := ((((up .lightHold none).setF (Reg.cmpCtrlArm 3) 1).setF Reg.timeStatusState 1).setF
        (Reg.cmpValue 3) 5000).setCmpAt 3 5000;
      s.phase = .run ∧ s.getF (Reg.cmpCtrlArm k) = 1 ∧ s.getF Reg.timeStatusState ≠ 0 ∧ s.getF (Reg.cmpCtrlMode
        k) = 0 ∧ s.dev = .lightHold) ∧
     (let k : Fin 8 := 7;
      let s : State := ((up .service none).setF (Reg.cmpCtrlArm 7) 1).setF (Reg.cmpCtrlMode 7) 1 |>.setF
        Reg.timeStatusState 2;
      s.phase = .run ∧ s.dev ≠ .lightHold ∧ s.getF (Reg.cmpCtrlArm k) = 1 ∧ s.getF Reg.timeStatusState ≠ 0 ∧
        mapGet 0 k s.time.cmpAt ≤ s.nowNs ∧ s.getF (Reg.cmpCtrlMode k) < 2 ∧ s.beyondFret s.nowNs = false ∧ 0 <
        s.inc ∧ (∀ c ∈ List.range 8, s.getF (Reg.capConfigTrigger c) ≠ 8 + k) ∧ (∀ x ∈ List.range 4, ∀ h ∈
        (s.synth x).pending, h.2 ≠ 8 + k) ∧ (∀ l ∈ List.range 96, ∀ h ∈ (s.layer l).select, h.edge ≠ 8 + k) ∧ (∀ x
        ∈ List.range 2, s.getF (Reg.seqStatusArmed x) = 0) ∧ s.getF Reg.commitCtrlArm = 0) ∧
     (let k : Fin 8 := 0;
      let b : Nat := 0;
      let m : Nat := 250000;
      let s : State := (((up .service none).setF (Reg.cmpCtrlArm 0) 1).setF (Reg.cmpCtrlMode 0) 2).setF
        Reg.timeStatusState 2 |>.setF (Reg.cmpValue 0) 777;
      s.phase = .run ∧ s.dev ≠ .lightHold ∧ s.getF (Reg.cmpCtrlArm k) = 1 ∧ s.getF Reg.timeStatusState ≠ 0 ∧ m =
        (if s.getF (Reg.cmpCtrlMode k) = 2 then 250000 else 10000000) ∧ 2 ≤ s.getF (Reg.cmpCtrlMode k) ∧ mapGet 0
        k s.time.cmpFired = b ∧ s.beyondFret (s.afterFret (max s.nowNs (b * m + min (s.getF (Reg.cmpValue k)) (m -
        1)))) = false ∧ (∀ c ∈ List.range 8, s.getF (Reg.capConfigTrigger c) ≠ 8 + k) ∧ (∀ x ∈ List.range 4, ∀ h ∈
        (s.synth x).pending, h.2 ≠ 8 + k) ∧ (∀ l ∈ List.range 96, ∀ h ∈ (s.layer l).select, h.edge ≠ 8 + k) ∧ (∀ x
        ∈ List.range 2, s.getF (Reg.seqStatusArmed x) = 0) ∧ s.getF Reg.commitCtrlArm = 0) ∧
     (let s : State :=
        { ((up .lathed none).setF Reg.ppsInEn 1).setF Reg.timeStatusPpsMissing 1 with time := { State.reset.time with now := 1234567890123 * 2 ^ 32 } };
      s.phase = .run ∧ s.getF Reg.ppsInEn = 1 ∧ s.job = none ∧ (s.time.ppsSeen = true → s.time.ppsTick +
        221184000 ≤ s.drone.ticks)) ∧
     (let s : State :=
        { (up .lathed none).setF Reg.ppsInEn 1 with time := { State.reset.time with ppsSeen := true } };
      s.phase = .run ∧ s.getF Reg.ppsInEn = 1 ∧ s.time.ppsSeen = true ∧ s.drone.ticks < s.time.ppsTick +
        221184000) ∧
     (let s : State := up .service none;
      s.getF Reg.ppsInEn = 0) ∧
     (let s : State :=
        { (up .bare none).setF Reg.ppsInEn 1 with drone := { State.reset.drone with ticks := 270336000 } };
      s.phase = .run ∧ s.getF Reg.ppsInEn = 1 ∧ s.getF Reg.timeStatusPpsMissing = 0 ∧ s.beyondFret (s.tickNs
        (s.time.ppsWatch + 270336000)) = false) ∧
     (let d : Int := -999990000;
      let k : Nat := 1;
      let s : State := (((up .service none).setF Reg.ppsOutEn 1).setF Reg.timeStatusState 1).setF
        Reg.ppsOutOffset 3294977296;
      s.phase = .run ∧ s.getF Reg.ppsOutEn = 1 ∧ s.getF Reg.timeStatusState ≠ 0 ∧ s.getF Reg.ppsOutOffset = (d %
        2 ^ 32).toNat ∧ -999999999 ≤ d ∧ d ≤ 999999999 ∧ 0 ≤ k * 1000000000 + d ∧ (k * 1000000000 + d ≤ s.nowNs ∧
        s.time.now < (k * 1000000000 + d) * 2 ^ 32 + s.inc ∧ s.time.ppsRose ≠ s.drone.ticks + 1 ∨ s.nowNs < k *
        1000000000 + d ∧ k * 1000000000 + d ≤ s.nowNs + 1000000000 ∧ ((k * 1000000000 + d - 1000000000) * 2 ^ 32 +
        s.inc ≤ s.time.now ∨ s.time.ppsRose = s.drone.ticks + 1)) ∧ s.beyondFret (k * 1000000000 + d).toNat =
        false) := by
  iterate 7 refine And.intro (by decide +kernel) ?_
  decide +kernel

theorem witness_HostRegisterWrites :
     (let p : Port := .qspi;
      let addr : BitVec 26 := 0x8C;
      let k : Fin 16 := 3;
      let s : State := (up .lathed none).results [1, 2, 3, 0xFFFFFFFF];
      s.ready p ∧ s.job = none ∧ s.portFree p ∧ addr.toNat = 0x80 + 4 * k) ∧
     (let p : Port := .pcie;
      let addr : BitVec 26 := 0x3FFFFFC;
      let s : State := up .service (some .maker);
      s.portFree p ∧ isRegister addr.toNat = false) ∧
     (let p : Port := .pcie;
      let addr : BitVec 26 := 0x800000;
      let s : State := up .lightHold (some .operator);
      s.portFree p ∧ isRegister addr.toNat = true ∧ (∀ d ∈ regDomains addr.toNat, s.domain d ≠ .on ∧ s.domain d
        ≠ .gated)) ∧
     (let p : Port := .qspi;
      let addr : BitVec 26 := 0x180024;
      let be : BitVec 4 := 1;
      let s : State := (up .service none).setF (Reg.txcCtrlEnable 0) 1;
      s.portFree p ∧ addr.toNat = 0x180024 ∧ be.getLsbD 0 = true ∧ (s.session p).role ≠ some .operator) ∧
     (let p : Port := .pcie;
      let addr : BitVec 26 := 0x100014;
      let be : BitVec 4 := 15;
      let k : Fin 4 := 1;
      let s : State := (up .service (some .installer)).setF (Reg.txcCtrlEnable 0) 1;
      s.portFree p ∧ s.mayRecord ∧ addr.toNat = 0x100010 + 4 * k ∧ be = 15 ∧ RoleRule.permits .keylessBoth s.dev
        (s.session p).role = true) ∧
     (let p : Port := .qspi;
      let addr : BitVec 26 := 0x200068;
      let be : BitVec 4 := 15;
      let c : Fin 16 := 3;
      let r : Fin 5 := 2;
      let s : State :=
        { (up .service none).setF (Reg.txcCtrlEnable 0) 1 with qspi := { Session.none with role := some .operator } };
      s.portFree p ∧ addr.toNat = 0x200000 + 0x20 * c + 4 * r ∧ be = 15 ∧ (s.session p).role = some .operator) ∧
     (let p : Port := .pcie;
      let s : State := (up .service (some .operator)).setF (Reg.txcCtrlEnable 0) 1;
      s.portFree p ∧ s.mayRecord ∧ ((s.session p).role = some .installer ∨ (s.session p).role = some .operator)) ∧
     (let p : Port := .pcie;
      let s : State := ((up .service (some .operator)).setF (Reg.txcCtrlEnable 0) 1).setF Reg.commitCtrlArm 1;
      s.portFree p ∧ s.mayRecord ∧ ((s.session p).role = some .installer ∨ (s.session p).role = some .operator)) ∧
     (let p : Port := .qspi;
      let s : State := up .bare none;
      s.portFree p) ∧
     (let p : Port := .qspi;
      let s : State := (up .bare none).setF Reg.cmdClaimOwner 2;
      s.portFree p) ∧
     (let p : Port := .pcie;
      let s : State := ((up .service (some .maker)).setF (Reg.txcCtrlEnable 0) 1).setF (Reg.evStatus 2) 0x31;
      s.portFree p ∧ s.inert ∧ s.jobWaits ∧ ((s.session p).role ≠ none ∨ s.dev = .bare ∨ s.dev = .unlathed ∨
        s.dev = .fault)) ∧
     (let v : Fin 32 := 5;
      let s : State := (fun u : State => { u with events := { u.events with withheld := [5], vectors := [5] } })
        ((((up .service none).setF (Reg.txcCtrlEnable 0) 1).setF (Reg.evStatus 0) 1).setF (Reg.evEnable 0) 1
        |>.setF (Reg.evRouteByte0 0) 37);
      s.portFree .pcie ∧ s.getF (Reg.msixControlMask v) = 1) ∧
     (let s : State := ((up .service (some .operator)).setF (Reg.msixControlMask 3) 0).setF Reg.cmdClaimOwner 1;
      s.portFree .pcie) := by
  iterate 10 refine And.intro (by decide +kernel) ?_
  refine And.intro ⟨by decide +kernel, by decide +kernel, trivial, by decide +kernel⟩ ?_
  refine And.intro (by decide +kernel) ?_
  decide +kernel

theorem witness_HostReadsLatchAndPop :
     (let p : Port := .pcie;
      let addr : BitVec 26 := 0x180004;
      let s : State :=
        { up .lathed none with time := { State.reset.time with now := 5123456789012345678901 * 2 ^ 32 + 77 } };
      s.portFree p ∧ addr = 0x180004) ∧
     (let p : Port := .qspi;
      let addr : BitVec 26 := 0x180208;
      let s : State :=
        { (up .lathed none).setF Reg.ppsInNs 99 with time := { State.reset.time with ppsSecLatch := 5000000000 } };
      s.portFree p ∧ addr = 0x180208) ∧
     (let p : Port := .pcie;
      let addr : BitVec 26 := 0x3FFFFFC;
      let s : State := up .bare none;
      s.portFree p ∧ isRegister addr.toNat = false) ∧
     (let p : Port := .pcie;
      let e : Nat × Nat := (7, 5000000000000000001);
      let l : List (Nat × Nat) := [];
      let s : State :=
        { up .lathed none with time := { State.reset.time with txts := [(7, 5000000000000000001)] } };
      s.portFree p ∧ s.time.txts = e :: l) ∧
     (let p : Port := .qspi;
      let s : State := up .lathed none;
      s.portFree p ∧ s.time.txts = []) ∧
     (let p : Port := .pcie;
      let s : State :=
        { (up .lathed (some .operator)).setF (Reg.txcCtrlEnable 0) 1 with time := { State.reset.time with txts := [(7, 5), (8, 6)] } };
      s.portFree p ∧ ((s.session p).role = some .installer ∨ (s.session p).role = some .operator)) ∧
     (let p : Port := .qspi;
      let e : ErrRec := ⟨5, 3, 1, 9, 0x7F, 77⟩;
      let l : List ErrRec := [];
      let s : State :=
        { up .lathed none with memint := { State.reset.memint with log := [⟨5, 3, 1, 9, 0x7F, 77⟩] } };
      s.portFree p ∧ s.memint.log = e :: l) ∧
     (let p : Port := .qspi;
      let s : State := up .lathed none;
      s.portFree p ∧ s.memint.log = []) ∧
     (let p : Port := .pcie;
      let s : State :=
        { (up .lathed (some .installer)).setF (Reg.txcCtrlEnable 0) 1 with memint := { State.reset.memint with log := [⟨5, 3, 1, 9, 0x7F, 77⟩] } };
      s.portFree p ∧ ((s.session p).role = some .installer ∨ (s.session p).role = some .operator)) ∧
     (let p : Port := .pcie;
      let s : State := (fun u : State =>
        { u with mon := { u.mon with slots := vecSet u.mon.slots 31 ⟨[0, 0, 0, 0], [0, 0, 0, 0], 0, 0, -5, 9, 0, false⟩ } })
        (up .service none);
      s.portFree p ∧ s.reached .monitor = true) := by
  iterate 9 refine And.intro (by decide +kernel) ?_
  decide +kernel

theorem witness_HostWindowsAndFrames :
     (let p : Port := .qspi;
      let offset : Nat := 0x1000006;
      let s : State := { up .bare none with captureMem := ⟨[(4, 7), (7, 0x80)], [], .clean⟩ };
      s.portFree p ∧ 0x1000000 ≤ offset ∧ offset < 0x1400000 ∧ s.dev ≠ .lightHold ∧ s.covers 10 4 1 = true ∧
        s.wordMark .capture ((offset - 0x1000000) / 32) = .clean) ∧
     (let p : Port := .pcie;
      let offset : Nat := 0x1000006;
      let s : State := { up .bare none with captureMem := ⟨[(4, 7), (7, 0x80)], [(0, .poisoned)], .clean⟩ };
      s.portFree p ∧ 0x1000000 ≤ offset ∧ offset < 0x1400000 ∧ s.dev ≠ .lightHold ∧ s.covers 10 4 1 = true ∧
        (s.wordMark .capture ((offset - 0x1000000) / 32) = .poisoned ∨ s.wordMark .capture ((offset - 0x1000000) /
        32) = .uncorrectable)) ∧
     (let p : Port := .pcie;
      let offset : Nat := 0x1000006;
      let s : State := ((up .lathed none).setF Reg.budgetStatusEnforcing 1).setF (Reg.budgetClassCeil 10 4) 0;
      s.portFree p ∧ 0x1000000 ≤ offset ∧ offset < 0x1400000 ∧ s.dev ≠ .lightHold ∧ s.mayUse 10 4 = false ∧
        s.part 10 4 = 0) ∧
     (let p : Port := .pcie;
      let offset : Nat := 0x100001E;
      let bytes : List Byte := [1, 2, 3, 0];
      let s : State := { up .bare none with captureMem := ⟨[(4, 7), (33, 0x80), (34, 5)], [], .clean⟩ };
      s.portFree p ∧ 0x1000000 ≤ offset ∧ offset + bytes.length ≤ 0x1400000 ∧ bytes ≠ [] ∧ s.dev ≠ .lightHold ∧
        s.covers 10 4 ((offset % 32 + bytes.length + 31) / 32) = true ∧ s.loadRange = none ∧ s.cleanAt .capture
        (offset - 0x1000000) bytes.length) ∧
     (let p : Port := .pcie;
      let offset : Nat := 250;
      let bytes : List Byte := [1, 2, 3, 4, 5, 6, 7, 8];
      let s : State := up .service (some .operator);
      s.portFree p ∧ s.reached .spectral = true ∧ s.dev ≠ .lightHold ∧ s.covers 10 3 ((offset % 32 +
        bytes.length + 31) / 32) = true ∧ bytes ≠ [] ∧ offset + bytes.length ≤ 0x20000 ∧ (s.session p).role = some
        .operator ∧ (∀ i ∈ List.range bytes.length, s.rowInUse ((offset + i) / 256) = false) ∧ s.cleanAt .stencil
        offset bytes.length) ∧
     (let p : Port := .pcie;
      let offset : Nat := 0x20000;
      let bytes : List Byte := [1];
      let s : State := up .service (some .operator);
      s.portFree p ∧ s.reached .spectral = true ∧ s.dev ≠ .lightHold ∧ s.covers 10 3 ((offset % 32 +
        bytes.length + 31) / 32) = true ∧ bytes ≠ [] ∧ 0x20000 ≤ offset ∧ offset + bytes.length ≤ 0x100000) ∧
     (let p : Port := .pcie;
      let offset : Nat := 0xFFFFFF;
      let bytes : List Byte := [1];
      let s : State := up .service (some .operator);
      s.portFree p ∧ s.reached .registry = true ∧ s.dev ≠ .lightHold ∧ s.covers 10 0 ((offset % 32 +
        bytes.length + 31) / 32) = true ∧ bytes ≠ []) ∧
     (let p : Port := .pcie;
      let offset : Nat := 0x1FFFE;
      let n : Nat := 23;
      let bytes : List Byte := [1, 2];
      let s : State :=
        { (up .service (some .operator)).setF Reg.faerorWindowCore 23 with cores := vecSet State.reset.cores 23 { State.reset.core 23 with operator := true } };
      s.portFree p ∧ s.reached .faeror = true ∧ s.dev ≠ .lightHold ∧ s.covers 10 4 ((offset % 32 + bytes.length
        + 31) / 32) = true ∧ bytes ≠ [] ∧ offset + bytes.length ≤ 0x20000 ∧ s.getF Reg.faerorWindowCore = n ∧ n <
        24 ∧ (s.core n).operator = true ∧ (s.session p).role = some .operator ∧ s.cleanAt .faData (131072 * n +
        offset) bytes.length) ∧
     (let p : Port := .pcie;
      let offset : Nat := 8;
      let n : Nat := 23;
      let bytes : List Byte := [1, 2];
      let s : State :=
        { (up .service (some .maker)).setF Reg.faerorWindowCore 23 with cores := vecSet State.reset.cores 23 { State.reset.core 23 with operator := true } };
      s.portFree p ∧ s.reached .faeror = true ∧ s.dev ≠ .lightHold ∧ s.covers 10 4 ((offset % 32 + bytes.length
        + 31) / 32) = true ∧ s.getF Reg.faerorWindowCore = n ∧ (s.core n).operator = true ∧ (s.session p).role ≠
        some .operator) ∧
     (let offset : BitVec 8 := 0;
      let words : Nat := 1;
      offset = 0 ∧ words = 1) ∧
     (let offset : BitVec 8 := 0x18;
      let words : Nat := 2;
      offset = 0x18 ∧ words = 2) ∧
     (let offset : BitVec 8 := 0x14;
      let words : Nat := 1;
      offset = 0x14 ∧ words = 1) ∧
     (let addr : Word := 4;
      let words : Nat := 1;
      let s : State := up .lightHold none;
      s.portFree .qspi ∧ addr = 4 ∧ words = 1) ∧
     (let addr : Word := 5;
      let words : Nat := 1;
      let s : State := up .bare none;
      words = 1 ∧ (∀ q ∈ s.hostQueue, q.port ≠ .qspi) ∧ s.noneDue ∧ (s.phase = .deepHold ∨ addr.toNat % 4 ≠ 0)) ∧
     (let addr : Word := 0x84;
      let data : List Word := [77];
      let k : Fin 16 := 1;
      let v : Word := 77;
      let s : State := up .bare none;
      s.ready .qspi ∧ s.portFree .qspi ∧ s.job = none ∧ addr.toNat = 0x80 + 4 * k ∧ data = [v]) ∧
     (let s : State := { up .bare none with phase := .deepHold };
      s.spineRuns = false) := by
  iterate 15 refine And.intro (by decide +kernel) ?_
  decide +kernel

theorem witness_BlockRegisterWrites :
     (let p : Port := .pcie;
      let n : Fin 24 := 23;
      let s : State :=
        { (up .service (some .operator)).setF (Reg.txcCtrlEnable 0) 1 with cores := vecSet State.reset.cores 23 { State.reset.core 23 with operator := true, loaded := true, entry := 77 } };
      s.portFree p ∧ s.reached .faeror = true ∧ (s.session p).role = some .operator ∧ (s.core n).operator = true
        ∧ (s.core n).loaded = true ∧ (s.core n).run = .halted ∧ s.mayUse 15 1 = true) ∧
     (let p : Port := .pcie;
      let n : Fin 24 := 23;
      let s : State :=
        { (up .service (some .operator)).setF (Reg.txcCtrlEnable 0) 1 with cores := vecSet State.reset.cores 23 { State.reset.core 23 with operator := true, run := .running, pc := 5 } };
      s.portFree p ∧ s.reached .faeror = true ∧ (s.session p).role = some .operator ∧ (s.core n).operator = true
        ∧ (s.core n).run ≠ .halted) ∧
     (let p : Port := .pcie;
      let n : Fin 24 := 3;
      let s : State :=
        { (up .service (some .operator)).setF (Reg.txcCtrlEnable 0) 1 with cores := vecSet State.reset.cores 3 { State.reset.core 3 with operator := true } };
      s.portFree p ∧ s.reached .faeror = true ∧ (s.session p).role = some .operator ∧ (s.core n).operator = true) ∧
     (let p : Port := .pcie;
      let k : Fin 16 := 15;
      let s : State := ((up .service (some .installer)).setF (Reg.txcCtrlEnable 0) 1).setF (Reg.biasRange 15) 1;
      s.portFree p ∧ s.mayRecord ∧ s.reached .monitor = true ∧ (s.session p).role = some .installer ∧ s.getF
        (Reg.biasRange k) ≤ 1) ∧
     (let p : Port := .pcie;
      let k : Fin 16 := 15;
      let r : Bool := true;
      let s : State := ((up .service (some .installer)).setF (Reg.txcCtrlEnable 0) 1).setF (Reg.biasCode 15)
        4000;
      s.portFree p ∧ s.mayRecord ∧ s.reached .monitor = true ∧ (s.session p).role = some .installer ∧ s.getF
        (Reg.biasCode k) < 4096 ∧ s.getF (Reg.biasRange k) = (if r then 0 else 1)) ∧
     (let p : Port := .pcie;
      let s : State := (((up .service (some .installer)).setF (Reg.txcCtrlEnable 0) 1).setF (Reg.biasWritten 4)
        1).setF (Reg.biasWritten 5) 1 |>.setF (Reg.biasCode 4) 77;
      s.portFree p ∧ s.mayRecord ∧ s.reached .monitor = true ∧ (s.session p).role = some .installer ∧ s.getF
        Reg.biasLoadFretStrobe ≤ 1) ∧
     (let k : Fin 16 := 2;
      let b : Nat := 1;
      let s : State :=
        { (up .service none) with bias := vecModify State.reset.bias 2 fun _ => ⟨some 1, true, true, false, none⟩ };
      (s.biasOf k).safeSince = some b ∧ s.beyondFret (s.tickNs (b + 492)) = false) ∧
     (let p : Port := .pcie;
      let n : Fin 64 := 40;
      let s : State := (up .service (some .operator)).setF (Reg.txcCtrlEnable 0) 1;
      s.portFree p ∧ s.mayRecord ∧ s.reached (dfeOf (n / 32)) = true ∧ s.underTest n = false ∧ ((s.session
        p).role = some .installer ∨ (s.session p).role = some .operator)) ∧
     (let p : Port := .pcie;
      let n : Fin 64 := 40;
      let s : State := (up .service (some .operator));
      s.portFree p ∧ s.mayRecord ∧ s.reached (dfeOf (n / 32)) = true ∧ s.underTest n = false ∧ ((s.session
        p).role = some .installer ∨ (s.session p).role = some .operator)) ∧
     (let p : Port := .pcie;
      let n : Fin 64 := 40;
      let s : State := (up .service (some .operator)).setF (Reg.txcCtrlEnable 0) 1;
      s.portFree p ∧ s.mayRecord ∧ s.reached (dfeOf (n / 32)) = true ∧ s.underTest n = false ∧ ((s.session
        p).role = some .installer ∨ (s.session p).role = some .operator)) ∧
     (let p : Port := .pcie;
      let n : Fin 64 := 63;
      let s : State := (up .service (some .operator)).setF (Reg.txcCtrlEnable 0) 1;
      s.portFree p ∧ s.mayRecord ∧ s.reached (dfeOf (n / 32)) = true ∧ s.underTest n = false ∧ ((s.session
        p).role = some .installer ∨ (s.session p).role = some .operator)) ∧
     (let p : Port := .pcie;
      let n : Fin 64 := 63;
      let s : State := (up .service (some .operator)).setF (Reg.txcCtrlEnable 0) 1;
      s.portFree p ∧ s.mayRecord ∧ s.reached (dfeOf (n / 32)) = true ∧ s.underTest n = false ∧ ((s.session
        p).role = some .installer ∨ (s.session p).role = some .operator)) ∧
     (let p : Port := .pcie;
      let s : State := ((up .service (some .operator)).setF (Reg.txcCtrlEnable 0) 1).setF (Reg.capRptrPtr 7)
        100;
      s.portFree p ∧ s.mayRecord ∧ (s.reached .dfeWest = true ∨ s.reached .dfeEast = true) ∧ ((s.session p).role
        = some .installer ∨ (s.session p).role = some .operator)) ∧
     (let p : Port := .pcie;
      let s : State := ((up .service (some .operator)).setF (Reg.txcCtrlEnable 0) 1).setF (Reg.capStatusRunning
        7) 1;
      s.portFree p ∧ s.mayRecord ∧ (s.reached .dfeWest = true ∨ s.reached .dfeEast = true) ∧ ((s.session p).role
        = some .installer ∨ (s.session p).role = some .operator)) ∧
     (let k : Fin 8 := 7;
      let n : Nat := 100;
      let s : State := ((up .service none).setF (Reg.capRptrPtr 7) 100).setCap 7 fun _ => ⟨0, some 100, 5, true,
        0, []⟩;
      (s.cap k).held = some n ∧ (s.cap k).atEnd = true ∧ n < 2 ^ 18) ∧
     (let p : Port := .pcie;
      let s : State :=
        { (up .service (some .operator)).setF (Reg.txcCtrlEnable 0) 1 with time := { State.reset.time with incLoBuf := 0x11AAAAAC } };
      s.portFree p ∧ (s.session p).role = some .operator) ∧
     (let p : Port := .pcie;
      let k : Fin 8 := 7;
      let s : State := (((up .service (some .operator)).setF (Reg.txcCtrlEnable 0) 1).setF (Reg.cmpValue 7) 5);
      s.portFree p ∧ s.mayRecord ∧ ((s.session p).role = some .installer ∨ (s.session p).role = some .operator)
        ∧ (s.getF (Reg.cmpCtrlArm k) = 0 ∨ s.getF Reg.timeStatusState = 0 ∨ s.nowNs < s.cmpFires k)) ∧
     (let p : Port := .pcie;
      let k : Fin 8 := 3;
      let s : State :=
        { (((up .service (some .operator)).setF (Reg.txcCtrlEnable 0) 1).setF (Reg.cmpValue 3) 5) with time := { State.reset.time with now := 9 * 2 ^ 32 } };
      s.portFree p ∧ s.mayRecord ∧ ((s.session p).role = some .installer ∨ (s.session p).role = some .operator)
        ∧ (s.getF (Reg.cmpCtrlArm k) = 0 ∨ s.getF Reg.timeStatusState = 0 ∨ s.nowNs < s.cmpFires k)) ∧
     (let p : Port := .pcie;
      let k : Fin 8 := 3;
      let s : State :=
        { (((up .service (some .operator)).setF (Reg.txcCtrlEnable 0) 1).setF (Reg.cmpValue 3) 15) with time := { State.reset.time with now := 9 * 2 ^ 32 } };
      s.portFree p ∧ s.mayRecord ∧ ((s.session p).role = some .installer ∨ (s.session p).role = some .operator)
        ∧ (s.getF (Reg.cmpCtrlArm k) = 0 ∨ s.getF Reg.timeStatusState = 0 ∨ s.nowNs < s.cmpFires k)) ∧
     (let p : Port := .pcie;
      let s : State := (((((up .service (some .operator)).setF (Reg.txcCtrlEnable 0) 1).setF Reg.linkStatusUp
        1).setF Reg.linkStatusBbFound 1).setF Reg.timeStatusState 1).setF Reg.owdCtrlMeasId 255;
      s.portFree p ∧ s.reached .link = true ∧ ((s.session p).role = some .installer ∨ (s.session p).role = some
        .operator) ∧ s.getF Reg.owdCtrlBusy = 0) ∧
     (let p : Port := .pcie;
      let s : State := (fun u : State => { u with bridge := { u.bridge with refused := true } }) (((up .service
        (some .installer)).setF (Reg.txcCtrlEnable 0) 1).setF Reg.bridgeStatusRefuse 3);
      s.portFree p ∧ s.mayRecord ∧ s.reached .bridge = true ∧ (s.session p).role = some .installer ∧
        s.bridge.refused = true) ∧
     (let p : Port := .pcie;
      let s : State := (fun u : State => { u with bridge := { u.bridge with paired := true } }) ((((up .service
        (some .installer)).setF (Reg.txcCtrlEnable 0) 1).setF Reg.bridgeStatusTrained 1).setF Reg.bridgeRole 1);
      s.portFree p ∧ s.mayRecord ∧ s.reached .bridge = true ∧ (s.session p).role = some .installer ∧ s.getF
        Reg.bridgeCtrlEnable = 1 ∧ s.bridge.forwarded = [] ∧ s.bridge.waits = []) ∧
     (let p : Port := .pcie;
      let s : State := (((up .service (some .installer)).setF (Reg.txcCtrlEnable 0) 1).setF (Reg.skimPos 1)
        9).setF (Reg.skimPos 2) 8;
      s.portFree p ∧ s.mayRecord ∧ (s.session p).role = some .installer) ∧
     (let p : Port := .pcie;
      let n : Fin 64 := 63;
      let s : State := (up .service (some .operator)).setF (Reg.txcCtrlEnable 0) 1;
      s.portFree p ∧ s.mayRecord ∧ s.reached (dfeOf (n / 32)) = true ∧ s.underTest n = false ∧ s.underTest n =
        false ∧ ((s.session p).role = some .installer ∨ (s.session p).role = some .operator) ∧ s.getSh
        (Reg.txCtrlCfrEn n) ≤ 1 ∧ s.getSh (Reg.txCtrlDpdEn n) ≤ 1 ∧ s.getF (Reg.txCtrlImageEn n) ≤ 1 ∧ s.getF
        (Reg.txCtrlDcEn n) ≤ 1 ∧ s.getF (Reg.txCtrlMute n) ≤ 1) := by
  iterate 23 refine And.intro (by decide +kernel) ?_
  decide +kernel

theorem witness_FretBoundaryNumbersTheFret :
     (let s : State :=
        { up .service none with time := { State.reset.time with now := 260000 * 2 ^ 32, fret := 1 } };
      s.phase = .run ∧ s.dev ≠ .lightHold ∧ s.hostQueue = [] ∧ s.job = none ∧ 0 < s.inc) ∧
     (let s : State :=
        { up .bare none with time := { State.reset.time with now := 260000 * 2 ^ 32, fret := 0 } };
      s.phase = .run ∧ s.dev ≠ .lightHold ∧ s.hostQueue = [] ∧ s.job = none ∧ 0 < s.inc) ∧
     (let s : State :=
        { (up .service none).setF Reg.commitCtrlArm 1 with time := { State.reset.time with now := 260000 * 2 ^ 32, fret := 1 } };
      s.phase = .run ∧ s.dev ≠ .lightHold ∧ s.hostQueue = [] ∧ s.job = none ∧ s.fh.queue = [] ∧ s.sched.waiting
        = [] ∧ s.lath.pending = none ∧ s.getF Reg.sagStatusStage ≠ 4 ∧ 0 < s.inc ∧ s.inc < 2 ^ 40 ∧ s.nowNs /
        250000 ≤ s.time.fret) ∧
     (let s : State :=
        { ((up .unlathed none).setF Reg.commitCtrlArm 1).setF Reg.commitCtrlPoint 9 with time := { State.reset.time with now := 260000 * 2 ^ 32, fret := 1 }, rx := { State.reset.rx with backedOff := [3] } };
      s.phase = .run ∧ s.dev ≠ .lightHold ∧ s.hostQueue = [] ∧ s.job = none ∧ s.fh.queue = [] ∧ s.sched.waiting
        = [] ∧ s.lath.pending = none ∧ s.getF Reg.sagStatusStage ≠ 4 ∧ 0 < s.inc ∧ s.inc < 2 ^ 40 ∧ s.nowNs /
        250000 ≤ s.time.fret) ∧
     (let s : State := up .lightHold none;
      s.phase ≠ .run ∨ s.dev = .lightHold) := by
  iterate 4 refine And.intro (by decide +kernel) ?_
  decide +kernel

theorem witness_SymbolsStartAndSettingsTakeEffect :
     (let c : Fin 4 := 2;
      let s : State := (((((up .lathed none).setF (Reg.txcCtrlEnable 2) 1).setF (Reg.txDpdPending 9) 1).setF
        (Reg.txDpdReqBank 9) 1).setF (Reg.txCfrPulseSel 63) 1);
      s.symbolsOf 1 c = true ∧ s.dev = .lathed ∧ s.timingCarrier = some c.val ∧ s.getF (Reg.carConfigEnable 1 c)
        = 0 ∧ s.beyondFret (max s.nowNs (s.nextSymbol 1 c).ns) = false) ∧
     (let c : Fin 4 := 3;
      let s : State := (up .service none).setF (Reg.carConfigEnable 0 3) 1;
      s.symbolsOf 0 c = true ∧ s.beyondFret (max s.nowNs (s.nextSymbol 0 c).ns) = false) ∧
     (let c : Fin 4 := 3;
      let d : Fin 2 := 1;
      let s : State := (up .service none);
      s.symbolsOf d c = false) := by
  iterate 2 refine And.intro (by decide +kernel) ?_
  decide +kernel

theorem witness_ReceivePathsSyncAndBackOff :
     (let p : Port := .qspi;
      let s : State :=
        { (up .lathed none).results [5, 6] with qspi := { Session.none with role := some .installer } };
      s.ready p ∧ (s.dev = .lathed ∨ s.dev = .service) ∧ RoleRule.permits .both s.dev (s.session p).role = true) ∧
     (let p : Fin 64 := 63;
      let s : State := ((({ (up .service none) with analogEast := true }).setF (Reg.rxCtrlOvlBackoffEn 63)
        1).setF (Reg.rxAgcMaxIndex 63) 30).setF (Reg.rxGainIndexActive 63) 20;
      s.domain (dfeOf (p / 32)) = .on ∧ s.analogOn (p / 32) = true ∧ s.getF (Reg.rxCtrlOvlBackoffEn p) = 1 ∧
        p.val ∉ s.rx.backedOff ∧ s.getF (Reg.rxAgcMinIndex p) ≤ s.getF (Reg.rxAgcMaxIndex p)) ∧
     (let p : Fin 64 := 0;
      let s : State := ({ (up .service none) with analogWest := true }).setF (Reg.rxCtrlOvlBackoffEn 0) 0;
      s.domain (dfeOf (p / 32)) = .on ∧ s.analogOn (p / 32) = true ∧ (s.getF (Reg.rxCtrlOvlBackoffEn p) = 0 ∨
        p.val ∈ s.rx.backedOff)) ∧
     (let p : Fin 64 := 0;
      let s : State := up .service none;
      s.analogOn (p / 32) = false) := by
  iterate 3 refine And.intro (by decide +kernel) ?_
  decide +kernel

theorem witness_PathsAndSynthesizers :
     (let p : Port := .pcie;
      let s : State := (((up .lathed (some .operator)).results [3, 0x80000000]).setF (Reg.pathStateState 1) 5).setF
        (Reg.pathStateFenceReason 1) 3;
      s.ready p ∧ (s.dev = .lathed ∨ s.dev = .service ∨ s.dev = .doze) ∧ RoleRule.permits .both s.dev (s.session
        p).role = true) ∧
     (let p : Port := .pcie;
      let s : State := (((((up .lathed (some .installer)).results [7, 0]).setF (Reg.pathStateState 1) 5).setF
        (Reg.pathStateFenceReason 1) 5).setF (Reg.tileStatusState 0) 3).setF (Reg.pathStateState 2) 5 |>.setF
        (Reg.pathStateFenceReason 2) 3;
      s.ready p ∧ (s.dev = .lathed ∨ s.dev = .service) ∧ RoleRule.permits .both s.dev (s.session p).role = true) ∧
     (let p : Port := .pcie;
      let s : State := ((up .lathed (some .operator)).results [7, 0]).setF (Reg.pathStateState 1) 2;
      s.ready p ∧ (s.dev = .lathed ∨ s.dev = .service) ∧ RoleRule.permits .both s.dev (s.session p).role = true
        ∧ s.deferred 5 = false ∧ (∀ q ∈ s.argPaths, s.path q ≠ 1)) ∧
     (let p : Port := .pcie;
      let s : State := ((up .service (some .operator)).results [2, 0]).setF (Reg.pathStateState 1) 2;
      s.ready p ∧ (s.dev = .lathed ∨ s.dev = .service) ∧ RoleRule.permits .both s.dev (s.session p).role = true
        ∧ s.deferred 5 = false ∧ (∀ q ∈ s.argPaths, s.path q ≠ 1)) ∧
     (let p : Port := .pcie;
      let m : Nat := 9;
      let f : Nat := 2000000;
      let w : Nat := 15;
      let s : State := (up .service (some .operator)).results [9, 2000000, 15];
      s.ready p ∧ (s.dev = .lathed ∨ s.dev = .service) ∧ (s.session p).role = some .operator ∧ s.argW 0 = m ∧
        s.argW 1 = f ∧ s.argW 2 = w ∧ 1 ≤ m ∧ m < 16 ∧ (w = 1 ∨ 8 ≤ w ∧ w ≤ 15) ∧ 600000 ≤ f ∧ f ≤ 4200000 ∧ (∀ x
        ∈ List.range 4, testBit m x = true → s.getF (Reg.synBandBandLo x) * 1000 ≤ f ∧ f ≤ s.getF
        (Reg.synBandBandHi x) * 1000 ∧ s.getF (Reg.synStatusState x) ≠ 3 ∧ s.getF (Reg.synStatusState x) ≠ 4 ∧
        (s.synth x).pending = none)) ∧
     (let p : Port := .pcie;
      let m : Nat := 9;
      let f : Nat := 2000000;
      let s : State := ((up .service (some .operator)).results [9, 2000000, 0]).setF (Reg.synStatusState 0) 2;
      s.ready p ∧ (s.dev = .lathed ∨ s.dev = .service) ∧ (s.session p).role = some .operator ∧ s.argW 0 = m ∧
        s.argW 1 = f ∧ s.argW 2 = 0 ∧ 1 ≤ m ∧ m < 16 ∧ 600000 ≤ f ∧ f ≤ 4200000 ∧ (∀ x ∈ List.range 4, testBit m x
        = true → s.getF (Reg.synBandBandLo x) * 1000 ≤ f ∧ f ≤ s.getF (Reg.synBandBandHi x) * 1000 ∧ s.getF
        (Reg.synStatusState x) ≠ 3 ∧ s.getF (Reg.synStatusState x) ≠ 4 ∧ (s.synth x).pending = none)) ∧
     (let p : Port := .pcie;
      let x : Fin 4 := 3;
      let f : Nat := 4200000;
      let s : State := (up .service (some .installer)).results [3, 4200000, 1];
      s.ready p ∧ (s.dev = .lathed ∨ s.dev = .service) ∧ (s.session p).role = some .installer ∧ s.argW 0 = x ∧
        s.argW 1 = f ∧ s.argW 2 ≤ 1 ∧ 600000 ≤ f ∧ f ≤ 4200000 ∧ s.deferred 5 = false ∧ s.getF (Reg.synBandBandLo
        x) * 1000 ≤ f ∧ f ≤ s.getF (Reg.synBandBandHi x) * 1000 ∧ s.getF (Reg.synStatusState x) ≠ 3 ∧ s.getF
        (Reg.synStatusState x) ≠ 4 ∧ (s.synth x).pending = none ∧ (s.getF (Reg.synStatusState x) = 1 → (s.synth
        x).work = some .hop)) ∧
     (let p : Port := .pcie;
      let x : Fin 4 := 3;
      let i : Fin 256 := 255;
      let s : State := ((up .service (some .installer)).results [3, 255]).setF (Reg.synStore0Valid 3 255) 1;
      s.ready p ∧ (s.dev = .lathed ∨ s.dev = .service) ∧ (s.session p).role = some .installer ∧ s.argW 0 = x ∧
        s.argW 1 = i) ∧
     (let x : Fin 4 := 2;
      let s : State := ((up .service none).setF (Reg.synStatusState 2) 4).setSynth 2 fun y =>
        { y with work := some .hop };
      (s.synth x).work = some .hop ∧ s.getF (Reg.synStatusState x) ≠ 0 ∧ (s.synth x).cal = none ∧ s.job = none) ∧
     (let x : Fin 4 := 2;
      let found : Bool := false;
      let s : State := ((up .service none).setF (Reg.synStatusState 2) 4).setSynth 2 fun y =>
        { y with work := some .fallback };
      (s.synth x).work = some .fallback ∧ s.getF (Reg.synStatusState x) ≠ 0 ∧ found = false) ∧
     (let x : Fin 4 := 1;
      let s : State := (up .service none).setF (Reg.synStatusState 1) 2;
      s.getF (Reg.synStatusState x) = 2) ∧
     (let x : Fin 4 := 3;
      let s : State := ((up .service none).setF (Reg.synStatusState 3) 3).setSynth 3 fun y =>
        { y with work := some .full, relock := true };
      (s.synth x).relock = true ∧ (s.synth x).work = some .full) := by
  iterate 11 refine And.intro (by decide +kernel) ?_
  decide +kernel

theorem witness_TilesAndAerials :
     (let h : Fin 8 := 7;
      let s : State := up .lathed none;
      (s.tile h).pin = false) ∧
     (let h : Fin 8 := 7;
      let s : State := up .unlathed none;
      (s.tile h).pin = false) ∧
     (let h : Fin 8 := 7;
      let s : State :=
        { (((up .lathed none).setF (Reg.tileStatusState 7) 1).setTile 7 fun x => { x with pin := true }).setF (Reg.tileCtrlAutoEnum 7) 1 with drone := { State.reset.drone with ticks := 9000000 } };
      s.getF (Reg.tileStatusState h) = 1 ∧ (s.tile h).pin = true ∧ s.beyondFret (s.tickNs ((s.tile h).since +
        2457600)) = false) ∧
     (let h : Fin 8 := 5;
      let s : State := ((up .lathed none).setF (Reg.tileStatusState 5) 2).setTile 6 fun x =>
        { x with queued := true };
      s.inLathedUp = true ∧ s.getF (Reg.tileStatusState h) = 2 ∧ (s.tile h).queued = false) ∧
     (let p : Port := .pcie;
      let h : Fin 8 := 2;
      let s : State := ((up .lathed (some .installer)).results [2]).setF (Reg.tileStatusState 2) 4;
      s.ready p ∧ s.job = none ∧ (s.dev = .lathed ∨ s.dev = .service ∨ s.dev = .doze) ∧ (s.session p).role =
        some .installer ∧ s.argW 0 = h) ∧
     (let p : Port := .pcie;
      let h : Fin 8 := 2;
      let s : State := (((up .lathed (some .installer)).results [2]).setF (Reg.tileStatusState 2) 5).setF
        (Reg.tileStatusState 0) 2;
      s.ready p ∧ s.job = none ∧ (s.dev = .lathed ∨ s.dev = .service ∨ s.dev = .doze) ∧ (s.session p).role =
        some .installer ∧ s.argW 0 = h) ∧
     (let p : Port := .pcie;
      let h : Fin 8 := 2;
      let s : State := ((up .service (some .installer)).results [2]).setF (Reg.tileStatusState 2) 3;
      s.ready p ∧ s.job = none ∧ (s.dev = .lathed ∨ s.dev = .service ∨ s.dev = .doze) ∧ (s.session p).role =
        some .installer ∧ s.argW 0 = h ∧ s.getF (Reg.tileStatusState h) ≠ 0) ∧
     (let h : Fin 8 := 2;
      let s : State := ((up .service none).setF (Reg.tileStatusState 2) 3).setTile 2 fun x =>
        { x with pin := true };
      (s.tile h).pin = true ∧ s.inLathedUp = true ∧ s.getF (Reg.tileStatusState h) ≠ 0) ∧
     (let h : Fin 8 := 2;
      let s : State := ((up .service none).setF (Reg.tileStatusState 2) 1).setTile 2 fun x =>
        { x with pin := true };
      (s.tile h).pin = true ∧ s.inLathedUp = true ∧ s.getF (Reg.tileStatusState h) ≠ 0) ∧
     (let h : Fin 8 := 2;
      let s : State := (up .service none).setTile 2 fun x => { x with pin := true };
      (s.tile h).pin = true ∧ (s.inLathedUp = false ∨ s.getF (Reg.tileStatusState h) = 0)) ∧
     (let h : Fin 8 := 7;
      let s : State := ((up .fault none).setF (Reg.tileStatusState 7) 3).setTile 7 fun x =>
        { x with pin := true };
      (s.tile h).pin = true ∧ (s.inLathedUp = false ∨ s.getF (Reg.tileStatusState h) = 0)) ∧
     (let h : Fin 8 := 7;
      let b : Nat := 3;
      let s : State := ((({ up .service none with analogEast := true }).setF (Reg.tileStatusState 7) 3).setF
        (Reg.tileCtrlDrainAllow 7) 1).setF (Reg.tileStatusBiasReady 7) 1 |>.setTile 7 fun x =>
        { x with strobeTick := some 3 };
      s.strobeTick h = some b ∧ s.phase = .run ∧ s.beyondFret (s.tickNs (b + (1000 * s.getF
        (Reg.tileCtrlDrainDelay h) * 24576 + 99999) / 100000)) = false) ∧
     (let p : Port := .pcie;
      let l : List Nat := ([3].filter fun q => decide (1 ≤ Config.tileTunerCodes [] (q / 8)));
      let s : State := ((up .service (some .installer)).results [9, 0]).setF (Reg.pathStateState 3) 3;
      s.ready p ∧ s.dev = .service ∧ (s.session p).role = some .installer ∧ s.deferred 5 = false ∧ l =
        s.argPaths.filter (fun q => s.path q == 3 && decide (1 ≤ Config.tileTunerCodes s.tileMap (q / 8)))) ∧
     (let p : Port := .pcie;
      let bus : Nat := 1;
      let usid : Nat := 8;
      let n : Nat := 4;
      let a : Nat := 0x1234;
      let s : State := ((up .service (some .installer)).results [1, 8, 0x41234, 0x01020304, 7]).setF
        (Reg.tileStatusState 7) 3;
      s.ready p ∧ (s.dev = .lathed ∨ s.dev = .service ∨ s.dev = .doze) ∧ (s.session p).role = some .installer ∧
        s.argW 0 = bus ∧ bus < 2 ∧ s.argW 1 = usid ∧ 1 ≤ usid ∧ usid ≤ 8 ∧ s.getF (Reg.tileStatusState (4 * bus +
        (usid - 1) / 2)) = 3 ∧ s.argW 2 = a + n * 65536 ∧ a < 65536 ∧ n < 16 ∧ (∀ u ∈ busTiles bus, s.tileState u
        ≠ 2)) ∧
     (let p : Port := .pcie;
      let bus : Nat := 1;
      let usid : Nat := 8;
      let n : Nat := 4;
      let a : Nat := 0x1234;
      let s : State := ((up .service (some .installer)).results [1, 8, 0x1041234, 0x01020304, 7]).setF
        (Reg.tileStatusState 7) 3;
      s.ready p ∧ (s.dev = .lathed ∨ s.dev = .service ∨ s.dev = .doze) ∧ (s.session p).role = some .installer ∧
        s.argW 0 = bus ∧ bus < 2 ∧ s.argW 1 = usid ∧ 1 ≤ usid ∧ usid ≤ 8 ∧ s.getF (Reg.tileStatusState (4 * bus +
        (usid - 1) / 2)) = 3 ∧ s.argW 2 = a + n * 65536 + 2 ^ 24 ∧ a < 65536 ∧ n < 16 ∧ (∀ u ∈ busTiles bus,
        s.tileState u ≠ 2)) ∧
     (let p : Port := .pcie;
      let s : State := (((up .service (some .installer)).results [1, 8, 0x1041234, 0x01020304, 7]).setF
        (Reg.tileStatusState 7) 3).setF (Reg.tileStatusState 4) 2;
      s.ready p ∧ (s.dev = .lathed ∨ s.dev = .service ∨ s.dev = .doze) ∧ (s.session p).role = some .installer ∧
        s.argW 0 < 2 ∧ 1 ≤ s.argW 1 ∧ s.argW 1 ≤ 8 ∧ s.getF (Reg.tileStatusState (4 * s.argW 0 + (s.argW 1 - 1) /
        2)) = 3 ∧ (∃ u ∈ busTiles (s.argW 0), s.tileState u = 2)) ∧
     (let p : Fin 64 := 63;
      let ref : List (Int × Int) := [(32767, 0)];
      let x : CouplerPair := ⟨[(9, 9)], [(9, 9)]⟩;
      let a : Nat := 100;
      let b : Nat := 200;
      let rl : Nat := aerialUp.returnLoss 63 ⟨[(9, 9)], [(9, 9)]⟩;
      let s : State := aerialUp;
      s.aerialTurn p = true ∧ s.tunes p = false ∧ 16 ≤ s.obsHeld 5 p 0 ∧ 16 ≤ s.obsHeld 5 p 1 ∧ s.obsStarted 5 p
        0 = some a ∧ s.obsStarted 5 p 1 = some b ∧ max a b + 3933 ≤ s.drone.ticks ∧ lowReference ref = false ∧ rl
        = s.returnLoss p x) ∧
     (let p : Fin 64 := 63;
      let ref : List (Int × Int) := [(7, 0)];
      let a : Nat := 100;
      let b : Nat := 200;
      let s : State := aerialUp;
      s.aerialTurn p = true ∧ 16 ≤ s.obsHeld 5 p 0 ∧ 16 ≤ s.obsHeld 5 p 1 ∧ s.obsStarted 5 p 0 = some a ∧
        s.obsStarted 5 p 1 = some b ∧ s.beyondFret (s.tickNs (max a b + 3933)) = false ∧ lowReference ref = true) ∧
     (let p : Fin 64 := 63;
      let s : State := ((up .service none).setF (Reg.pathStateState 63) 3).setF Reg.mismatchPeriod 100;
      s.aerialTurn p = true ∧ (s.obsHeld 5 p 0 < 16 ∨ s.obsHeld 5 p 1 < 16)) ∧
     (let p : Fin 64 := 63;
      let s : State := up .service none;
      s.aerialTurn p = false ∧ s.tunes p = false ∨ 16 ≤ s.obsHeld 5 p 0 ∧ 16 ≤ s.obsHeld 5 p 1 ∧ (s.obsStarted 5
        p 0 = none ∨ s.obsStarted 5 p 1 = none)) := by
  iterate 12 refine And.intro (by decide +kernel) ?_
  refine And.intro ⟨by decide +kernel, by decide +kernel, by decide +kernel, by decide +kernel, by rfl⟩ ?_
  iterate 3 refine And.intro (by decide +kernel) ?_
  refine And.intro ⟨by decide +kernel, by decide +kernel, by decide +kernel, by decide +kernel, by decide +kernel, by decide +kernel, by decide +kernel, by decide +kernel, by rfl⟩ ?_
  iterate 2 refine And.intro (by decide +kernel) ?_
  decide +kernel

theorem witness_CapturesObservationAndAdaptation :
     (let p : Port := .pcie;
      let s : State := ((up .service (some .operator)).results [5, 0, 1, 100]).setF (Reg.pathStateState 2) 3;
      s.ready p ∧ s.dev = .service ∧ RoleRule.permits .both s.dev (s.session p).role = true ∧ s.deferred 4 =
        false ∧ (s.argW 2 = 0 ∨ s.argW 2 = 2 ∨ s.argW 2 = 1 ∧ 1 ≤ s.argW 3 ∧ s.argW 3 ≤ 65535)) ∧
     (let p : Port := .pcie;
      let s : State := (fun s : State =>
        { s with tx := { s.tx with dpd := some ⟨2, false, 0, 0, [1], false, 0, true, 9⟩ } }) (((up .service (some
        .operator)).results [5, 0, 2]).setF (Reg.capStatusRunning 7) 1);
      s.ready p ∧ s.dev = .service ∧ RoleRule.permits .both s.dev (s.session p).role = true ∧ s.deferred 4 =
        false ∧ (s.argW 2 = 0 ∨ s.argW 2 = 2 ∨ s.argW 2 = 1 ∧ 1 ≤ s.argW 3 ∧ s.argW 3 ≤ 65535)) ∧
     (let p : Port := .pcie;
      let k : Fin 8 := 7;
      let kind : Nat := 3;
      let trig : Nat := 9;
      let s : State := (up .service (some .operator)).results [7, 0x3F03, 131000, 72, 1904, 0, 9];
      s.ready p ∧ (s.dev = .lathed ∨ s.dev = .service) ∧ RoleRule.permits .both s.dev (s.session p).role = true
        ∧ s.deferred 11 = false ∧ s.argW 0 = k ∧ s.argW 1 % 8 = kind ∧ kind ≤ 4 ∧ 1 ≤ s.argW 3 ∧ s.argW 2 + s.argW
        3 ≤ 131072 ∧ s.argW 5 = 0 ∧ s.argW 6 = trig ∧ (trig = 1 ∨ trig = 2 ∨ 8 ≤ trig ∧ trig ≤ 15) ∧ 1 ≤ s.argW 4
        ∧ s.argW 4 ≤ 1904 ∧ s.tx.dpd = none ∧ (∀ j ∈ List.range 8, s.getF (Reg.capConfigArmed j) = 0)) ∧
     (let p : Port := .pcie;
      let k : Fin 8 := 7;
      let kind : Nat := 4;
      let s : State := (up .service (some .operator)).results [7, 0x0304, 131000, 72, 1904, 0, 0];
      s.ready p ∧ (s.dev = .lathed ∨ s.dev = .service) ∧ RoleRule.permits .both s.dev (s.session p).role = true
        ∧ s.deferred 11 = false ∧ s.argW 0 = k ∧ s.argW 1 % 8 = kind ∧ (kind = 2 ∨ kind = 4) ∧ 1 ≤ s.argW 3 ∧
        s.argW 2 + s.argW 3 ≤ 131072 ∧ s.argW 5 ≤ 1 ∧ s.argW 6 = 0 ∧ 1 ≤ s.argW 4 ∧ s.tx.dpd = none ∧ (∀ j ∈
        List.range 8, s.getF (Reg.capConfigArmed j) = 0)) ∧
     (let p : Port := .pcie;
      let k : Fin 8 := 7;
      let kind : Nat := 3;
      let s : State := (up .service (some .operator)).results [7, 0x0303, 131000, 72, 1904, 0, 0];
      s.ready p ∧ (s.dev = .lathed ∨ s.dev = .service) ∧ RoleRule.permits .both s.dev (s.session p).role = true
        ∧ s.deferred 11 = false ∧ s.argW 0 = k ∧ s.argW 1 % 8 = kind ∧ (kind = 0 ∨ kind = 1 ∨ kind = 3) ∧ 1 ≤
        s.argW 3 ∧ s.argW 2 + s.argW 3 ≤ 131072 ∧ s.argW 5 = 0 ∧ s.argW 6 = 0 ∧ 1 ≤ s.argW 4 ∧ s.argW 4 ≤ 1904 ∧
        s.tx.dpd = none ∧ (∀ j ∈ List.range 8, s.getF (Reg.capConfigArmed j) = 0)) ∧
     (let p : Port := .pcie;
      let k : Fin 8 := 7;
      let s : State := ((up .service (some .operator)).results [7]).setF (Reg.capWptrPtr 7) 99;
      s.ready p ∧ (s.dev = .lathed ∨ s.dev = .service) ∧ RoleRule.permits .both s.dev (s.session p).role = true
        ∧ s.argW 0 = k) ∧
     (let k : Fin 8 := 5;
      let x : CaptureIn := ⟨[(1, -2), (3, 4), (5, 6), (7, 8), (9, 10), (11, 12), (13, 14), (300, -300)], []⟩;
      let s : State := (fun s : State => { s with drone := { s.drone with ticks := 100 } }) (((((up .service
        none).setF (Reg.capStatusRunning 5) 1).setF (Reg.capLengthLength 5) 10).setF (Reg.capWptrPtr 5) 8).setCap
        5 fun x => { x with left := 3 });
      (s.capFresh k x.main x.other).length = 8 ∧ s.getF (Reg.capStatusRunning k) = 1 ∧ s.getF (Reg.capConfigMode
        k) = 0 ∧ 1 ≤ (s.cap k).left ∧ (s.cap k).held = none ∧ s.getF (Reg.capWptrPtr k) + 1 < s.getF
        (Reg.capLengthLength k) ∧ s.getF (Reg.capLengthLength k) ≤ 131072) ∧
     (let k : Fin 8 := 5;
      let s : State := (((up .service none).setF (Reg.capStatusRunning 5) 1).setF (Reg.capStatusWaiting 5)
        1).setF (Reg.capConfigSrcKind 5) 2;
      s.getF (Reg.capStatusRunning k) = 1 ∧ s.getF (Reg.capConfigMode k) = 0 ∧ (s.cap k).left = 0) ∧
     (let q : Fin 4 := 3;
      let x : ObsRx := ⟨[⟨5, 60, 1, 30, 2⟩], 0, 0⟩;
      let r : ObsReq := ⟨5, 60, 1, 30, 2⟩;
      let s : State :=
        { up .service none with analogEast := true, tx := { State.reset.tx with obs := vecModify State.reset.tx.obs 3 fun _ => ⟨[⟨5, 60, 1, 30, 2⟩], 0, 0⟩ } };
      s.tx.obs[q] = x ∧ x.queue = [r] ∧ x.until_ ≤ s.drone.ticks ∧ s.analogOn (q / 2) = true ∧ s.coversObs r.cls
        (s.obsLength q x r) = true ∧ s.seamHolds q (s.obsLength q x r) = false ∧ (r.cls = 4 ∨ r.cls = 5 ∨ r.cls =
        6 ∨ r.cls = 11 ∧ r.by_ < 8) ∧ 1 ≤ r.grains) ∧
     (let q : Fin 4 := 3;
      let x : ObsRx := ⟨[⟨11, 60, 1, 30, 2⟩], 0, 0⟩;
      let r : ObsReq := ⟨11, 60, 1, 30, 2⟩;
      let s : State :=
        { up .service none with analogEast := true, tx := { State.reset.tx with obs := vecModify State.reset.tx.obs 3 fun _ => ⟨[⟨11, 60, 1, 30, 2⟩], 0, 0⟩ } };
      s.tx.obs[q] = x ∧ x.queue = [r] ∧ x.until_ ≤ s.drone.ticks ∧ s.analogOn (q / 2) = true ∧ s.coversObs r.cls
        (s.obsLength q x r) = true ∧ s.seamHolds q (s.obsLength q x r) = false ∧ (r.cls = 4 ∨ r.cls = 5 ∨ r.cls =
        6 ∨ r.cls = 11 ∧ r.by_ < 8) ∧ 1 ≤ r.grains) ∧
     (let q : Fin 4 := 3;
      let s : State :=
        { up .service none with tx := { State.reset.tx with obs := vecModify State.reset.tx.obs 3 fun _ => ⟨[⟨5, 60, 1, 30, 2⟩], 0, 0⟩ } };
      s.drone.ticks < s.tx.obs[q].until_ ∨ s.analogOn (q / 2) = false) ∧
     (let ref : List (Int × Int) := [(9000, 0)];
      let coefs : List Word := List.replicate 40 0x12345678;
      let r : DpdRun := ⟨2, false, 0, 0, [1], false, 0, true, 9⟩;
      let p : Nat := 1;
      let b : Nat := 1;
      let l : List Nat := [];
      let s : State :=
        { (((up .service none).setF (Reg.pathStateState 1) 3).setF (Reg.txcCtrlEnable 0) 1).setF (Reg.synStatusState 0) 2 with drone := { State.reset.drone with ticks := 5000 }, tx := { State.reset.tx with closed := [1], granted := [⟨4, 1, 0, 18, 1⟩], dpd := some ⟨2, false, 0, 0, [1], false, 0, true, 9⟩ } };
      s.tx.dpd = some r ∧ r.left = p :: l ∧ p < 64 ∧ r.nextFret ≤ s.absFret ∧ s.path p = 3 ∧ s.obsBad p = false
        ∧ 16 ≤ s.obsHeld 4 p 0 ∧ r.taken = true ∧ r.since + 3933 ≤ s.drone.ticks ∧ s.dpdClean r p = true ∧
        lowReference ref = false ∧ r.fitted = false ∧ coefs.length = 40 ∧ b < 2 ∧ s.getF (Reg.txDpdBankActive p) =
        1 - b ∧ s.getF (Reg.txDpdPending p) = 0 ∧ s.timingCarrier.isSome = true) ∧
     (let r : DpdRun := ⟨2, false, 0, 0, [1], false, 0, true, 9⟩;
      let p : Nat := 1;
      let l : List Nat := [];
      let s : State :=
        { (up .service none).setF (Reg.pathStateState 1) 3 with tx := { State.reset.tx with dpd := some ⟨2, false, 0, 0, [1], false, 0, true, 9⟩ } };
      s.tx.dpd = some r ∧ r.left = p :: l ∧ p < 64 ∧ r.nextFret ≤ s.absFret ∧ s.path p = 3 ∧ s.obsBad p = false
        ∧ s.obsHeld 4 p 0 < 16 ∧ (r.fitted = true → s.getF (Reg.txDpdPending p) = 0 ∧ s.getF (Reg.txDpdBankActive
        p) = r.bank)) ∧
     (let s : State := up .service none;
      s.tx.dpd = none) := by
  iterate 13 refine And.intro (by decide +kernel) ?_
  decide +kernel

theorem witness_CalibrationAndSelfTest :
     (let p : Port := .pcie;
      let n : Nat := 7;
      let l : List Nat := [1, 63];
      let s : State := (((up .service (some .installer)).results [7, 2, 0x80000000]).setF (Reg.pathStateState 63)
        5).setF (Reg.pathStateFenceReason 63) 1;
      s.ready p ∧ (s.dev = .lathed ∨ s.dev = .service) ∧ (s.session p).role = some .installer ∧ s.deferred 5 =
        false ∧ s.argW 0 = n ∧ (1 ≤ n ∧ n ≤ 7) ∧ l = (List.range 64).filter (fun q => testBit (s.argW 1 + 2 ^ 32 *
        s.argW 2) q) ∧ (∀ q ∈ l, s.path q ≠ 1)) ∧
     (let p : Port := .pcie;
      let l : List Nat := [1, 63];
      let s : State := (((up .service (some .installer)).results [8, 2, 0x80000000]).setF (Reg.pathStateState 63)
        3).setF (Reg.tileStatusState 7) 3;
      s.ready p ∧ (s.dev = .lathed ∨ s.dev = .service) ∧ (s.session p).role = some .installer ∧ s.deferred 5 =
        false ∧ l = (List.range 64).filter (fun q => testBit (s.argW 1 + 2 ^ 32 * s.argW 2) q) ∧ (s.argW 0 = 0 ∨
        s.argW 0 = 8 ∧ s.dev = .service ∧ (∀ q ∈ l, s.path q ≠ 1) ∧ ∃ q ∈ l, s.path q = 3 ∧ s.getF
        (Reg.tileStatusState (q / 8)) = 3)) ∧
     (let run : Bool := false;
      let l : List CalMeasure := [⟨9, [], none⟩];
      let grains : Nat := 5;
      let n : Nat := 0;
      let mask : Nat := 0;
      let k : List Nat := [0, 16, 9];
      let s : State :=
        { (((up .lathed none).setF (Reg.pathStateState 9) 1).setF (Reg.synStatusState 0) 2).setF (Reg.synStatusState 1) 2 with analogWest := true };
      (run = false ∧ s.prepServed l ≠ [] ∧ k = s.plumbPaths false ++ s.prepServed l ∨ run = true ∧ s.job = some
        (.calRun n mask) ∧ n ≠ 8 ∧ k = s.plumbPaths true ++ s.runServed l) ∧ (∃ q ∈ k, s.obsHeld 5 q 2 < grains)) ∧
     (let run : Bool := true;
      let l : List CalMeasure := [⟨9, [], none⟩];
      let grains : Nat := 5;
      let n : Nat := 3;
      let mask : Nat := 512;
      let k : List Nat := [9];
      let s : State :=
        { ((((up .lathed none).setF (Reg.pathStateState 9) 5).setF (Reg.pathStateFenceReason 9) 1).setF (Reg.synStatusState 0) 2).setF (Reg.synStatusState 1) 2 with analogWest := true, job := some (.calRun 3 512) };
      (run = false ∧ s.prepServed l ≠ [] ∧ k = s.plumbPaths false ++ s.prepServed l ∨ run = true ∧ s.job = some
        (.calRun n mask) ∧ n ≠ 8 ∧ k = s.plumbPaths true ++ s.runServed l) ∧ (∃ q ∈ k, s.obsHeld 5 q 2 < grains)) ∧
     (let run : Bool := true;
      let l : List CalMeasure := [];
      let grains : Nat := 5;
      let n : Nat := 0;
      let mask : Nat := 0;
      let s : State := { (up .lathed none).setF Reg.plumbStatusPresent 1 with job := some (.calRun 0 0) };
      run = true ∧ s.job = some (.calRun n mask) ∧ n = 0 ∧ l = [] ∧ s.dev ≠ .fault ∧ mapGet 0 128 s.cal.repeats
        < 4 ∧ (∀ q ∈ s.plumbPaths true, grains ≤ s.obsHeld 5 q 2)) ∧
     (let run : Bool := false;
      let l : List CalMeasure := [⟨9, [], none⟩];
      let grains : Nat := 5;
      let m : CalMeasure := ⟨9, [], none⟩;
      let s : State :=
        { (((up .lathed none).setF (Reg.pathStateState 9) 1).setF (Reg.synStatusState 0) 2).setF (Reg.synStatusState 1) 2 with analogWest := true, cal := { State.reset.cal with plumbDone := true }, tx := { State.reset.tx with granted := [⟨5, 9, 2, 8, 9⟩] } };
      run = false ∧ l = [m] ∧ s.prepTurn m.path = true ∧ s.calReady m.path = true ∧ s.cal.plumbDone = true ∧
        grains ≤ s.obsHeld 5 m.path 2) ∧
     (let p : Port := .pcie;
      let s : State := (((up .service (some .installer)).results [2, 0x80000000]).setF (Reg.pathStateState 63)
        5).setF (Reg.pathStateFenceReason 63) 1;
      s.ready p ∧ (s.dev = .lathed ∨ s.dev = .service) ∧ (s.session p).role = some .installer ∧ s.deferred 6 =
        false ∧ (∀ q ∈ s.argPaths, s.path q ≠ 1)) ∧
     (let q : PathTested := ⟨63, 40⟩;
      let c1 : List Int := [0, 0];
      let c2 : List Int := [100, 5500, 6000];
      let c3 : List Int := [0, 6000];
      let c4 : List Int := [280];
      let passed : Nat := 1;
      let failed : Nat := 2;
      let s : State :=
        { ((up .lathed none).setF Reg.plumbStatusPresent 1).setF Reg.bistStatusObsBad 15 with analogEast := true, job := some (.pathTest (2 ^ 63) 1 2 0), tx := { State.reset.tx with granted := [⟨6, 63, 2, 40, 63⟩] } };
      s.job = some (.pathTest (2 ^ q.path.val) passed failed 0) ∧ s.getF Reg.plumbStatusPresent = 1 ∧ s.dev ≠
        .fault ∧ q.micros ≤ s.obsHeld 6 q.path 2 ∧ mapGet 0 (2 * q.path) s.cal.repeats + mapGet 0 (2 * q.path + 1)
        s.cal.repeats < 4 ∧ s.testPasses q.path 1 c1 = true ∧ s.testPasses q.path 2 c2 = true ∧ s.testPasses
        q.path 3 c3 = true ∧ s.testPasses q.path 4 c4 = true ∧ s.cal.testWrites = []) ∧
     (let q : PathTested := ⟨63, 40⟩;
      let left : Nat := 2 ^ 63;
      let passed : Nat := 1;
      let failed : Nat := 2;
      let bad : Nat := 0;
      let s : State := { up .lathed none with analogEast := true, job := some (.pathTest (2 ^ 63) 1 2 0) };
      s.job = some (.pathTest left passed failed bad) ∧ left ≠ 0 ∧ s.underTest q.path = true ∧ s.dev ≠ .fault ∧
        s.obsHeld 6 q.path 2 < q.micros ∧ s.noneDue) ∧
     (let m : CouplerRun := ⟨9, 3, 4⟩;
      let s : State := (((up .service none).setF (Reg.pathStateState 9) 3).setF Reg.calCtrlAutoCoupler 1).setF
        (Reg.tileStatusState 1) 3;
      s.couplerTurn m.path = true ∧ s.obsHeld 5 m.path 0 < 16) ∧
     (let m : CouplerRun := ⟨9, 10, 20⟩;
      let ref : List (Int × Int) := [(9000, 0)];
      let a : Nat := 9;
      let s : State := couplerUp [];
      s.couplerTurn m.path = true ∧ 16 ≤ s.obsHeld 5 m.path 0 ∧ s.obsStarted 5 m.path 0 = some a ∧ a + 3933 ≤
        s.drone.ticks ∧ s.repeatsOf m.path 8 < 4 ∧ lowReference ref = false ∧ ((s.viewsIn a (a + 3933)).all fun v
        => v.onAir.contains m.path.val) = true ∧ s.couplerRuns m.path = []) ∧
     (let m : CouplerRun := ⟨9, 12, 30⟩;
      let ref : List (Int × Int) := [(9000, 0)];
      let k : Nat := 9;
      let a : List Int := [10, 20];
      let v : List Int := [11, 25];
      let s : State := couplerUp [(9, [[10, 20]])];
      s.couplerTurn m.path = true ∧ s.couplerAsked m.path = false ∧ 16 ≤ s.obsHeld 5 m.path 0 ∧ s.obsStarted 5
        m.path 0 = some k ∧ k + 3933 ≤ s.drone.ticks ∧ s.repeatsOf m.path 8 < 4 ∧ lowReference ref = false ∧
        ((s.viewsIn k (k + 3933)).all fun v => v.onAir.contains m.path.val) = true ∧ s.couplerRuns m.path = [a] ∧
        v = s.withoutObs 8 m.path (runsMean 8 a [m.gain, m.phase]) ∧ a.length = 2 ∧ runsAgree 8 a [m.gain,
        m.phase] = true ∧ s.cal.loop.find? (fun x => x.1 == m.path.val) = none) ∧
     (let p : Port := .pcie;
      let s : State := ((up .lathed (some .operator)).results [64]).setF (Reg.prepBar 63) 0x12345678;
      s.ready p ∧ (s.dev = .lathed ∨ s.dev = .service ∨ s.dev = .doze) ∧ RoleRule.permits .both s.dev (s.session
        p).role = true ∧ s.argW 0 % 4 = 0 ∧ s.argW 0 + 8272 ≤ 4194304 ∧ s.cleanAt .capture (s.argW 0) 8272) ∧
     (let p : Port := .pcie;
      let s : State := (up .lathed (some .installer)).results [64];
      s.ready p ∧ s.dev = .lathed ∧ (s.session p).role = some .installer ∧ s.argW 0 % 4 = 0 ∧ s.argW 0 + 8272 ≤
        4194304 ∧ s.cleanAt .capture (s.argW 0) 8272 ∧ ofLe (s.bytesAt .capture (s.argW 0) 4) ≠ 0x424C4143 ∧
        s.loadRange = none) ∧
     (let p : Port := .pcie;
      let s : State :=
        { (up .lathed (some .installer)).results [64] with captureMem := ⟨[(64, 0x43), (65, 0x41), (66, 0x4C), (67, 0x42), (68, 1)], [], .clean⟩ };
      s.ready p ∧ s.dev = .lathed ∧ (s.session p).role = some .installer ∧ s.argW 0 % 4 = 0 ∧ s.argW 0 + 8272 ≤
        4194304 ∧ s.cleanAt .capture (s.argW 0) 8272 ∧ ofLe (s.bytesAt .capture (s.argW 0) 4) = 0x424C4143 ∧ ofLe
        (s.bytesAt .capture (s.argW 0 + 4) 4) = 1) ∧
     (let s : State :=
        { ((((up .lathed none).setF Reg.bridgeRole 1).setF Reg.calCtrlAutoSeam 1).setF Reg.seamCtrlPeriod 1).setF Reg.seamCtrlFret 0 with analogWest := true };
      s.phase = .run ∧ s.dev = .lathed ∧ (s.getF Reg.bridgeRole = 1 ∨ s.getF Reg.bridgeRole = 2) ∧ s.seamFret =
        true ∧ s.analogWest = true ∧ s.nowNs ≤ s.nowNs / 250000 * 250000 + 98000 ∧ s.cal.seamRun = none ∧
        s.coversObs 5 98 = true ∧ s.tx.obs[0].until_ ≤ s.drone.ticks ∧ 0 < s.inc ∧ s.inc < 2 ^ 40) ∧
     (let residual : Nat := 30;
      let seen : Bool := true;
      let s : State :=
        { ((((up .lathed none).setF Reg.bridgeRole 1).setF Reg.calCtrlAutoSeam 1).setF Reg.seamCtrlPeriod 1).setF Reg.seamCtrlFret 0 with analogWest := true, cal := { State.reset.cal with seamRun := some (0, true) } };
      s.phase = .run ∧ s.dev = .lathed ∧ (s.getF Reg.bridgeRole = 1 ∨ s.getF Reg.bridgeRole = 2) ∧ s.seamFret =
        true ∧ s.analogWest = true ∧ s.nowNs ≤ s.nowNs / 250000 * 250000 + 196000 ∧ s.cal.seamRun = some (s.nowNs
        / 250000, true) ∧ s.inc < 2 ^ 40 ∧ (∀ r ∈ s.cal.roleNs, r < s.nowNs / 250000 * 250000 + 96000) ∧ residual
        ≤ 30 ∧ seen = true ∧ 0 < s.inc) ∧
     (let s : State := (up .lathed none).setF Reg.seamOk 1;
      s.getF Reg.seamOk = 1 ∧ s.cal.seamBar + 2 * s.getF Reg.seamCtrlPeriod ≤ s.nowNs / 10000000) ∧
     (let drifts : List Int := List.replicate 31 7 ++ [-2001];
      let s : State := up .lathed none;
      s.inLathedUp = true ∧ s.ageingDue = true ∧ s.deferred 14 = false ∧ drifts.length = 32 ∧ s.covers 14 4 4 =
        true) ∧
     (let s : State := up .bare none;
      s.inLathedUp = false ∨ s.ageingDue = false ∨ s.deferred 14 = true) ∧
     (let p : Port := .pcie;
      let l : Nat := 401;
      let m : Nat := 0;
      let a : Nat := 0;
      let s : State := (up .lathed (some .operator)).setF (Reg.ageingDrift 3) 401;
      s.ready p ∧ (s.dev = .lathed ∨ s.dev = .service ∨ s.dev = .doze) ∧ RoleRule.permits .both s.dev (s.session
        p).role = true ∧ s.deferred 14 = false ∧ s.covers 14 4 1 = true ∧ s.groupDrift 0 = l ∧ s.groupDrift 1 = m
        ∧ s.groupDrift 2 = a) := by
  iterate 20 refine And.intro (by decide +kernel) ?_
  decide +kernel

theorem witness_LinkDiscoveryAndDelay :
     (let s : State := (up .lathed none).setF Reg.linkCtrlEnable 1;
      s.phase = .run ∧ s.reached .link = true ∧ s.flag Reg.linkCtrlEnable = true ∧ s.flag Reg.linkStatusUp =
        false) ∧
     (let s : State := (linked .lathed).setF Reg.linkStatusUnanswered 2;
      s.linkUp = true) ∧
     (let s : State := (linked .bare).setF (Reg.linkCount 8) 4294967295;
      s.linkUp = true) ∧
     (let s : State := (linked .doze).setF Reg.linkStatusBbFound 0;
      s.linkUp = true ∧ s.inLathedUp = true ∧ s.fh.announceBar ≠ barOfNs s.nowNs + 1 ∧ s.flag
        Reg.linkStatusBbFound = false) ∧
     (let s : State := { linked .service with fh := { FhState.fresh with announced := true } };
      s.linkUp = true ∧ s.inLathedUp = true ∧ s.fh.announceBar ≠ barOfNs s.nowNs + 1 ∧ s.flag
        Reg.linkStatusBbFound = true ∧ s.bar % 100 = 0) ∧
     (let h : CtlHead := ctlTo 0xA1B2C3D4E5F6 16;
      let ident : BitVec 64 := 0xFEDCBA9876543210;
      let s : State := (linked .lathed).setF Reg.linkStatusBbFound 0;
      s.linkUp = true ∧ s.takes h.frame ∧ ctlSound h 16 = true ∧ s.dev ≠ .lightHold ∧ s.flag
        Reg.dozeStatusLightPending = false ∧ ident ≠ 0 ∧ s.getF Reg.bbIdPinLo = 0 ∧ s.getF Reg.bbIdPinHi = 0 ∧
        s.flag Reg.linkStatusBbFound = false) ∧
     (let h : CtlHead := ctlTo 1 16;
      let s : State := linked .bare;
      s.linkUp = true ∧ s.takes h.frame ∧ ctlSound h 16 = true ∧ s.dev ≠ .lightHold ∧ s.flag
        Reg.dozeStatusLightPending = false) ∧
     (let h : CtlHead := { ctlTo 1 16 with frame := { (ctlTo 1 16).frame with dst := Config.linkMac + 1 } };
      let s : State := linked .lightHold;
      s.linkUp = true ∧ h.frame.length.toNat ≤ s.maxFrame ∧ s.vlanTaken (frameVlan h.frame) = true ∧ ctlSound h
        16 = true ∧ h.frame.dst ≠ Config.linkMac) ∧
     (let f : FrameHead := frameTo 7 20;
      let s : State := linked .bare;
      s.linkUp = true ∧ s.takes f ∧ frameSound f (decide (20 ≤ f.size.toNat)) = true ∧ s.timeValid = true) ∧
     (let f : FrameHead := frameTo 0xA1B2C3D4E5F6 60;
      let s : State := (linked .doze).setF Reg.owdCtrlMeasId 255;
      s.linkUp = true ∧ s.takes f ∧ frameSound f (decide (20 ≤ f.size.toNat)) = true ∧ s.flag
        Reg.linkStatusBbFound = true ∧ f.src.toNat = s.bbMac ∧ s.flag Reg.owdCtrlBusy = false ∧ s.timeValid = true) ∧
     (let h : DelayHead := ⟨frameTo 7 20, 3⟩;
      let t1 : Nat := 1000000900;
      let tick : Nat := 5;
      let s : State :=
        { (linked .doze).setF Reg.owdCtrlMeasId 3 with fh := { FhState.fresh with owd := some (1000000900, 5) } };
      s.fh.owd = some (t1, tick) ∧ s.takes h.frame ∧ frameSound h.frame (decide (20 ≤ h.frame.size.toNat)) =
        true ∧ s.linkUp = true ∧ h.ident.toNat = s.getF Reg.owdCtrlMeasId ∧ s.drone.ticks ≤ tick + nsTicks 1000000) ∧
     (let t1 : Nat := 0;
      let tick : Nat := 0;
      let s : State :=
        { up .bare none with fh := { FhState.fresh with owd := some (0, 0) }, drone := { State.reset.drone with ticks := 245760 } };
      s.fh.owd = some (t1, tick) ∧ s.beyondFret (s.tickNs (tick + 245760)) = false) := by
  iterate 5 refine And.intro (by decide +kernel) ?_
  refine And.intro ⟨by decide +kernel, ⟨by decide +kernel, by decide +kernel, by rfl⟩, by decide +kernel, by decide +kernel, by decide +kernel, by decide +kernel, by decide +kernel, by decide +kernel, by decide +kernel⟩ ?_
  refine And.intro ⟨by decide +kernel, ⟨by decide +kernel, by decide +kernel, by rfl⟩, by decide +kernel, by decide +kernel, by decide +kernel⟩ ?_
  refine And.intro ⟨by decide +kernel, by decide +kernel, by decide +kernel, by decide +kernel, fun h => by simp at h⟩ ?_
  refine And.intro ⟨by decide +kernel, ⟨by decide +kernel, by decide +kernel, by rfl⟩, by decide +kernel, by decide +kernel⟩ ?_
  refine And.intro ⟨by decide +kernel, ⟨by decide +kernel, by decide +kernel, by rfl⟩, by decide +kernel, by decide +kernel, by decide +kernel, by decide +kernel, by decide +kernel⟩ ?_
  refine And.intro ⟨by decide +kernel, ⟨by decide +kernel, by decide +kernel, by rfl⟩, by decide +kernel, by decide +kernel, by decide +kernel, by decide +kernel⟩ ?_
  decide +kernel

theorem witness_DownlinkDataIsTakenOrCounted :
     (let f : FrameHead := frameTo 1 20;
      let pcId : BitVec 16 := 0x4000;
      let seqId : BitVec 16 := 0x0181;
      let head : BitVec 128 := 0;
      let blocks : List Byte := [];
      let s : State := (linked .service).setF (Reg.layerConfigEnable 1 0) 1;
      s.linkUp = true ∧ (s.maxFrame < f.length.toNat ∨ s.takes f ∧ (frameSound f (f.size.toNat == 20 +
        blocks.length) = false ∨ blocks.length ≠ (SectionHead.ofBits head).count * blockBytes (bfpWidth
        (SectionHead.ofBits head).width) ∨ seqId.toNat % 256 ≠ 128 ∨ testBit pcId.toNat 14 = false ∨ pcId.toNat /
        32768 ≠ s.sideBit ∨ 48 ≤ pcId.toNat % 64 ∨ s.flag (Reg.layerConfigEnable 1 (pcId.toNat % 64)) = false))) ∧
     (let f : FrameHead := frameTo 1 20;
      let pcId : BitVec 16 := 0x4030;
      let seqId : BitVec 16 := 0x0180;
      let head : BitVec 128 := 0;
      let blocks : List Byte := [];
      let s : State := (linked .service).setF (Reg.layerConfigEnable 1 0) 1;
      s.linkUp = true ∧ (s.maxFrame < f.length.toNat ∨ s.takes f ∧ (frameSound f (f.size.toNat == 20 +
        blocks.length) = false ∨ blocks.length ≠ (SectionHead.ofBits head).count * blockBytes (bfpWidth
        (SectionHead.ofBits head).width) ∨ seqId.toNat % 256 ≠ 128 ∨ testBit pcId.toNat 14 = false ∨ pcId.toNat /
        32768 ≠ s.sideBit ∨ 48 ≤ pcId.toNat % 64 ∨ s.flag (Reg.layerConfigEnable 1 (pcId.toNat % 64)) = false))) ∧
     (let f : FrameHead := frameTo 1 1500;
      let pcId : BitVec 16 := 0x4000;
      let seqId : BitVec 16 := 0x0180;
      let head : BitVec 128 := 0;
      let blocks : List Byte := [];
      let s : State := (linked .service).setF (Reg.layerConfigEnable 1 0) 1;
      s.linkUp = true ∧ (s.maxFrame < f.length.toNat ∨ s.takes f ∧ (frameSound f (f.size.toNat == 20 +
        blocks.length) = false ∨ blocks.length ≠ (SectionHead.ofBits head).count * blockBytes (bfpWidth
        (SectionHead.ofBits head).width) ∨ seqId.toNat % 256 ≠ 128 ∨ testBit pcId.toNat 14 = false ∨ pcId.toNat /
        32768 ≠ s.sideBit ∨ 48 ≤ pcId.toNat % 64 ∨ s.flag (Reg.layerConfigEnable 1 (pcId.toNat % 64)) = false))) ∧
     (let f : FrameHead := { frameTo 1 20 with vid := some 3 };
      let s : State := (linked .service).setF (Reg.layerConfigEnable 1 0) 1;
      s.linkUp = true ∧ f.length.toNat ≤ s.maxFrame ∧ (s.vlanTaken (frameVlan f) = false ∨ f.dst ≠
        Config.linkMac)) ∧
     (let f : FrameHead := frameTo 0xA1B2C3D4E5F6 82;
      let pcId : BitVec 16 := 0x4003;
      let seqId : BitVec 16 := 0xFF80;
      let head : BitVec 128 := sectionHead 1 0 0 12 2;
      let blocks : List Byte := List.replicate 62 0;
      let l : Nat := 3;
      let c : Nat := 1;
      let s : State := dlReady;
      s.linkUp = true ∧ s.takes f ∧ frameSound f (f.size.toNat == 20 + blocks.length) = true ∧
        s.sectionMalformed pcId.toNat seqId.toNat (.ofBits head) blocks.length = false ∧ l = pcId.toNat % 64 ∧ c =
        s.getF (Reg.layerConfigCarrier 1 l) ∧ (s.dev = .service ∨ s.dev = .lathed)) ∧
     (let f : FrameHead := frameTo 1 82;
      let pcId : BitVec 16 := 0x4003;
      let seqId : BitVec 16 := 0xFF80;
      let head : BitVec 128 := sectionHead 1 0 0 12 2;
      let blocks : List Byte := List.replicate 62 0;
      let l : Nat := 3;
      let c : Nat := 1;
      let s : State := dlReady;
      s.linkUp = true ∧ s.takes f ∧ frameSound f (f.size.toNat == 20 + blocks.length) = true ∧
        s.sectionMalformed pcId.toNat seqId.toNat (.ofBits head) blocks.length = false ∧ l = pcId.toNat % 64 ∧ c =
        s.getF (Reg.layerConfigCarrier 1 l) ∧ (s.dev = .service ∨ s.dev = .lathed)) ∧
     (let f : FrameHead := frameTo 0xA1B2C3D4E5F6 82;
      let pcId : BitVec 16 := 0x4003;
      let seqId : BitVec 16 := 0xFF80;
      let head : BitVec 128 := sectionHead 1 0 4 271 2;
      let blocks : List Byte := List.replicate 62 0;
      let l : Nat := 3;
      let c : Nat := 1;
      let s : State := dlReady;
      s.linkUp = true ∧ s.takes f ∧ frameSound f (f.size.toNat == 20 + blocks.length) = true ∧
        s.sectionMalformed pcId.toNat seqId.toNat (.ofBits head) blocks.length = false ∧ l = pcId.toNat % 64 ∧ c =
        s.getF (Reg.layerConfigCarrier 1 l) ∧ (s.dev = .service ∨ s.dev = .lathed)) := by
  refine And.intro (by refine ⟨by decide +kernel, ?_⟩; first | exact .inl (by decide +kernel) | exact .inr ⟨⟨by decide +kernel, by decide +kernel, by rfl⟩, by decide +kernel⟩) ?_
  refine And.intro (by refine ⟨by decide +kernel, ?_⟩; first | exact .inl (by decide +kernel) | exact .inr ⟨⟨by decide +kernel, by decide +kernel, by rfl⟩, by decide +kernel⟩) ?_
  refine And.intro (by refine ⟨by decide +kernel, ?_⟩; first | exact .inl (by decide +kernel) | exact .inr ⟨⟨by decide +kernel, by decide +kernel, by rfl⟩, by decide +kernel⟩) ?_
  refine And.intro ⟨by decide +kernel, by decide +kernel, .inl (by decide +kernel)⟩ ?_
  refine And.intro ⟨by decide +kernel, ⟨by decide +kernel, by decide +kernel, by rfl⟩, by decide +kernel, by decide +kernel, by decide +kernel, by decide +kernel, by decide +kernel⟩ ?_
  refine And.intro ⟨by decide +kernel, ⟨by decide +kernel, by decide +kernel, by rfl⟩, by decide +kernel, by decide +kernel, by decide +kernel, by decide +kernel, by decide +kernel⟩ ?_
  exact ⟨by decide +kernel, ⟨by decide +kernel, by decide +kernel, by rfl⟩, by decide +kernel, by decide +kernel, by decide +kernel, by decide +kernel, by decide +kernel⟩

theorem witness_FronthaulCommandsAndReports :
     (let h : CtlHead := ctlTo 0xA1B2C3D4E5F6 84;
      let opcode : Byte := 0x89;
      let args : List Word := [5, 1, 3, 0];
      let images : List Byte := List.replicate 64 0;
      let s : State := (linked .lathed).setF Reg.linkCtrlBbControl 0;
      s.linkUp = true ∧ s.flag Reg.linkStatusBbFound = true ∧ h.frame.src.toNat = s.bbMac ∧ s.takes h.frame ∧
        ctlSound h (20 + 64 * regImages opcode.toNat ((List.range 4).map fun i => (args.getD i 0).toNat)) = true ∧
        s.dev ≠ .lightHold ∧ s.flag Reg.dozeStatusLightPending = false ∧ images.length = 64 * regImages
        opcode.toNat ((List.range 4).map fun i => (args.getD i 0).toNat) ∧ s.flag Reg.linkCtrlBbControl = false) ∧
     (let h : CtlHead := ctlTo 0xA1B2C3D4E5F6 20;
      let tag : BitVec 16 := 77;
      let opcode : Byte := 0x8B;
      let args : List Word := [5, 1, 3, 0];
      let images : List Byte := [];
      let r : RegReply := ⟨77, 0x8B, [1, 2]⟩;
      let s : State :=
        { (linked .lathed).setF Reg.linkCtrlBbControl 1 with fh := { FhState.fresh with kept := [⟨7, 8, []⟩, ⟨77, 0x8B, [1, 2]⟩] } };
      s.linkUp = true ∧ s.flag Reg.linkStatusBbFound = true ∧ h.frame.src.toNat = s.bbMac ∧ s.takes h.frame ∧
        ctlSound h (20 + 64 * regImages opcode.toNat ((List.range 4).map fun i => (args.getD i 0).toNat)) = true ∧
        s.dev ≠ .lightHold ∧ s.flag Reg.dozeStatusLightPending = false ∧ images.length = 64 * regImages
        opcode.toNat ((List.range 4).map fun i => (args.getD i 0).toNat) ∧ s.flag Reg.linkCtrlBbControl = true ∧
        s.fh.queue = [] ∧ s.sched.waiting = [] ∧ s.fh.kept.find? (fun x => x.tag == tag.toNat && x.opcode ==
        opcode.toNat) = some r) ∧
     (let h : CtlHead := ctlTo 0xA1B2C3D4E5F6 20;
      let tag : BitVec 16 := 77;
      let args : List Word := [300];
      let i : Nat := 300;
      let s : State := ((linked .lathed).setF Reg.linkCtrlBbControl 1).writeBytes .registry .spine (64 * 300 +
        5) [1, 2, 3];
      s.linkUp = true ∧ s.flag Reg.linkStatusBbFound = true ∧ h.frame.src.toNat = s.bbMac ∧ s.takes h.frame ∧
        ctlSound h 20 = true ∧ (s.dev = .lathed ∨ s.dev = .service) ∧ s.flag Reg.dozeStatusLightPending = false ∧
        s.flag Reg.linkCtrlBbControl = true ∧ (∀ r ∈ s.fh.kept, ¬ (r.tag = tag.toNat ∧ r.opcode = 0x8A)) ∧
        s.fh.queue = [] ∧ s.sched.waiting = [] ∧ s.deferred 12 = false ∧ s.covers 12 0 2 = true ∧ s.getF
        Reg.bridgeRole = 0 ∧ s.bridge.diverging = false ∧ i = (args.getD 0 0).toNat ∧ i < s.getF
        Reg.partitionEntryLimit) ∧
     (let r : RegReply := ⟨7, 0x8A, [1, 2]⟩;
      let l : List RegReply := [⟨8, 0x8B, []⟩];
      let s : State :=
        { linked .lathed with fh := { FhState.fresh with ready := [⟨7, 0x8A, [1, 2]⟩, ⟨8, 0x8B, []⟩] } };
      s.fh.ready = r :: l ∧ s.absent .link = false) ∧
     (let r : RegReply := ⟨7, 0x8A, [1, 2]⟩;
      let l : List RegReply := [⟨8, 0x8B, []⟩];
      let s : State :=
        { up .lathed none with fh := { FhState.fresh with ready := [⟨7, 0x8A, [1, 2]⟩, ⟨8, 0x8B, []⟩] } };
      s.fh.ready = r :: l ∧ s.absent .link = false) ∧
     (let s : State := linked .doze;
      s.phase = .run ∧ s.reached .link = true ∧ (s.fh.statusDue = true ∨ s.inLathedUp = true ∧ s.fh.statusBar ≠
        barOfNs s.nowNs + 1) ∧ s.bbReady = true ∧ s.absent .link = false) ∧
     (let s : State :=
        { linked .service with fh := { FhState.fresh with detects := List.replicate 17 [1, 2] } };
      s.fh.detects ≠ [] ∧ s.bbReady = true ∧ s.absent .link = false) ∧
     (let s : State := { linked .service with fh := { FhState.fresh with sigs := [[1, 2]] } };
      s.fh.sigs ≠ [] ∧ s.bbReady = true ∧ s.absent .link = false) := by
  refine And.intro ⟨by decide +kernel, by decide +kernel, by decide +kernel, ⟨by decide +kernel, by decide +kernel, by rfl⟩, by decide +kernel, by decide +kernel, by decide +kernel, by decide +kernel, by decide +kernel⟩ ?_
  refine And.intro ⟨by decide +kernel, by decide +kernel, by decide +kernel, ⟨by decide +kernel, by decide +kernel, by rfl⟩, by decide +kernel, by decide +kernel, by decide +kernel, by decide +kernel, by decide +kernel, by decide +kernel, by decide +kernel, by decide +kernel⟩ ?_
  refine And.intro ⟨by decide +kernel, by decide +kernel, by decide +kernel, ⟨by decide +kernel, by decide +kernel, by rfl⟩, by decide +kernel, by decide +kernel, by decide +kernel, by decide +kernel, by decide +kernel, by decide +kernel, by decide +kernel, by decide +kernel, by decide +kernel, by decide +kernel, by decide +kernel, by decide +kernel, by decide +kernel⟩ ?_
  iterate 4 refine And.intro (by decide +kernel) ?_
  decide +kernel

theorem witness_UplinkSectionsCarryTheirHeader :
     (let l : Fin 48 := 2;
      let c : Nat := 0;
      let g : Nat := 0;
      let y : SymLatch := ulSymbol;
      let x : LayerLatch := ulLayer;
      let s : State := ulReady (linked .service);
      s.phase = .run ∧ s.combinerOn = true ∧ s.domain .link = .on ∧ s.sectionNext l = some (c, y, x) ∧
        s.beyondFret (s.tickNs (4 * y.reachEnd)) = false ∧ (y.prbs + 3) / 4 ≤ s.sectionGroups (bfpWidth x.width) ∧
        g < (y.prbs + 3) / 4 ∧ s.latchValid x g = true ∧ (∀ k ∈ List.range g, s.latchValid x k = false)) ∧
     (let l : Fin 48 := 2;
      let c : Nat := 0;
      let g : Nat := 0;
      let y : SymLatch := ulSymbol;
      let x : LayerLatch := ulLayer;
      let s : State := ulReady (up .service none);
      s.phase = .run ∧ s.combinerOn = true ∧ s.domain .link = .on ∧ s.sectionNext l = some (c, y, x) ∧
        s.beyondFret (s.tickNs (4 * y.reachEnd)) = false ∧ (y.prbs + 3) / 4 ≤ s.sectionGroups (bfpWidth x.width) ∧
        g < (y.prbs + 3) / 4 ∧ s.latchValid x g = true ∧ (∀ k ∈ List.range g, s.latchValid x k = false)) ∧
     (let l : Fin 48 := 2;
      let c : Nat := 0;
      let g : Nat := 0;
      let y : SymLatch := ulSymbol;
      let x : LayerLatch := ulLayer;
      let s : State := ulReady (linked .lathed);
      s.phase = .run ∧ s.combinerOn = true ∧ s.domain .link = .on ∧ s.sectionNext l = some (c, y, x) ∧
        s.beyondFret (s.tickNs (4 * y.reachEnd)) = false ∧ (y.prbs + 3) / 4 ≤ s.sectionGroups (bfpWidth x.width) ∧
        g < (y.prbs + 3) / 4 ∧ s.latchValid x g = true ∧ (∀ k ∈ List.range g, s.latchValid x k = false)) ∧
     (let l : Fin 48 := 2;
      let s : State := linked .doze;
      s.phase ≠ .run ∨ s.combinerOn = false ∨ s.domain .link ≠ .on ∨ s.sectionNext l = none) := by
  iterate 3 refine And.intro (by decide +kernel) ?_
  decide +kernel

theorem witness_SignaturesAndDetectionsAreWritten :
     (let i : Fin 262144 := 7;
      let ident : BitVec 40 := 0x55;
      let paths : BitVec 64 := 0xFF;
      let seq : List (Fin 14 × List (Int × Int)) := [(0, [(1, 1)])];
      let timing : BitVec 16 := 0x1234;
      let cfo : BitVec 16 := 0xFFFE;
      let quality : BitVec 8 := 9;
      let fret : Nat := 3;
      let r : Refresh := refreshUp.refreshOf 7 0x55 0xFF [(0, [(1, 1)])] 0x1234 0xFFFE 9 3;
      let s : State := refreshUp;
      s.inLathedUp = true ∧ s.reached .registry = true ∧ s.sched.refreshes = [] ∧ s.covers 2 0 2 = true ∧ i.val
        ∉ s.sched.suspended ∧ s.wordMark .registry (2 * i) = .clean ∧ s.getF Reg.bridgeRole = 0 ∧ 8 ≤ ((List.range
        64).filter fun p => testBit r.paths.toNat p && s.path p == 3).length ∧ entryState (s.word0 i) ≠ 0 ∧
        entryId (s.word0 i) = ident.toNat ∧ s.absFret ≤ fret + 2 ∧ r = s.refreshOf i ident paths (seq.map fun x =>
        (x.1.val, x.2)) timing cfo quality fret) ∧
     (let i : Fin 262144 := 7;
      let fret : Nat := 0;
      let s : State := { up .lathed none with time := { TimeState.fresh with now := 750000 * 2 ^ 32 } };
      s.inLathedUp = true ∧ s.reached .registry = true ∧ s.sched.refreshes = [] ∧ s.covers 2 0 2 = true ∧ i.val
        ∉ s.sched.suspended ∧ s.wordMark .registry (2 * i) = .clean ∧ fret + 2 < s.absFret) ∧
     (let s : State := { up .lathed none with budget := { State.reset.budget with busy := [(0, 122880)] } };
      s.inLathedUp = true ∧ s.reached .registry = true ∧ s.sched.refreshes = [] ∧ s.covers 2 0 2 = false) ∧
     (let metric : BitVec 8 := 48;
      let w : Nat := 3;
      let n : Nat := 4;
      let a : Nat := 131071;
      let s : State := (((((((up .service none).setF Reg.registryCtrlDetectEn 1).setF Reg.detLenWords 4).setF
        Reg.detWptrWords 3).setF Reg.detRptrWords 1).setF Reg.detBaseWords 131068).setF Reg.linkCtrlDetectReportEn
        1);
      s.inLathedUp = true ∧ s.flag Reg.registryCtrlDetectEn = true ∧ s.getF Reg.registryCtrlDetThreshold ≤
        metric.toNat ∧ s.sched.detections = [] ∧ s.covers 3 4 1 = true ∧ n = s.getF Reg.detLenWords ∧ n ≠ 0 ∧ n ≤
        131072 ∧ w = s.getF Reg.detWptrWords ∧ (w + 1) % n ≠ s.getF Reg.detRptrWords ∧ a = (s.getF
        Reg.detBaseWords + w) % 131072) ∧
     (let metric : BitVec 8 := 48;
      let s : State :=
        { (up .lathed none).setF Reg.registryCtrlDetectEn 1 with budget := { State.reset.budget with busy := [(4, 122880)] } };
      s.inLathedUp = true ∧ s.flag Reg.registryCtrlDetectEn = true ∧ s.getF Reg.registryCtrlDetThreshold ≤
        metric.toNat ∧ s.sched.detections = [] ∧ s.covers 3 4 1 = false) ∧
     (let metric : BitVec 8 := 48;
      let s : State := up .lathed none;
      s.inLathedUp = false ∨ s.flag Reg.registryCtrlDetectEn = false ∨ metric.toNat < s.getF
        Reg.registryCtrlDetThreshold) := by
  refine And.intro ⟨by decide +kernel, by decide +kernel, by decide +kernel, by decide +kernel, by decide +kernel, by decide +kernel, by decide +kernel, by decide +kernel, by decide +kernel, by decide +kernel, by decide +kernel, by rfl⟩ ?_
  iterate 4 refine And.intro (by decide +kernel) ?_
  decide +kernel

theorem witness_PtpFramesInAndOut :
     (let f : List Byte := beBytes 6 0x011B19000000 ++ beBytes 6 5 ++ [0x88, 0xF7, 1, 2, 3];
      let n : Nat := 4;
      let w : Nat := 3;
      let a : Nat := 768;
      let s : State := ((((linked .bare).setF Reg.ptpCtrlRxEn 1).setF Reg.ptpRxLen 4).setF Reg.ptpRxWptr 3).setF
        Reg.ptpRxRptr 1;
      s.linkUp = true ∧ f.length + 4 ≤ s.maxFrame ∧ s.ptpAccepted f = true ∧ s.flag Reg.ptpCtrlRxEn = true ∧
        s.time.ptpHeld = [] ∧ s.dev ≠ .lightHold ∧ s.covers 10 4 8 = true ∧ n = s.getF Reg.ptpRxLen ∧ n ≤ 2 ^ 22 ∧
        w = s.getF Reg.ptpRxWptr ∧ s.getF Reg.ptpRxBase % 32 = 0 ∧ a = (s.getF Reg.ptpRxBase + 256 * w) % 4194304
        ∧ a + 256 ≤ 4194304) ∧
     (let f : List Byte := beBytes 6 0x0180C200000E ++ beBytes 6 5 ++ [0x88, 0xF7, 1, 2, 3];
      let n : Nat := 4;
      let w : Nat := 3;
      let a : Nat := 768;
      let s : State := (((linked .bare).setF Reg.ptpCtrlRxEn 1).setF Reg.ptpRxLen 4).setF Reg.ptpRxWptr 3;
      s.linkUp = true ∧ f.length + 4 ≤ s.maxFrame ∧ s.ptpAccepted f = true ∧ s.flag Reg.ptpCtrlRxEn = true ∧
        s.time.ptpHeld = [] ∧ s.dev ≠ .lightHold ∧ s.covers 10 4 8 = true ∧ n = s.getF Reg.ptpRxLen ∧ n ≤ 2 ^ 22 ∧
        w = s.getF Reg.ptpRxWptr ∧ s.getF Reg.ptpRxBase % 32 = 0 ∧ a = (s.getF Reg.ptpRxBase + 256 * w) % 4194304
        ∧ a + 256 ≤ 4194304) ∧
     (let f : List Byte := beBytes 6 0x011B19000000 ++ beBytes 6 5 ++ [0x88, 0xF8, 1, 2, 3];
      let s : State := (linked .bare).setF Reg.ptpCtrlRxEn 1;
      s.linkUp = true ∧ f.length + 4 ≤ s.maxFrame ∧ s.ptpAccepted f = false) ∧
     (let f : List Byte := List.replicate 1515 0;
      let s : State := (linked .bare).setF Reg.ptpCtrlRxEn 1 |>.setF Reg.linkMaxFrameBytes 1518;
      s.linkUp = true ∧ s.maxFrame < f.length + 4) ∧
     (let n : Nat := 4;
      let r : Nat := 3;
      let a : Nat := 768;
      let d : List Byte := txSlotBytes;
      let s : State := (((((linked .bare).setF Reg.ptpCtrlTxEn 1).setF Reg.ptpTxLen 4).setF Reg.ptpTxRptr
        3).setF Reg.ptpTxWptr 1).writeBytes .capture .spine 768 txSlotBytes;
      s.linkUp = true ∧ s.dev ≠ .lightHold ∧ s.flag Reg.ptpCtrlTxEn = true ∧ n = s.getF Reg.ptpTxLen ∧ n ≠ 0 ∧ n
        ≤ 2 ^ 22 ∧ r = s.getF Reg.ptpTxRptr ∧ r ≠ s.getF Reg.ptpTxWptr ∧ s.covers 10 4 8 = true ∧ a = (s.getF
        Reg.ptpTxBase + 256 * r) % 4194304 ∧ s.cleanAt .capture a 256 ∧ d = s.bytesAt .capture a 256) ∧
     (let n : Nat := 4;
      let r : Nat := 3;
      let a : Nat := 768;
      let d : List Byte := List.replicate 256 0;
      let s : State := (((((linked .bare).setF Reg.ptpCtrlTxEn 1).setF Reg.ptpTxLen 4).setF Reg.ptpTxRptr
        3).setF Reg.ptpTxWptr 1);
      s.linkUp = true ∧ s.dev ≠ .lightHold ∧ s.flag Reg.ptpCtrlTxEn = true ∧ n = s.getF Reg.ptpTxLen ∧ n ≠ 0 ∧ n
        ≤ 2 ^ 22 ∧ r = s.getF Reg.ptpTxRptr ∧ r ≠ s.getF Reg.ptpTxWptr ∧ s.covers 10 4 8 = true ∧ a = (s.getF
        Reg.ptpTxBase + 256 * r) % 4194304 ∧ s.cleanAt .capture a 256 ∧ d = s.bytesAt .capture a 256) := by
  iterate 5 refine And.intro (by decide +kernel) ?_
  decide +kernel

theorem witness_StencilBanksAndGridRows :
     (let p : Port := .pcie;
      let d : Fin 2 := 1;
      let l : Fin 48 := 47;
      let b : Nat := 1;
      let f : Nat := 1023;
      let e : Nat := 15;
      let s : State := (((up .doze (some .operator)).setF (Reg.layerConfigEnable 1 47) 1).setF
        (Reg.layerConfigSource 1 47) 1).results [1 + 256 * 47, 1, 1023, 15];
      s.ready p ∧ (s.dev = .lathed ∨ s.dev = .service ∨ s.dev = .doze) ∧ RoleRule.permits .op s.dev (s.session
        p).role = true ∧ s.argW 0 % 2 = d ∧ s.argW 0 / 256 % 64 = l ∧ s.flag (Reg.layerConfigEnable d l) = true ∧
        s.flag (Reg.layerConfigSource d l) = true ∧ s.argW 1 = b ∧ b ≤ 1 ∧ s.argW 2 = f ∧ f ≤ 1023 ∧ s.argW 3 = e
        ∧ (e ≤ 1 ∨ 8 ≤ e ∧ e ≤ 15)) ∧
     (let p : Port := .pcie;
      let d : Fin 2 := 0;
      let l : Fin 48 := 5;
      let b : Nat := 0;
      let f : Nat := 7;
      let e : Nat := 1;
      let s : State := ((((up .lathed (some .operator)).setF (Reg.layerConfigEnable 0 5) 1).setF
        (Reg.layerConfigSource 0 5) 1).setF (Reg.layerStatusPending 0 5) 1).results [256 * 5, 0, 7, 1];
      s.ready p ∧ (s.dev = .lathed ∨ s.dev = .service ∨ s.dev = .doze) ∧ RoleRule.permits .op s.dev (s.session
        p).role = true ∧ s.argW 0 % 2 = d ∧ s.argW 0 / 256 % 64 = l ∧ s.flag (Reg.layerConfigEnable d l) = true ∧
        s.flag (Reg.layerConfigSource d l) = true ∧ s.argW 1 = b ∧ b ≤ 1 ∧ s.argW 2 = f ∧ f ≤ 1023 ∧ s.argW 3 = e
        ∧ (e ≤ 1 ∨ 8 ≤ e ∧ e ≤ 15)) ∧
     (let p : Port := .pcie;
      let s : State := (((up .lathed (some .installer)).setF (Reg.pathStateState 3) 3).writeBytes .stencil
        .spine (256 * 4609) (List.replicate 64 0x7F)).results [2];
      s.ready p ∧ s.dev = .lathed ∧ RoleRule.permits .inst s.dev (s.session p).role = true ∧ s.flag Reg.gridMode
        = false ∧ s.absent .spectral = false) := by
  iterate 2 refine And.intro (by decide +kernel) ?_
  decide +kernel

theorem witness_RegistryCommandsOfTheHost :
     (let p : Port := .pcie;
      let i : Nat := 262143;
      let off : Nat := 100;
      let e : Nat := 0x55 + 2 * 2 ^ 40 + 5 * 2 ^ 154 + 9 * 2 ^ 130 + 1 * 2 ^ 169 + 63 * 2 ^ 174;
      let s : State := (((up .service (some .operator)).setF (Reg.carConfigPrbCount 0 0) 25).writeBytes .capture
        .spine 100 (leBytes 64 (0x55 + 2 * 2 ^ 40 + 5 * 2 ^ 154 + 9 * 2 ^ 130 + 1 * 2 ^ 169 + 63 * 2 ^ 174 + 7 * 2
        ^ 300))).results [262143, 3, 100];
      s.ready p ∧ (s.dev = .lathed ∨ s.dev = .service) ∧ RoleRule.permits .op s.dev (s.session p).role = true ∧
        s.getF Reg.bridgeRole = 0 ∧ s.bridge.diverging = false ∧ s.deferred 12 = false ∧ s.sched.waiting = [] ∧
        s.covers 12 0 2 = true ∧ s.covers 12 4 2 = true ∧ s.argW 0 = i ∧ i < s.getF Reg.partitionEntryLimit ∧
        s.argW 1 = 3 ∧ s.argW 2 = off ∧ off % 4 = 0 ∧ off + 64 ≤ 4194304 ∧ s.cleanAt .capture off 64 ∧ e = ofLe
        (s.bytesAt .capture off 32) ∧ entryState e < 3 ∧ bits e 212 44 = 0 ∧ (entryState e ≠ 0 → s.entryFits e =
        true) ∧ s.duplicate i (entryId e) = false ∧ (s.word0Bad i = true ∨ entryState (s.word0 i) ≠ 3 ∨ entryState
        e ≠ 2)) ∧
     (let p : Port := .pcie;
      let i : Nat := 4;
      let j : Nat := 9;
      let off : Nat := 128;
      let e : Nat := 0x55;
      let s : State := (((up .service (some .operator)).putWord0 9 (0x55 + 2 ^ 40)).writeBytes .capture .spine
        128 [0x55]).results [4, 3, 128];
      s.ready p ∧ (s.dev = .lathed ∨ s.dev = .service) ∧ RoleRule.permits .op s.dev (s.session p).role = true ∧
        s.getF Reg.bridgeRole = 0 ∧ s.deferred 12 = false ∧ s.sched.waiting = [] ∧ s.covers 12 0 2 = true ∧
        s.covers 12 4 2 = true ∧ s.argW 0 = i ∧ i < s.getF Reg.partitionEntryLimit ∧ s.argW 1 = 3 ∧ s.argW 2 = off
        ∧ off % 4 = 0 ∧ off + 64 ≤ 4194304 ∧ s.cleanAt .capture off 64 ∧ e = ofLe (s.bytesAt .capture off 32) ∧
        entryState e < 3 ∧ bits e 212 44 = 0 ∧ (entryState e ≠ 0 → s.entryFits e = true) ∧ j ∈ s.heldEntries ∧ j ≠
        i ∧ entryId (s.word0 j) = entryId e) ∧
     (let p : Port := .pcie;
      let i : Nat := 9;
      let n : Nat := 2;
      let off : Nat := 4;
      let s : State := ((((up .lathed (some .operator)).putWord0 9 (0x55 + 2 ^ 40)).putWord0 10 (0x56 + 2 ^
        40)).writeBytes .capture .spine 4 (List.replicate 128 7)).results [9, 2, 2, 4];
      s.ready p ∧ (s.dev = .lathed ∨ s.dev = .service) ∧ RoleRule.permits .op s.dev (s.session p).role = true ∧
        s.getF Reg.bridgeRole = 0 ∧ s.bridge.diverging = false ∧ s.deferred 12 = false ∧ s.sched.waiting = [] ∧
        s.covers 12 0 n = true ∧ s.covers 12 4 (2 * n) = true ∧ s.argW 0 = i ∧ s.argW 1 = n ∧ 1 ≤ n ∧ n ≤ 4096 ∧ i
        + n ≤ s.getF Reg.partitionEntryLimit ∧ s.argW 2 = 2 ∧ s.argW 3 = off ∧ off % 4 = 0 ∧ off + 64 * n ≤
        4194304 ∧ s.cleanAt .capture off (64 * n) ∧ (∀ k, k < n → i + k ∉ s.sched.suspended ∧ s.wordMark .registry
        (2 * (i + k)) = .clean ∧ entryState (s.word0 (i + k)) ≠ 0)) ∧
     (let p : Port := .pcie;
      let i : Nat := 9;
      let s : State := (((up .lathed (some .operator)).putWord0 9 (0x55 + 2 ^ 40)).setMark .registry 18
        .uncorrectable).results [9];
      s.ready p ∧ (s.dev = .lathed ∨ s.dev = .service) ∧ RoleRule.permits .op s.dev (s.session p).role = true ∧
        s.getF Reg.bridgeRole = 0 ∧ s.bridge.diverging = false ∧ s.deferred 12 = false ∧ s.sched.waiting = [] ∧
        s.covers 12 0 2 = true ∧ s.argW 0 = i ∧ i < s.getF Reg.partitionEntryLimit) ∧
     (let p : Port := .pcie;
      let n : Nat := 9;
      let s : State := ((up .lathed (some .operator)).putWord0 9 (0x5500000001 + 2 ^ 40)).results [1, 0x55];
      s.ready p ∧ (s.dev = .lathed ∨ s.dev = .service) ∧ RoleRule.permits .op s.dev (s.session p).role = true ∧
        s.deferred 12 = false ∧ s.sched.waiting = [] ∧ s.covers 12 0 (max 1 s.liveEntries.length) = true ∧ s.argW
        1 < 256 ∧ (∀ i ∈ s.entries, s.word0Bad i = false) ∧ n = (s.liveEntries.find? fun i => entryId (s.word0 i)
        == s.argW 0 + s.argW 1 * 2 ^ 32).getD 0xFFFFFFFF) ∧
     (let p : Port := .pcie;
      let n : Nat := 0xFFFFFFFF;
      let s : State := ((up .lathed (some .operator)).putWord0 9 (0x5500000001 + 2 ^ 40)).results [1, 0x54];
      s.ready p ∧ (s.dev = .lathed ∨ s.dev = .service) ∧ RoleRule.permits .op s.dev (s.session p).role = true ∧
        s.deferred 12 = false ∧ s.sched.waiting = [] ∧ s.covers 12 0 (max 1 s.liveEntries.length) = true ∧ s.argW
        1 < 256 ∧ (∀ i ∈ s.entries, s.word0Bad i = false) ∧ n = (s.liveEntries.find? fun i => entryId (s.word0 i)
        == s.argW 0 + s.argW 1 * 2 ^ 32).getD 0xFFFFFFFF) ∧
     (let p : Port := .pcie;
      let i : Nat := 9;
      let w : Nat := 39 + 256 * 40;
      let f : Int := 79;
      let s : State := ((up .service (some .operator)).putWord0 9 (0x55 + 2 ^ 40)).results [9, 1, 39 + 256 * 40];
      s.ready p ∧ s.phase = .run ∧ s.dev = .service ∧ RoleRule.permits .op s.dev (s.session p).role = true ∧
        s.getF Reg.bridgeRole = 0 ∧ s.deferred 12 = false ∧ s.sched.waiting = [] ∧ s.covers 12 0 1 = true ∧ s.argW
        0 = i ∧ i < s.getF Reg.partitionEntryLimit ∧ i ∉ s.sched.suspended ∧ s.wordMark .registry (2 * i) = .clean
        ∧ entryState (s.word0 i) ≠ 0 ∧ s.argW 2 = w ∧ w < 131072 ∧ bits w 6 2 = 0 ∧ bits w 14 2 = 0 ∧ bits w 0 6 <
        40 ∧ 1 ≤ bits w 8 6 ∧ bits w 8 6 ≤ 40 ∧ f = s.fretAt (s.argW 1) (bits w 0 6) ∧ s.fretNow < f ∧ 4000 ≤ f *
        250000 - s.nowNs ∧ (testBit w 16 = true → (entryState (s.word0 i) = 2 ∨ entryState (s.word0 i) = 3) ∧
        s.occStart (s.word0 i) f = some f)) ∧
     (let p : Port := .pcie;
      let i : Nat := 9;
      let w : Nat := 3 + 256 * 1 + 65536;
      let f : Int := 3;
      let s : State := ((up .service (some .operator)).putWord0 9 (0x55 + 2 * 2 ^ 40 + 3 * 2 ^ 124 + 2 ^
        154)).results [9, 0, 3 + 256 * 1 + 65536];
      s.ready p ∧ s.phase = .run ∧ s.dev = .service ∧ RoleRule.permits .op s.dev (s.session p).role = true ∧
        s.getF Reg.bridgeRole = 0 ∧ s.deferred 12 = false ∧ s.sched.waiting = [] ∧ s.covers 12 0 1 = true ∧ s.argW
        0 = i ∧ i < s.getF Reg.partitionEntryLimit ∧ i ∉ s.sched.suspended ∧ s.wordMark .registry (2 * i) = .clean
        ∧ entryState (s.word0 i) ≠ 0 ∧ s.argW 2 = w ∧ w < 131072 ∧ bits w 6 2 = 0 ∧ bits w 14 2 = 0 ∧ bits w 0 6 <
        40 ∧ 1 ≤ bits w 8 6 ∧ bits w 8 6 ≤ 40 ∧ f = s.fretAt (s.argW 1) (bits w 0 6) ∧ s.fretNow < f ∧ 4000 ≤ f *
        250000 - s.nowNs ∧ (testBit w 16 = true → (entryState (s.word0 i) = 2 ∨ entryState (s.word0 i) = 3) ∧
        s.occStart (s.word0 i) f = some f)) := by
  iterate 7 refine And.intro (by decide +kernel) ?_
  decide +kernel

theorem witness_SchedulerPreparesTheFretsToCome :
     (let prev : PrepFret := PrepFret.empty 0;
      let s : State := (((up .service none).setF (Reg.layerConfigEnable 0 1) 1).setF (Reg.classADir 0)
        0).putWord0 9 (0x55 + 2 * 2 ^ 40 + 1 * 2 ^ 124 + 5 * 2 ^ 154 + 9 * 2 ^ 130 + 1 * 2 ^ 169 + 2 ^ 205);
      s.schedRuns = true ∧ s.sched.cur.fret = s.fretNow ∧ s.sched.stale = [] ∧ s.sched.staleFrom = none ∧
        s.sched.prep.length < 8 ∧ prev = (s.sched.prep.getLast?).getD s.sched.cur) ∧
     (let s : State :=
        { (up .service none).putWord0 9 (0x55 + 2 * 2 ^ 40 + 1 * 2 ^ 124 + 5 * 2 ^ 154 + 9 * 2 ^ 130 + 1 * 2 ^ 169) with sched := { State.reset.sched with prep := [PrepFret.empty 1, PrepFret.empty 2], stale := [9] } };
      s.schedRuns = true ∧ s.sched.cur.fret = s.fretNow) ∧
     (let q : PrepFret := PrepFret.empty 1;
      let l : List PrepFret := [];
      let s : State :=
        { up .service none with sched := { State.reset.sched with prep := [PrepFret.empty 1] }, time := { TimeState.fresh with now := 70000 * 2 ^ 32 } };
      s.schedRuns = true ∧ s.sched.cur.fret = s.fretNow ∧ s.sched.stale = [] ∧ s.sched.staleFrom = none ∧
        s.sched.prep = q :: l ∧ s.absFret * 250000 + 70000 ≤ s.nowNs) ∧
     (let q : PrepFret := { PrepFret.empty 41 with closed := true, wins := List.replicate 80 oneWin };
      let l : List PrepFret := [];
      let s : State :=
        { linked .service with sched := { State.reset.sched with prep := [{ PrepFret.empty 41 with closed := true, wins := List.replicate 80 oneWin }] } };
      s.inService = true ∧ s.bbReady = true ∧ s.absent .link = false ∧ s.sched.stale = [] ∧ s.sched.staleFrom =
        none ∧ s.sched.prep = q :: l ∧ q.closed = true ∧ q.revision = none ∧ (∀ x ∈ l, x.fret ≠ q.fret)) ∧
     (let q : PrepFret := { PrepFret.empty 41 with revision := some 255, changed := true, wins := [oneWin] };
      let l : List PrepFret := [PrepFret.empty 42];
      let r : Nat := 255;
      let s : State :=
        { linked .service with sched := { State.reset.sched with prep := [{ PrepFret.empty 41 with revision := some 255, changed := true, wins := [oneWin] }, PrepFret.empty 42] } };
      s.inService = true ∧ s.bbReady = true ∧ s.absent .link = false ∧ s.sched.stale = [] ∧ s.sched.staleFrom =
        none ∧ s.sched.prep = q :: l ∧ q.changed = true ∧ q.revision = some r ∧ (∀ x ∈ l, x.fret ≠ q.fret ∧
        (x.revision = none ∨ x.changed = false))) := by
  iterate 4 refine And.intro (by decide +kernel) ?_
  decide +kernel

theorem witness_TwinCommandsAndFormation :
     (let p : Port := .qspi;
      let s : State := ((up .bare none).setF Reg.linkEpoch 7).setF Reg.divergenceCount 5;
      s.ready p ∧ s.dev ≠ .lightHold) ∧
     (let p : Port := .pcie;
      let n : Nat := 3;
      let m : Nat := 1;
      let k : Nat := 2;
      let a : Nat := 20;
      let s : State :=
        { (((up .lathed (some .operator)).setF Reg.divergenceCount 3).writeBytes .spine .spine (divergenceAddr + 70) [1, 2, 3]).results [6, 9, 20] with bridge := { BridgeState.fresh with divNext := 8 } };
      s.ready p ∧ s.dev ≠ .lightHold ∧ RoleRule.permits .both s.dev (s.session p).role = true ∧ s.argW 2 = a ∧ a
        % 4 = 0 ∧ 1 ≤ s.argW 1 ∧ s.argW 1 ≤ 256 ∧ a + 64 * s.argW 1 ≤ 4194304 ∧ s.deferred 10 = false ∧ s.covers
        10 4 (2 * k) = true ∧ n = s.getF Reg.divergenceCount ∧ n ≤ 1024 ∧ m = s.argW 0 - (s.bridge.divNext - n) ∧
        k = min (s.argW 1) (n - m) ∧ s.cleanAt .spine divergenceAddr 65536 ∧ s.cleanAt .capture a (64 * s.argW 1)) ∧
     (let p : Port := .pcie;
      let s : State := ((up .lathed (some .operator)).setF Reg.divergenceCount 3).writeBytes .spine .spine
        (divergenceAddr + 70) [1, 2, 3];
      s.ready p ∧ s.dev ≠ .lightHold ∧ RoleRule.permits .op s.dev (s.session p).role = true) ∧
     (let p : Port := .pcie;
      let s : State := (up .lathed (some .operator)).setF Reg.bridgeStatusArbitrating 1;
      s.ready p ∧ s.dev ≠ .lightHold ∧ RoleRule.permits .op s.dev (s.session p).role = true) ∧
     (let p : Port := .pcie;
      let s : State :=
        { (pair 1) with pcie := { Session.none with role := some .operator }, bridge := { (pair 1).bridge with reformed := true } };
      s.ready p ∧ s.dev ≠ .lightHold ∧ RoleRule.permits .op s.dev (s.session p).role = true) ∧
     (let k : Nat := 0;
      let s : State := west .lathed;
      s.bridgeOn = true ∧ s.flag Reg.bridgeCtrlEnable = true ∧ s.inLathedUp = true ∧ s.bridge.refused = false ∧
        s.flag Reg.bridgeStatusTrained = false ∧ k = (if s.bridge.training = true then max s.drone.ticks
        (s.bridge.trainTick + 245760) else s.drone.ticks) ∧ s.beyondFret (s.tickNs k) = false) ∧
     (let k : Nat := 245767;
      let s : State :=
        { (west .lathed).setF Reg.timeStatusState 0 with drone := { State.reset.drone with ticks := 245000 }, bridge := { BridgeState.fresh with training := true, trainTick := 7, identSent := true } };
      s.bridgeOn = true ∧ s.flag Reg.bridgeCtrlEnable = true ∧ s.inLathedUp = true ∧ s.bridge.refused = false ∧
        s.flag Reg.bridgeStatusTrained = false ∧ k = (if s.bridge.training = true then max s.drone.ticks
        (s.bridge.trainTick + 245760) else s.drone.ticks) ∧ s.beyondFret (s.tickNs k) = false) ∧
     (let s : State := { west .lathed with bridge := { BridgeState.fresh with training := true } };
      s.bridgeOn = true ∧ s.flag Reg.bridgeCtrlEnable = true ∧ s.inLathedUp = true ∧ s.bridge.refused = false ∧
        s.bridge.training = true ∧ s.bridge.identSent = false ∧ (s.bridge.identGot = none ∨ s.bridge.paired =
        true)) ∧
     (let s : State :=
        { (pair 1).setF Reg.bridgeStatusTrained 0 with bridge := { (pair 1).bridge with training := true, identGot := some (⟨5, 2, 2, 2, false, [], [], 0, 0, 0⟩, 7) } };
      s.bridgeOn = true ∧ s.flag Reg.bridgeCtrlEnable = true ∧ s.inLathedUp = true ∧ s.bridge.refused = false ∧
        s.bridge.training = true ∧ s.bridge.identSent = false ∧ (s.bridge.identGot = none ∨ s.bridge.paired =
        true)) ∧
     (let uid : BitVec 64 := 5;
      let side : Fin 3 := 2;
      let st : Fin 8 := 2;
      let role : Fin 4 := 0;
      let elder : Bool := false;
      let inst : BitVec 128 := 0;
      let op : BitVec 128 := 0;
      let by_ : Fin 8 := 0;
      let div : Nat := 0;
      let entries : Nat := 3;
      let q : Peer := ⟨5, 2, 2, 0, false, beBytes 16 0, beBytes 16 0, 0, 0, 3⟩;
      let s : State := trained.putWord0 9 (0x55 + 2 ^ 40);
      let c : Nat := (trained.putWord0 9 (0x55 + 2 ^ 40)).refuseCode ⟨5, 2, 2, 0, false, beBytes 16 0, beBytes
        16 0, 0, 0, 3⟩;
      s.bridgeOn = true ∧ s.flag Reg.bridgeCtrlEnable = true ∧ s.inLathedUp = true ∧ s.bridge.refused = false ∧
        s.bridge.training = true ∧ s.bridge.identSent = true ∧ s.bridge.paired = false ∧ q = ⟨uid.toNat, side, st,
        role, elder, beBytes 16 inst.toNat, beBytes 16 op.toNat, by_, div, entries⟩ ∧ c = s.refuseCode q) ∧
     (let k : Nat := 2458;
      let s : State := pair 1;
      s.bridgeOn = true ∧ s.inPair = true ∧ k = max s.drone.ticks (s.bridge.beatTick + 2458) ∧ s.beyondFret
        (s.tickNs k) = false) ∧
     (let s : State := { pair 1 with bridge := { (pair 1).bridge with skewOver := 99, diverging := true } };
      s.bridgeOn = true ∧ s.inPair = true) ∧
     (let last : Bool := true;
      let n : Nat := 1;
      let l : List Nat := [9];
      let s : State :=
        { ((pair 2).putWord0 9 (0x55 + 2 ^ 40)).setF Reg.divergenceCount 4 with bridge := { (pair 2).bridge with syncMap := some [9], syncSeen := 1, diverging := true } };
      s.inPair = true ∧ s.getF Reg.bridgeRole = 2 ∧ s.dev ≠ .doze ∧ (last = true → s.bridge.syncMap = some l ∧ n
        ≤ s.bridge.syncSeen ∧ s.bridge.mirrorHeld = [] ∧ (∀ i ∈ s.heldEntries, i ∈ l))) ∧
     (let last : Bool := false;
      let n : Nat := 0;
      let l : List Nat := [];
      let s : State := pair 2;
      s.inPair = true ∧ s.getF Reg.bridgeRole = 2 ∧ s.dev ≠ .doze ∧ (last = true → s.bridge.syncMap = some l ∧ n
        ≤ s.bridge.syncSeen ∧ s.bridge.mirrorHeld = [] ∧ (∀ i ∈ s.heldEntries, i ∈ l))) ∧
     (let bar : Word := 5;
      let s : State := (List.range 64).foldl (fun s p => s.setF (Reg.pathStateState p) 2) (((pair 2).setF
        Reg.timeStatusState 1).setF Reg.bridgeStatusSynced 1);
      s.inPair = true ∧ s.job = none ∧ s.bridge.autoStart = none ∧ s.acceptsStart bar.toNat = true) ∧
     (let s : State := up .bare none;
      s.bridgeOn = true) := by
  iterate 9 refine And.intro (by decide +kernel) ?_
  refine And.intro ⟨by decide +kernel, by decide +kernel, by decide +kernel, by decide +kernel, by decide +kernel, by decide +kernel, by decide +kernel, rfl, rfl⟩ ?_
  iterate 5 refine And.intro (by decide +kernel) ?_
  decide +kernel

theorem witness_TwinMirrorsAndForwards :
     (let q : BitVec 16 := 65535;
      let s : State :=
        { (pair 2).putWord0 9 (0x55 + 2 ^ 40 + 7 * 2 ^ 196) with bridge := { (pair 2).bridge with mirrorNext := 65535 } };
      s.inPair = true ∧ s.getF Reg.bridgeRole = 2 ∧ q.toNat = s.bridge.mirrorNext ∧ s.bridge.mirrorHeld = [] ∧
        s.bridge.forwarded = [] ∧ s.bridge.syncMap = none ∧ s.covers 9 0 1 = true ∧ s.dev ≠ .doze) ∧
     (let q : BitVec 16 := 0;
      let s : State := (pair 2).putWord0 9 (0x55 + 2 ^ 40 + 7 * 2 ^ 196);
      s.inPair = true ∧ s.getF Reg.bridgeRole = 2 ∧ q.toNat = s.bridge.mirrorNext ∧ s.bridge.mirrorHeld = [] ∧
        s.bridge.forwarded = [] ∧ s.bridge.syncMap = none ∧ s.covers 9 0 1 = true ∧ s.dev ≠ .doze) ∧
     (let s : State :=
        { pair 1 with bridge := { (pair 1).bridge with mirrorOut := [⟨3, 9, [], some 5⟩, ⟨4, 9, [], none⟩] } };
      s.inPair = true ∧ s.bridge.waits = []) ∧
     (let q : BitVec 16 := 3;
      let w : RegWait := ⟨⟨.host .pcie, 0x8A, [9], []⟩, [3], 0, 0, 0⟩;
      let p : Port := .pcie;
      let s : State :=
        { pair 1 with job := some .registry, bridge := { (pair 1).bridge with mirrorOut := [⟨3, 9, [], some 5⟩], waits := [⟨⟨.host .pcie, 0x8A, [9], []⟩, [3], 0, 0, 0⟩] } };
      s.inPair = true ∧ s.bridge.waits = [w] ∧ w.seqs = [q.toNat] ∧ w.msg.origin = .host p ∧ w.msg.opcode = 0x8A
        ∧ w.code ≤ 6) ∧
     (let l : List MirrorRec := [⟨2, 9, [], none⟩, ⟨1, 9, [], some 8⟩];
      let r : List MirrorRec := [⟨4, 9, [], some 5⟩];
      let m : MirrorRec := ⟨3, 9, [7], some 5⟩;
      let k : Nat := 5;
      let s : State :=
        { pair 1 with bridge := { (pair 1).bridge with mirrorOut := [⟨2, 9, [], none⟩, ⟨1, 9, [], some 8⟩, ⟨3, 9, [7], some 5⟩, ⟨4, 9, [], some 5⟩] } };
      s.inPair = true ∧ s.bridge.mirrorOut = l ++ m :: r ∧ m.sentTick = some k ∧ (∀ x ∈ l, x.sentTick.all (fun j
        => decide (k < j)) = true) ∧ (∀ x ∈ r, x.sentTick.all (fun j => decide (k ≤ j)) = true) ∧ s.beyondFret
        (s.tickNs (k + nsTicks 4000)) = false ∧ (s.passTickCount (k + nsTicks 4000)).covers 9 0 1 = true ∧
        (s.passTickCount (k + nsTicks 4000)).covers 9 4 2 = true) ∧
     (let args : List Word := [9];
      let i : Nat := 9;
      let a : Nat := 65535;
      let b : Nat := 0;
      let s : State :=
        { (pair 1).putWord0 9 (0x55 + 2 ^ 40 + 7 * 2 ^ 196) with bridge := { (pair 1).bridge with seqTx := [(0x10, 65535)] } };
      s.inPair = true ∧ s.getF Reg.bridgeRole = 1 ∧ i = (args.getD 0 0).toNat ∧ i < s.getF
        Reg.partitionEntryLimit ∧ s.inLathedUp = true ∧ s.deferred 12 = false ∧ s.sched.waiting = [] ∧ s.covers 12
        0 2 = true ∧ ((s.grantRest 12 0 2).grantRest 12 4 0).covers 9 0 1 = true ∧ ((s.grantRest 12 0 2).grantRest
        12 4 0).covers 9 4 2 = true ∧ s.dev ≠ .doze ∧ a = mapGet 0 0x10 s.bridge.seqTx ∧ b = mapGet 0 0x21
        s.bridge.seqTx) ∧
     (let q : BitVec 16 := 77;
      let next : BitVec 16 := 65535;
      let f : Forwarded := ⟨77, ⟨.host .qspi, 0x8A, [9], []⟩, none⟩;
      let p : Port := .qspi;
      let s : State :=
        { pair 2 with job := some .registry, bridge := { (pair 2).bridge with forwarded := [⟨77, ⟨.host .qspi, 0x8A, [9], []⟩, none⟩] } };
      s.inPair = true ∧ s.bridge.forwarded = [f] ∧ f.seq = q.toNat ∧ f.msg.opcode = 0x8A ∧ f.msg.origin = .host
        p ∧ seqBefore s.bridge.mirrorNext next.toNat = false) ∧
     (let i : Fin 262144 := 9;
      let s : State := (pair 1).putWord0 9 (0x55 + 2 ^ 40 + 7 * 2 ^ 196);
      s.inPair = true ∧ s.wordMark .registry (2 * i) = .clean ∧ s.bridge.repairs = [] ∧ s.covers 9 0 1 = true ∧
        s.covers 9 4 1 = true) ∧
     (let i : Fin 262144 := 8;
      let s : State := (pair 1).putWord0 9 (0x55 + 2 ^ 40 + 7 * 2 ^ 196);
      s.inPair = true ∧ s.wordMark .registry (2 * i) = .clean ∧ s.bridge.repairs = [] ∧ s.covers 9 0 1 = true ∧
        s.covers 9 4 1 = true) ∧
     (let i : Fin 262144 := 9;
      let w : BitVec 256 := BitVec.ofNat 256 (0x56 + 3 * 2 ^ 40);
      let s : State :=
        { (pair 2).setMark .registry 18 .uncorrectable with sched := { State.reset.sched with suspended := [4, 9] } };
      s.reached .registry = true ∧ s.reached .bridge = true ∧ s.inPair = true ∧ i.val ∈ s.sched.suspended ∧
        entryState w.toNat ≠ 0 ∧ s.dev ≠ .doze) ∧
     (let i : Fin 262144 := 9;
      let w : BitVec 256 := BitVec.ofNat 256 (0x56 + 3 * 2 ^ 40);
      let s : State :=
        { (pair 2).setMark .registry 18 .uncorrectable with sched := { State.reset.sched with suspended := [4, 9], lapsed := [(9, -70)] } };
      s.reached .registry = true ∧ s.reached .bridge = true ∧ s.inPair = true ∧ i.val ∈ s.sched.suspended ∧
        entryState w.toNat ≠ 0 ∧ s.dev ≠ .doze) ∧
     (let s : State :=
        { pair 1 with journal := { State.reset.journal with twinNext := 4096 + 4095, twinHeld := 4096 } };
      s.inPair = true) := by
  iterate 11 refine And.intro (by decide +kernel) ?_
  decide +kernel

theorem witness_TwinLossIsArbitrated :
     (let k : Nat := 12300;
      let s : State :=
        { ((pair 1).setF Reg.linkCtrlWitnessEn 1).setF Reg.linkEpoch 4294967295 with bridge := { (pair 1).bridge with heartbeatTick := 12, waits := [⟨⟨.fronthaul 7 0, 0x8A, [9], []⟩, [3], 0, 0, 0⟩] }, sched := { State.reset.sched with cur := { PrepFret.empty 0 with wins := [{ oneWin with dl := some 3, silent := true }] } } };
      s.bridgeOn = true ∧ s.bridge.paired = true ∧ s.bridge.checkSuspended = false ∧ s.beyondFret (s.tickNs
        (s.bridge.heartbeatTick + 12288)) = false ∧ k = max s.drone.ticks (s.bridge.heartbeatTick + 12288)) ∧
     (let k : Nat := 5;
      let a : Nat := 12300;
      let s : State := lost 5;
      s.bridge.declaredTick = some k ∧ a = max s.drone.ticks (s.fh.witnessTick + 12288) ∧ a ≤ k + 122880 ∧
        s.beyondFret (s.tickNs a) = false ∧ s.flag Reg.linkCtrlWitnessEn = true ∧ s.bbReady = true ∧ s.absent
        .link = false) ∧
     (let h : CtlHead := ctlTo 0xA1B2C3D4E5F6 20;
      let lead : BitVec 64 := Config.deviceUid;
      let other : BitVec 64 := 5;
      let k : Nat := 5;
      let s : State := lost 5;
      s.linkUp = true ∧ s.takes h.frame ∧ ctlSound h 20 = true ∧ s.flag Reg.linkStatusBbFound = true ∧
        h.frame.src.toNat = s.bbMac ∧ s.dev ≠ .lightHold ∧ s.flag Reg.dozeStatusLightPending = false ∧
        s.bridge.declaredTick = some k ∧ s.drone.ticks ≤ k + 122880 ∧ (lead = Config.deviceUid ∧ other.toNat =
        s.peerUid ∨ other = Config.deviceUid ∧ lead.toNat = s.peerUid)) ∧
     (let h : CtlHead := ctlTo 0xA1B2C3D4E5F6 20;
      let lead : BitVec 64 := 5;
      let other : BitVec 64 := Config.deviceUid;
      let k : Nat := 5;
      let s : State := lost 5;
      s.linkUp = true ∧ s.takes h.frame ∧ ctlSound h 20 = true ∧ s.flag Reg.linkStatusBbFound = true ∧
        h.frame.src.toNat = s.bbMac ∧ s.dev ≠ .lightHold ∧ s.flag Reg.dozeStatusLightPending = false ∧
        s.bridge.declaredTick = some k ∧ s.drone.ticks ≤ k + 122880 ∧ (lead = Config.deviceUid ∧ other.toNat =
        s.peerUid ∨ other = Config.deviceUid ∧ lead.toNat = s.peerUid)) ∧
     (let k : Nat := 5;
      let s : State := { lost 5 with drone := { State.reset.drone with ticks := 122885 } };
      s.bridge.declaredTick = some k ∧ s.beyondFret (s.tickNs (k + 122880)) = false) ∧
     (let s : State := pair 2;
      s.bridgeOn = true ∧ (s.bridge.paired = true ∨ s.flag Reg.bridgeStatusArbitrating = true)) ∧
     (let s : State := lost 5;
      s.bridgeOn = true ∧ (s.bridge.paired = true ∨ s.flag Reg.bridgeStatusArbitrating = true)) ∧
     (let bar : Nat := 1;
      let s : State :=
        { pair 2 with job := some (.serviceStart 1 false), time := { TimeState.fresh with now := 9500000 * 2 ^ 32, fret := 38 } };
      s.job = some (.serviceStart bar false) ∧ s.beyondFret (max s.nowNs (s.barBoundary bar - 500000)) = false) := by
  iterate 2 refine And.intro (by decide +kernel) ?_
  refine And.intro ⟨by decide +kernel, ⟨by decide +kernel, by decide +kernel, by rfl⟩, by decide +kernel, by decide +kernel, by decide +kernel, by decide +kernel, by decide +kernel, by decide +kernel, by decide +kernel, by first | exact .inl ⟨rfl, by decide +kernel⟩ | exact .inr ⟨rfl, by decide +kernel⟩⟩ ?_
  refine And.intro ⟨by decide +kernel, ⟨by decide +kernel, by decide +kernel, by rfl⟩, by decide +kernel, by decide +kernel, by decide +kernel, by decide +kernel, by decide +kernel, by decide +kernel, by decide +kernel, by first | exact .inl ⟨rfl, by decide +kernel⟩ | exact .inr ⟨rfl, by decide +kernel⟩⟩ ?_
  iterate 3 refine And.intro (by decide +kernel) ?_
  decide +kernel

theorem witness_HousekeepingSequencesAndReadings :
     (let p : Port := .pcie;
      let x : Fin 2 := 1;
      let s : State := (up .lathed (some .installer)).results [1];
      s.ready p ∧ s.dev ≠ .lightHold ∧ s.dev ≠ .maker ∧ RoleRule.permits .both s.dev (s.session p).role = true ∧
        s.argW 0 = x) ∧
     (let p : Port := .pcie;
      let x : Fin 2 := 1;
      let s : State := ((up .lathed (some .installer)).results [1]).setF (Reg.seqStatusRunning 1) 1;
      s.ready p ∧ s.dev ≠ .lightHold ∧ s.dev ≠ .maker ∧ RoleRule.permits .both s.dev (s.session p).role = true ∧
        s.argW 0 = x) ∧
     (let p : Port := .pcie;
      let x : Fin 2 := 1;
      let s : State := (((up .lathed (some .installer)).results [1]).setF (Reg.seqStatusRunning 1) 1).setF
        (Reg.seqStatusArmed 1) 1;
      s.ready p ∧ s.dev ≠ .lightHold ∧ s.dev ≠ .maker ∧ RoleRule.permits .both s.dev (s.session p).role = true ∧
        s.argW 0 = x) ∧
     (let p : Port := .pcie;
      let x : Fin 2 := 1;
      let s : State := (((up .lathed (some .installer)).results [1, 0x8001, 3]).setF (Reg.slotAccLo 1 15)
        7).setSlot 1 15 fun y => { y with sum := 7, count := 1 };
      s.ready p ∧ s.dev ≠ .lightHold ∧ s.dev ≠ .maker ∧ RoleRule.permits .both s.dev (s.session p).role = true ∧
        s.argW 0 = x) ∧
     (let x : Fin 2 := 1;
      let s : State := ((((up .lathed none).setSeq 1 fun _ => ⟨true, false, 7⟩).setF (Reg.seqCtrlSlots 1)
        3).setF (Reg.seqCtrlClrOnRun 1) 1).setSlot 1 3 fun y =>
        { y with sum := 7, count := 1, phase := 2, ints := [4, 5, 6, 7] };
      s.monitorOn = true ∧ (s.seq x).start = true ∧ s.getF (Reg.seqCtrlSlots x) < 16) ∧
     (let x : Fin 2 := 1;
      let s : State := ((up .lathed none).setSeq 1 fun _ => ⟨false, true, 0⟩).setF (Reg.seqStatusRunning 1) 1;
      s.monitorOn = true ∧ s.getF (Reg.seqStatusRunning x) = 1 ∧ ((s.seq x).stopping = true ∨ s.getF
        (Reg.seqCtrlMode x) = 1 ∨ s.beyondFret (s.tickNs ((s.seq x).begun + s.runTicks x)) = false)) ∧
     (let x : Fin 2 := 0;
      let s : State := ((up .lathed none).setF (Reg.seqStatusRunning 0) 1).setF (Reg.seqCtrlMode 0) 0;
      s.monitorOn = true ∧ s.getF (Reg.seqStatusRunning x) = 1 ∧ ((s.seq x).stopping = true ∨ s.getF
        (Reg.seqCtrlMode x) = 1 ∨ s.beyondFret (s.tickNs ((s.seq x).begun + s.runTicks x)) = false)) ∧
     (let x : Fin 2 := 1;
      let k : Fin 16 := 2;
      let codes : List (BitVec 12) := [0xFFF];
      let c : BitVec 12 := 0xFFF;
      let s : State := (((up .lathed none).setF (Reg.seqStatusRunning 1) 1).setF (Reg.slotCfgLog2R 1 2) 3).setF
        (Reg.seqCtrlSlots 1) 2;
      s.monitorOn = true ∧ s.getF (Reg.seqStatusRunning x) = 1 ∧ k ≤ s.getF (Reg.seqCtrlSlots x) ∧ codes = [c] ∧
        s.getF (Reg.slotCmpCtrlMode x k) = 0 ∧ (s.slot x k).phase + 1 < s.slotRate x k) ∧
     (let x : Fin 2 := 1;
      let k : Fin 16 := 2;
      let codes : List (BitVec 12) := [5];
      let c : BitVec 12 := 5;
      let y : SlotState := ⟨[0xFFFFFFFF, 0, 0, 0], [0xFFFFFFFF, 0, 0, 0], 0, 1, 9, 4, 0, false⟩;
      let a : Nat := 0xFFFFFFFF;
      let v : Int := -2043;
      let s : State := ((((((up .lathed none).setF (Reg.seqStatusRunning 1) 1).setF (Reg.slotCfgLog2R 1 2)
        0).setF (Reg.slotCfgOrder 1 2) 0).setF (Reg.slotCfgShift0 1 2) 0).setF (Reg.seqCtrlSlots 1) 2).setSlot 1 2
        fun _ => ⟨[0xFFFFFFFF, 0, 0, 0], [0xFFFFFFFF, 0, 0, 0], 0, 1, 9, 4, 0, false⟩;
      s.monitorOn = true ∧ s.getF (Reg.seqStatusRunning x) = 1 ∧ k ≤ s.getF (Reg.seqCtrlSlots x) ∧ codes = [c] ∧
        s.getF (Reg.slotCmpCtrlMode x k) = 0 ∧ s.getF (Reg.slotCfgOrder x k) = 0 ∧ s.getF (Reg.slotCfgLog2R x k) =
        0 ∧ s.getF (Reg.slotCfgShift0 x k) = 0 ∧ y = s.slot x k ∧ 1 ≤ y.outputs ∧ y.ints = [a, 0, 0, 0] ∧ y.combs
        = [a, 0, 0, 0] ∧ a < 2 ^ 32 ∧ y.count < 65535 ∧ v = (c.toNat : Int) - 2048) ∧
     (let n : Fin 17 := 7;
      let v : BitVec 16 := -320;
      let s : State := up .lathed none;
      s.monitorOn = true ∧ n.val < 16 ∧ s.flag (Reg.tempSensorBroken n) = false ∧ -640 ≤ v.toInt ∧ v.toInt <
        2000 ∧ (vecGet s.mon.sensors n ⟨0, 0, 0⟩).off < 7) ∧
     (let n : Fin 17 := 7;
      let v : BitVec 16 := 2000;
      let s : State := (up .lathed none).setSensor 7 fun _ => ⟨2001, 1, 0⟩;
      s.monitorOn = true ∧ n.val < 16 ∧ s.flag (Reg.tempSensorBroken n) = false ∧ 2000 ≤ v.toInt ∧ v.toInt ≤
        2400 ∧ (vecGet s.mon.sensors n ⟨0, 0, 0⟩).off < 7 ∧ 1 ≤ (vecGet s.mon.sensors n ⟨0, 0, 0⟩).hot ∧ s.dev ≠
        .maker) ∧
     (let n : Fin 17 := 16;
      let s : State := up .lathed none;
      s.monitorOn = true ∧ n.val = 16) := by
  iterate 11 refine And.intro (by decide +kernel) ?_
  decide +kernel

theorem witness_SagStagesRiseAndFall :
     (let low : Bool := true;
      let s : State := (up .service none).setF Reg.sagCtrlEnable 1;
      s.phase = .run ∧ s.drone.sagLow ≠ low ∧ s.drone.sagHold = false) ∧
     (let codes : List (BitVec 12) := [2000, 900, 900, 900, 900];
      let k : Nat := 2;
      let n : Nat := 0;
      let s : State := (((up .service none).setF Reg.sagCtrlEnable 1).setF Reg.sagLevels0Sag2 900).setF
        Reg.sagLevels0Sag1 1000;
      s.sagActs = true ∧ n = s.getF Reg.sagStatusStage ∧ n ≤ 4 ∧ k = (([3, 2, 1].find? fun k => s.sagMet
        (codes.map BitVec.toNat) k).getD 0)) ∧
     (let low : BitVec 12 := 951;
      let k : Nat := 2;
      let s : State := ((((up .service none).setF Reg.sagCtrlEnable 1).setF Reg.sagLevels0Sag2 900).setF
        Reg.sagLevels1RecoverHyst 50).setF Reg.sagStatusStage 2;
      s.sagActs = true ∧ k = s.getF Reg.sagStatusStage ∧ 1 ≤ k ∧ k ≤ 4 ∧ s.mon.sagStopped = false ∧ (k = 4 ∨
        s.sagLevel k = 0 ∨ s.sagLevel k + s.getF Reg.sagLevels1RecoverHyst < low.toNat) ∧ (3 ≤ k → s.drone.sagLow
        = false ∧ s.beyondFret (s.tickNs (s.drone.sagTick + nsTicks (1000000 * max 1 (s.getF
        Reg.sagLevels1RecoverMs)))) = false)) ∧
     (let low : BitVec 12 := 0;
      let k : Nat := 3;
      let s : State :=
        { ((up .service none).setF Reg.sagCtrlEnable 1).setF Reg.sagStatusStage 3 with drone := { State.reset.drone with ticks := 245760 } };
      s.sagActs = true ∧ k = s.getF Reg.sagStatusStage ∧ 1 ≤ k ∧ k ≤ 4 ∧ s.mon.sagStopped = false ∧ (k = 4 ∨
        s.sagLevel k = 0 ∨ s.sagLevel k + s.getF Reg.sagLevels1RecoverHyst < low.toNat) ∧ (3 ≤ k → s.drone.sagLow
        = false ∧ s.beyondFret (s.tickNs (s.drone.sagTick + nsTicks (1000000 * max 1 (s.getF
        Reg.sagLevels1RecoverMs)))) = false)) ∧
     (let k : Nat := 245760;
      let s : State :=
        { ((up .lathed none).setF Reg.sagCtrlEnable 1).setF Reg.sagCtrlDeepMs 1 with drone := { State.reset.drone with ticks := 245760, sagLow := true } };
      s.sagActs = true ∧ s.getF Reg.sagStatusStage ≤ 4 ∧ s.getF Reg.sagCtrlDeepMs ≠ 0 ∧ s.drone.sagLow = true ∧
        k = s.drone.sagTick + nsTicks (1000000 * s.getF Reg.sagCtrlDeepMs) ∧ s.beyondFret (s.tickNs k) = false) ∧
     (let k : Nat := 245760;
      let s : State :=
        { ((up .doze none).setF Reg.sagCtrlEnable 1).setF Reg.sagCtrlDeepMs 1 with drone := { State.reset.drone with ticks := 245760, sagLow := true } };
      s.sagActs = true ∧ s.getF Reg.sagStatusStage ≤ 4 ∧ s.getF Reg.sagCtrlDeepMs ≠ 0 ∧ s.drone.sagLow = true ∧
        k = s.drone.sagTick + nsTicks (1000000 * s.getF Reg.sagCtrlDeepMs) ∧ s.beyondFret (s.tickNs k) = false) := by
  iterate 5 refine And.intro (by decide +kernel) ?_
  decide +kernel

theorem witness_CodedMemoriesAreKeptClean :
     (let m : Fin 6 := 0;
      let w : Nat := 18;
      let s : State := ((up .lathed none).setMark .registry 18 .uncorrectable).setF (Reg.skimPos 0) 18;
      s.skimOn (memOf m) = true ∧ s.othersAsk (memResource (memOf m)) = false ∧ s.covers 7 (memResource (memOf
        m)) 1 = true ∧ w = s.getF (Reg.skimPos m) ∧ w + 1 < (memOf m).words) ∧
     (let m : Fin 6 := 3;
      let w : Nat := 17;
      let s : State := ((up .lathed none).setMark .spine 17 (.correctable 67 15)).setF (Reg.skimPos 3) 17;
      s.skimOn (memOf m) = true ∧ s.othersAsk (memResource (memOf m)) = false ∧ s.covers 7 (memResource (memOf
        m)) 1 = true ∧ w = s.getF (Reg.skimPos m) ∧ w + 1 < (memOf m).words) ∧
     (let m : Fin 6 := 3;
      let w : Nat := 40959;
      let s : State := (up .lathed none).setF (Reg.skimPos 3) 40959;
      s.skimOn (memOf m) = true ∧ s.othersAsk (memResource (memOf m)) = false ∧ s.covers 7 (memResource (memOf
        m)) 1 = true ∧ w = s.getF (Reg.skimPos m) ∧ w + 1 = (memOf m).words ∧ s.wordMark (memOf m) w = .clean) ∧
     (let m : Fin 6 := 3;
      let w : Nat := 17;
      let s : State :=
        { (up .lathed none).setMark .spine 17 (.correctable 67 15) with memint := ⟨[], [(2, 17), (3, 17), (3, 18)], []⟩ };
      s.memint.writeBacks.find? (fun x => x.1 == (memOf m).code) = some ((memOf m).code, w)) ∧
     (let m : Fin 6 := 3;
      let w : BitVec 20 := 40959;
      let errs : List (Fin 68 × BitVec 4) := [(67, 9)];
      let a : Fin 68 := 67;
      let b : Fin 68 := 0;
      let e : BitVec 4 := 9;
      let f : BitVec 4 := 1;
      let s : State := up .lathed none;
      w.toNat < (memOf m).words ∧ s.domain (memOf m).domain ≠ .off ∧ s.wordMark (memOf m) w.toNat = .clean ∧
        ((memOf m).code, w.toNat) ∉ s.memint.writeBacks ∧ e ≠ 0 ∧ f ≠ 0 ∧ a ≠ b ∧ (errs = [(a, e)] ∨ errs = [(a,
        e), (b, f)])) ∧
     (let m : Fin 6 := 3;
      let w : BitVec 20 := 40959;
      let errs : List (Fin 68 × BitVec 4) := [(67, 9), (0, 1)];
      let a : Fin 68 := 67;
      let b : Fin 68 := 0;
      let e : BitVec 4 := 9;
      let f : BitVec 4 := 1;
      let s : State := up .lathed none;
      w.toNat < (memOf m).words ∧ s.domain (memOf m).domain ≠ .off ∧ s.wordMark (memOf m) w.toNat = .clean ∧
        ((memOf m).code, w.toNat) ∉ s.memint.writeBacks ∧ e ≠ 0 ∧ f ≠ 0 ∧ a ≠ b ∧ (errs = [(a, e)] ∨ errs = [(a,
        e), (b, f)])) ∧
     (let m : Fin 6 := 3;
      let w : BitVec 20 := 40959;
      w.toNat < (memOf m).words) := by
  iterate 6 refine And.intro (by decide +kernel) ?_
  decide +kernel

theorem witness_HodChannelsMoveData :
     (let p : Port := .pcie;
      let k : Fin 16 := 3;
      let s : State := (up .lathed (some .installer)).results [3, 0x12340040, 0x10000001];
      s.ready p ∧ s.dev ≠ .lightHold ∧ s.dev ≠ .maker ∧ RoleRule.permits .both s.dev (s.session p).role = true ∧
        s.argW 0 = k ∧ s.hodOwner k = .host ∧ s.hodList % 64 = 0 ∧ hodSpace s.hodList ≤ 1 ∧ s.deferred 8 = false) ∧
     (let p : Port := .pcie;
      let k : Fin 16 := 3;
      let s : State := ((up .lathed (some .installer)).results [3, 0x12340040, 0x10000001]).setF (Reg.chStatusState
        3) 2;
      s.ready p ∧ s.dev ≠ .lightHold ∧ s.dev ≠ .maker ∧ RoleRule.permits .both s.dev (s.session p).role = true ∧
        s.argW 0 = k ∧ s.hodOwner k = .host ∧ s.hodList % 64 = 0 ∧ hodSpace s.hodList ≤ 1 ∧ s.deferred 8 = false) ∧
     (let p : Port := .pcie;
      let k : Fin 16 := 3;
      let s : State := (((up .lathed (some .installer)).results [3]).setF (Reg.chStatusState 3) 1).setHod 3 fun _
        => ⟨some (List.replicate 64 0), none, 0x1000, 0⟩;
      s.ready p ∧ s.dev ≠ .lightHold ∧ s.dev ≠ .maker ∧ RoleRule.permits .both s.dev (s.session p).role = true ∧
        s.argW 0 = k ∧ s.hodOwner k = .host ∧ hodSpace (s.hodAddr k + 4) = 0) ∧
     (let p : Port := .pcie;
      let k : Fin 16 := 3;
      let s : State := (up .lathed (some .installer)).results [3];
      s.ready p ∧ s.dev ≠ .lightHold ∧ s.dev ≠ .maker ∧ RoleRule.permits .both s.dev (s.session p).role = true ∧
        s.argW 0 = k ∧ s.hodOwner k = .host ∧ hodSpace (s.hodAddr k + 4) = 0) ∧
     (let k : Fin 16 := 3;
      let host : BitVec 512 := 1 + 0x2000 * 2 ^ 128 + 0x1000000000000040 * 2 ^ 192 + 3 * 2 ^ 256;
      let d : HodDesc := hodDescOf (leBytes 64 (1 + 0x2000 * 2 ^ 128 + 0x1000000000000040 * 2 ^ 192 + 3 * 2 ^
        256));
      let s : State := ((up .lathed none).setF (Reg.chStatusState 3) 1).hodAt 3 0x1000;
      s.hodRuns = true ∧ s.getF (Reg.chStatusState k) = 1 ∧ (s.hodChan k).desc = none ∧ hodSpace (s.hodAddr k) =
        0 ∧ hodListOk (s.hodOwner k) (s.hodAddr k) = true ∧ s.covers 8 4 2 = true ∧ d = hodDescOf (leBytes 64
        host.toNat)) ∧
     (let k : Fin 16 := 3;
      let host : BitVec 512 := 0;
      let d : HodDesc := hodDescOf (leBytes 64 0);
      let s : State := ((up .lathed none).setF (Reg.chStatusState 3) 1).hodAt 3 0x1000;
      s.hodRuns = true ∧ s.getF (Reg.chStatusState k) = 1 ∧ (s.hodChan k).desc = none ∧ hodSpace (s.hodAddr k) =
        0 ∧ hodListOk (s.hodOwner k) (s.hodAddr k) = true ∧ s.covers 8 4 2 = true ∧ d = hodDescOf (leBytes 64
        host.toNat)) ∧
     (let k : Fin 16 := 3;
      let host : BitVec 512 := 129;
      let d : HodDesc := hodDescOf (leBytes 64 129);
      let s : State := ((up .lathed none).setF (Reg.chStatusState 3) 1).hodAt 3 0x1000;
      s.hodRuns = true ∧ s.getF (Reg.chStatusState k) = 1 ∧ (s.hodChan k).desc = none ∧ hodSpace (s.hodAddr k) =
        0 ∧ hodListOk (s.hodOwner k) (s.hodAddr k) = true ∧ s.covers 8 4 2 = true ∧ d = hodDescOf (leBytes 64
        host.toNat)) ∧
     (let k : Fin 16 := 3;
      let host : List (Byte × Bool) := [(1, false), (2, false), (3, false)];
      let bytes : List Byte := leBytes 64 (3 + 0x2000 * 2 ^ 128 + 0x1000000000000041 * 2 ^ 192 + 3 * 2 ^ 256);
      let d : HodDesc := hodDescOf (leBytes 64 (3 + 0x2000 * 2 ^ 128 + 0x1000000000000041 * 2 ^ 192 + 3 * 2 ^
        256));
      let s : State := (((up .lathed none).setF (Reg.chStatusState 3) 1).hodAt 3 0x1000).setHod 3 fun c =>
        { c with desc := some (leBytes 64 (3 + 0x2000 * 2 ^ 128 + 0x1000000000000041 * 2 ^ 192 + 3 * 2 ^ 256)) };
      s.hodRuns = true ∧ s.getF (Reg.chStatusState k) = 1 ∧ (s.hodChan k).desc = some bytes ∧ d = hodDescOf
        bytes ∧ d.mode = 0 ∧ hodSpace d.src = 0 ∧ hodSpace d.dst = 1 ∧ host.length = d.length ∧ (∀ x ∈ host, x.2 =
        false) ∧ s.covers 8 4 (hodCycles d + 2) = true ∧ s.cleanAt .capture (hodOffset d.dst) d.length ∧ hodSpace
        (s.hodAddr k) = 0 ∧ hodSpace (s.hodAddr k + 4) = 0) ∧
     (let k : Fin 16 := 3;
      let host : List (Byte × Bool) := [(1, false), (2, false), (3, false)];
      let bytes : List Byte := leBytes 64 (5 + 0x5000 * 2 ^ 64 + 0x2000 * 2 ^ 128 + 0x1000000000000041 * 2 ^ 192
        + 3 * 2 ^ 256);
      let d : HodDesc := hodDescOf (leBytes 64 (5 + 0x5000 * 2 ^ 64 + 0x2000 * 2 ^ 128 + 0x1000000000000041 * 2
        ^ 192 + 3 * 2 ^ 256));
      let s : State := (((up .lathed none).setF (Reg.chStatusState 3) 1).hodAt 3 0x1000).setHod 3 fun c =>
        { c with desc := some (leBytes 64 (5 + 0x5000 * 2 ^ 64 + 0x2000 * 2 ^ 128 + 0x1000000000000041 * 2 ^ 192 + 3 * 2 ^ 256)) };
      s.hodRuns = true ∧ s.getF (Reg.chStatusState k) = 1 ∧ (s.hodChan k).desc = some bytes ∧ d = hodDescOf
        bytes ∧ d.mode = 0 ∧ hodSpace d.src = 0 ∧ hodSpace d.dst = 1 ∧ host.length = d.length ∧ (∀ x ∈ host, x.2 =
        false) ∧ s.covers 8 4 (hodCycles d + 2) = true ∧ s.cleanAt .capture (hodOffset d.dst) d.length ∧ hodSpace
        (s.hodAddr k) = 0 ∧ hodSpace (s.hodAddr k + 4) = 0) ∧
     (let k : Fin 16 := 3;
      let s : State := (((up .lathed none).setF (Reg.chStatusState 3) 1).hodAt 3 0x1000).setHod 3 fun c =>
        { c with desc := some (leBytes 64 (3 + 0x2000 * 2 ^ 128 + 0x1000000000000041 * 2 ^ 192 + 3 * 2 ^ 256)) };
      s.hodRuns = true ∧ s.getF (Reg.chStatusState k) ≠ 0) ∧
     (let k : Fin 16 := 3;
      let s : State := ((up .lathed none).setF (Reg.chStatusState 3) 2).hodAt 3 0x1000;
      s.hodRuns = true ∧ s.getF (Reg.chStatusState k) ≠ 0) := by
  iterate 10 refine And.intro (by decide +kernel) ?_
  decide +kernel

end Sys2Proof.Tests
end

section
/-! The two steps of the air interface: FRET_BOUNDARY (R17, R381) and SYMBOL_START (R18, R143, R214). -/

namespace Sys2Proof.Proofs.AirSteps

open Sys2Proof Sys2Proof.Machine Sys2Proof.Laws

variable (s : State)

/-! ## Steps with an effect -/

/-- The state in which a step's effect begins: the outputs of the step before are gone. -/
abbrev silent : State := { s with out := .empty }

/-- The next state of a step whose effect is `f`. -/
def after (f : State → State) : State := { settle (f (silent s)) with pending := s.pending }

theorem exec_fretBoundary (peaks : List (Fin 64 × Byte)) (far : List (Fin 4)) :
    exec (.fretBoundary peaks far) s =
      .next (after s fun s => s.fretBoundary (peaks.map fun x => (x.1.val, x.2.toNat)) (far.map Fin.val)) := rfl

theorem exec_symbolStart (d : Fin 2) (c : Fin 4) (runs : List TxRun) (before ended : List RxRun) :
    exec (.symbolStart d c runs before ended) s =
      .next (after s (State.symbolStart d.val c.val runs before ended)) := rfl

section
variable (f : State → State)

@[simp] theorem after_phase : (after s f).phase = (f (silent s)).phase := settle_phase (f (silent s))
@[simp] theorem after_dev : (after s f).dev = (f (silent s)).dev := settle_dev (f (silent s))
@[simp] theorem after_journal : (after s f).journal = (f (silent s)).journal := settle_journal (f (silent s))
@[simp] theorem after_spectral : (after s f).spectral = (f (silent s)).spectral := settle_spectral (f (silent s))
@[simp] theorem after_drone : (after s f).drone = (f (silent s)).drone := settle_drone (f (silent s))
@[simp] theorem after_mem (m : MemId) : (after s f).mem m = (f (silent s)).mem m := by
  cases m <;> simp [after, State.mem]
@[simp] theorem after_role (p : Port) : ((after s f).session p).role = ((f (silent s)).session p).role := by
  cases p
  · exact settle_role (f (silent s)) .pcie
  · exact settle_role (f (silent s)) .qspi

theorem after_getF {x : Fld} (h : settled true x = false) : (after s f).getF x = (f (silent s)).getF x :=
  settle_getF (f (silent s)) h

end

/-- A field that settling writes follows other state. -/
theorem settled_of_not_follows {x : Fld} (h : x.follows = false) : settled true x = false := by
  simp only [Fld.follows, Bool.or_eq_false_iff, List.any_cons, List.any_nil] at h
  simp only [settled, Bool.or_eq_false_iff, List.any_cons, List.any_nil, Bool.true_and]
  obtain ⟨paths, arg0, arg1, code, running, seq, -, -, status, -⟩ := h
  exact ⟨paths, arg0, arg1, code, running, seq, status, trivial⟩

/-- A step without an effect changes no register, memory, role or engine. -/
theorem after_id_onlyRegs {f : State → State} (h : f (silent s) = silent s) :
    s.onlyRegs (after s f) [] := by
  refine ⟨fun x hx _ => ?_, fun m => ?_, fun p => ?_, ?_⟩
  · rw [after_getF _ _ (settled_of_not_follows hx), h]
    rfl
  · rw [after_mem, h]
    cases m <;> rfl
  · rw [after_role, h]
    cases p <;> rfl
  · simp only [State.sameEngines, after, h]
    simp
/-! ## What the work of a symbol leaves -/

/-- Device state, journal and sessions, which no symbol's work touches. -/
def standing : DevState × Journal × Session × Session := (s.dev, s.journal, s.pcie, s.qspi)

theorem standing_steady : Steady standing := by constructor <;> intros <;> rfl

@[simp] theorem standing_setF (f : Fld) (v : Nat) : standing (s.setF f v) = standing s := rfl
@[simp] theorem standing_setFlag (f : Fld) (b : Bool) : standing (s.setFlag f b) = standing s := rfl
@[simp] theorem standing_addSat (f : Fld) (n : Nat) : standing (s.addSat f n) = standing s := rfl
@[simp] theorem standing_addWrap (f : Fld) (n : Nat) : standing (s.addWrap f n) = standing s := rfl
@[simp] theorem standing_budget (x : BudgetState) : standing { s with budget := x } = standing s := by
  simp only [standing]
@[simp] theorem standing_spectral (x : SpectralState) : standing { s with spectral := x } = standing s := by
  simp only [standing]
@[simp] theorem standing_raise (n : Nat) : standing (s.raise n) = standing s :=
  raise_frame s standing (fun _ _ _ => rfl) (fun _ _ => rfl) n
@[simp] theorem standing_setMem (m : MemId) (x : CodedMem) : standing (s.setMem m x) = standing s := by
  cases m <;> rfl
@[simp] theorem standing_readWord (m : MemId) (w : Nat) (r : Requester) (q : Bool) :
    standing (s.readWord m w r q).1 = standing s := standing_steady.readWord m w r q s
@[simp] theorem standing_writeBytes (m : MemId) (r : Requester) (a : Nat) (d : List Byte) :
    standing (s.writeBytes m r a d) = standing s :=
  standing_steady.writeBytes (fun s x => standing_setMem s m x) r a d s
@[simp] theorem standing_writeWhole (m : MemId) (w : Nat) (d : List Byte) :
    standing (s.writeWhole m w d) = standing s := by
  simp only [State.writeWhole, State.setMark, standing_setMem]
  rfl
@[simp] theorem standing_exhaust (c : Nat) : standing (s.exhaust c) = standing s := by
  simp only [standing, exhaust_dev, exhaust_journal]
  exact congrArg (fun x => (s.dev, s.journal, x)) (Prod.ext (exhaust_session s c .pcie) (exhaust_session s c .qspi))

/-! ### Grains -/

@[simp] theorem standing_arbitrate (r n : Nat) : standing (s.arbitrate r n) = standing s := by
  simp [State.arbitrate]
@[simp] theorem standing_charge (c r n : Nat) : standing (s.charge c r n) = standing s := by
  simp [State.charge]
@[simp] theorem standing_grant (c r n : Nat) : standing (s.grant c r n) = standing s := by
  simp only [State.grant]
  split
  · rfl
  · rw [standing_budget, standing_charge, standing_arbitrate]
@[simp] theorem standing_grantRest (c r n : Nat) : standing (s.grantRest c r n) = standing s := by
  simp [State.grantRest]
@[simp] theorem standing_grantPart (c r n : Nat) : standing (s.grantPart c r n) = standing s := by
  simp only [State.grantPart]
  split <;> simp
@[simp] theorem standing_ask (c r n : Nat) : standing (s.ask c r n).1 = standing s := by
  simp only [State.ask]
  split
  · exact standing_grantRest ..
  · exact standing_grantPart ..

/-! ### Layers and their stencils -/

@[simp] theorem standing_setLayer (slot : Nat) (f : LayerState → LayerState) :
    standing (s.setLayer slot f) = standing s := rfl
@[simp] theorem standing_freezeLatches (slot : Nat) : standing (s.freezeLatches slot) = standing s := rfl
@[simp] theorem standing_writeLine (n : Nat) (w : List Weight) : standing (s.writeLine n w) = standing s := by
  simp only [State.writeLine]
  split
  · rfl
  · exact standing_writeBytes ..
@[simp] theorem standing_captureFade (slot : Nat) : standing (s.captureFade slot) = standing s :=
  (each_frame standing _ (fun s _ => standing_writeLine s _ _) _ _).trans (standing_freezeLatches s slot)
@[simp] theorem standing_fadeDone (slot : Nat) : standing (s.fadeDone slot) = standing s := by
  simp only [State.fadeDone]
  split <;> simp
@[simp] theorem standing_showFade (slot : Nat) : standing (s.showFade slot) = standing s := by
  simp only [State.showFade]
  split <;> simp
@[simp] theorem standing_fadeStep (slot : Nat) : standing (s.fadeStep slot) = standing s := by
  simp only [State.fadeStep]
  split
  · split <;> simp
  · simp
@[simp] theorem standing_selectTakes (slot : Nat) (x : Select) : standing (s.selectTakes slot x) = standing s := by
  simp only [State.selectTakes]
  split
  · simp
  · split <;> simp
@[simp] theorem standing_layerSymbol (slot : Nat) : standing (s.layerSymbol slot) = standing s := by
  simp only [State.layerSymbol]
  split
  · simp
  · split <;> simp
@[simp] theorem standing_engineReads (d c : Nat) : standing (s.engineReads d c) = standing s := by
  simp only [State.engineReads]
  split
  · rfl
  · refine each_frame standing _ (fun s m => ?_) _ s
    split
    · exact standing_readWord ..
    · rfl

/-! ### Uplink symbols -/

@[simp] theorem standing_pendLine (n k : Nat) : standing (s.pendLine n k) = standing s := rfl
theorem standing_ringWords (base len : Nat) (l : List (List Byte)) : ∀ (start : Nat) (s : State),
    standing (s.ringWords base len start l) = standing s := by
  induction l with
  | nil => exact fun _ _ => rfl
  | cons w t ih => exact fun start s => (ih _ _).trans (standing_writeWhole ..)
@[simp] theorem standing_scanSymbol (x : SymLatch) (prbs mask : Nat) (l : List Nat) :
    standing (s.scanSymbol x prbs mask l) = standing s := by
  simp only [State.scanSymbol]
  split
  · rfl
  · simp [standing_ringWords]
@[simp] theorem standing_scanRead : standing s.scanRead = standing s := by
  simp only [State.scanRead]
  split
  · rfl
  · split
    · simp
    · simp
@[simp] theorem standing_scanEnds (c : Nat) (y : SymLatch) (l : List (List Sample)) :
    standing (s.scanEnds c y l) = standing s := by
  simp only [State.scanEnds]
  split
  case h_2 => rfl
  case h_1 x _ =>
    split
    · rfl
    · have lines (k : List Nat) (t : State) : standing (t.each k fun s n => s.pendLine n 3) = standing t :=
        each_frame standing _ (fun s n => standing_pendLine s n 3) k t
      split
      · exact (lines ..).trans (standing_scanSymbol ..)
      · exact (standing_scanRead _).trans ((lines ..).trans (standing_scanSymbol ..))
@[simp] theorem standing_pilotCopy (x : PilotCopy) : standing (s.pilotCopy x) = standing s := by
  simp only [State.pilotCopy]
  split
  · rfl
  · split
    · exact standing_ask ..
    · exact (each_frame standing _ (fun s _ => standing_writeWhole s _ _ _) _ _).trans (standing_ask ..)
@[simp] theorem standing_pilotCopies (c : Nat) (y : SymLatch) (l : List (List Sample)) :
    standing (s.pilotCopies c y l) = standing s := by
  simp only [State.pilotCopies]
  split
  · rfl
  · exact each_frame standing _ standing_pilotCopy _ s
@[simp] theorem standing_countExcluded (c : Nat) (y : SymLatch) : standing (s.countExcluded c y) = standing s := by
  simp only [State.countExcluded]
  split
  · rfl
  · refine each_frame standing _ (fun s p => ?_) _ s
    split <;> rfl
@[simp] theorem standing_rxEnded (c : Nat) (y : SymLatch) (runs : List RxRun) :
    standing (s.rxEnded c y runs) = standing s := by
  refine (standing_countExcluded ..).trans ?_
  simp only [State.when]
  split
  · split <;> simp
  · rfl
@[simp] theorem standing_scanLatch (c : Nat) : standing (s.scanLatch c) = standing s := rfl

/-- The symbol that starts is latched first, from the present path sample on. -/
theorem rxSymbol_latches (c : Nat) (y : SymbolAt) (before ended : List RxRun) :
    (mapGet [] c (s.rxSymbol c y before ended).spectral.latched).head?.map SymLatch.start =
      some (s.rxSymbol c y before ended).pathSample := by
  simp only [State.rxSymbol, mapGet_mapSet_same]
  rfl

@[simp] theorem standing_rxSymbol (c : Nat) (y : SymbolAt) (before ended : List RxRun) :
    standing (s.rxSymbol c y before ended) = standing s := by
  have worked (l : List SymLatch) (r : List RxRun) (t : State) :
      standing (t.each l fun s x => s.rxEnded c x r) = standing t :=
    each_frame standing _ (fun s x => standing_rxEnded s c x r) l t
  simp only [State.rxSymbol]
  refine (standing_scanLatch _ c).trans ?_
  split
  · split
    · exact worked ..
    · exact (worked ..).trans (worked ..)
  · exact (worked ..).trans (worked ..)

/-! ### Parts of the state beside the work of the transmit chains -/

/-- A part of the state that writes to the fields of `w` leave, and with them what passing time and the transmit chains
change beside registers. -/
structure Beside (w : Fld → Prop) {β : Type} (g : State → β) : Prop where
  set : ∀ (s : State) f v, w f → g (s.setF f v) = g s
  events : ∀ (s : State) x, g { s with events := x } = g s
  tx : ∀ (s : State) x, g { s with tx := x } = g s
  out : ∀ (s : State) x, g { s with out := x } = g s
  time : ∀ (s : State) d t, g { s with drone := d, time := t } = g s
  doze : ∀ (s : State) x, g { s with doze := x } = g s
  fh : ∀ (s : State) x, g { s with fh := x } = g s
  spectral : ∀ (s : State) x, g { s with spectral := x } = g s

/-- What stands, and the memories. -/
def still : (DevState × Journal × Session × Session) × (MemId → CodedMem) := (standing s, s.mem)

theorem beside_still (w : Fld → Prop) : Beside w still := by
  constructor <;> intros <;> simp only [still, standing] <;> rfl

/-- A field that is not of `w` stays. -/
theorem beside_getF {w : Fld → Prop} {f : Fld} (h : ∀ x, w x → f.key ≠ x.key) : Beside w fun s => s.getF f := by
  constructor
  case set => exact fun s x v hx => getF_setF_ne s (h x hx) v
  all_goals intros; rfl

/-- The counts and sticky flags of a path that passing time and its transmit chain write (R130, R145, R146). -/
def pathCounts (p : Nat) : List Fld :=
  [Reg.rxInvalidSamplesCount p, Reg.txSatCountCount p, Reg.txStatusSaturated p, Reg.txCfrCountCancelled p,
    Reg.txCfrCountResidual p, Reg.txStatusCfrResidual p]

/-- A field is one of a path's counts. -/
def Counted (f : Fld) : Prop := ∃ p < 64, f ∈ pathCounts p

section
variable {β : Type} {g : State → β}

theorem Beside.addSat {w : Fld → Prop} (a : Beside w g) {f : Fld} (h : w f) (n : Nat) (s : State) :
    g (s.addSat f n) = g s := a.set s f _ h

theorem Beside.countInvalid (a : Beside Counted g) (x y : Nat) (s : State) : g (s.countInvalid x y) = g s := by
  simp only [State.countInvalid]
  split
  · rfl
  · refine each_frame_mem g _ _ (fun p hp s => ?_) s
    split
    · exact a.addSat ⟨p, List.mem_range.mp hp, by simp [pathCounts]⟩ ..
    · rfl

theorem Beside.passTo (a : Beside Counted g) (ns : Nat) (s : State) : g (s.passTo ns) = g s := by
  simp only [State.passTo, State.passTicks]
  rw [a.time]
  simp only [State.when]
  split
  · exact a.countInvalid ..
  · rfl

theorem Beside.countSaturated (a : Beside Counted g) {p : Nat} (hp : p < 64) (n : Nat) (s : State) :
    g (s.countSaturated p n) = g s := by
  simp only [State.countSaturated]
  split
  · rfl
  · rw [a.set _ _ _ ⟨p, hp, by simp [pathCounts]⟩, a.addSat ⟨p, hp, by simp [pathCounts]⟩]

theorem Beside.txRun (a : Beside Counted g) (r : TxRun) (s : State) : g (s.txRun r) = g s := by
  have hp := r.path.isLt
  have cancelled : Counted (Reg.txCfrCountCancelled r.path) := ⟨_, hp, by simp [pathCounts]⟩
  have residual : Counted (Reg.txCfrCountResidual r.path) := ⟨_, hp, by simp [pathCounts]⟩
  have sticky : Counted (Reg.txStatusCfrResidual r.path) := ⟨_, hp, by simp [pathCounts]⟩
  have cfr (t : State) (x y : Nat) : g (((t.addSat (Reg.txCfrCountCancelled r.path) x).addSat
      (Reg.txCfrCountResidual r.path) y).when (0 < y) fun s => s.setF (Reg.txStatusCfrResidual r.path) 1) = g t := by
    simp only [State.when]
    split
    · rw [a.set _ _ _ sticky, a.addSat residual, a.addSat cancelled]
    · rw [a.addSat residual, a.addSat cancelled]
  simp only [State.txRun]
  split
  · rfl
  · split
    · rw [cfr, a.countSaturated hp, a.tx]
    · rw [a.out, cfr, a.countSaturated hp, a.tx]

end

/-! ### Path-wide transmit settings take effect (R143) -/

/-- The fields that a bank switch of a path writes, event status 1 among them (R153). -/
def pathSwitched (p : Nat) : List Fld :=
  [Reg.txDpdBankActive p, Reg.txDpdPending p, Reg.txDpdSwitches p, Reg.txStatusDpdSwitched p, Reg.evStatus 1]

/-- The fields that a path's settings write as they take effect. -/
def pathApplied (p : Nat) : List Fld := Reg.txAttenAttenActive p :: Reg.txCfrPulseActive p :: pathSwitched p

section
variable {β : Type} {g : State → β} {p : Nat}

theorem Beside.mono {w v : Fld → Prop} (a : Beside w g) (h : ∀ f, v f → w f) : Beside v g :=
  { a with set := fun s f x hf => a.set s f x (h f hf) }

theorem Beside.switchBank (a : Beside (· ∈ pathSwitched p) g) (s : State) : g (s.switchBank p) = g s := by
  simp only [State.switchBank, State.addWrap]
  split
  · rfl
  · have raised (t : State) : g (t.raise 39) = g t := by
      simp only [State.raise]
      rw [a.events]
      split
      · rfl
      · exact a.set _ _ _ (by simp [pathSwitched])
    have set {f : Fld} (hf : f ∈ pathSwitched p) (t : State) (v : Nat) : g (t.setF f v) = g t := a.set t f v hf
    rw [raised, set (by simp [pathSwitched]), set (by simp [pathSwitched]), set (by simp [pathSwitched]),
      set (by simp [pathSwitched])]

theorem Beside.forced {w : Fld → Prop} (a : Beside w g) (l : List Fld) (s : State) :
    g (l.foldl State.force s) = g s :=
  each_frame g State.force (fun s _ => a.tx s _) l s

theorem Beside.applyTx (a : Beside (· ∈ pathApplied p) g) (s : State) : g (s.applyTx p) = g s := by
  simp only [State.applyTx]
  have switched := a.mono fun f (hf : f ∈ pathSwitched p) => List.mem_cons_of_mem _ (List.mem_cons_of_mem _ hf)
  rw [switched.switchBank, a.forced, a.set _ _ _ (by simp [pathApplied]), a.set _ _ _ (by simp [pathApplied])]

end

/-- The fields of a path that tell which pulse set and DPD bank it goes by, and which are asked for. -/
def pathChoice (p : Nat) : List Fld :=
  [Reg.txCfrPulseSel p, Reg.txCfrPulseActive p, Reg.txDpdReqBank p, Reg.txDpdBankActive p, Reg.txDpdPending p,
    Reg.txDpdSwitches p]

/-- In `t` path `p` goes by what it asked for in `s`: the requested pulse set, and where a bank switch was pending the
requested bank, with the switch counted and told (R143, R153). -/
def Took (s t : State) (p : Nat) : Prop :=
  t.getF (Reg.txCfrPulseActive p) = s.getF (Reg.txCfrPulseSel p) % 2 ∧ t.getF (Reg.txDpdPending p) ≠ 1 ∧
    (s.getF (Reg.txDpdPending p) = 1 → t.getF (Reg.txDpdBankActive p) = s.getF (Reg.txDpdReqBank p) % 2 ∧
      t.getF (Reg.txDpdSwitches p) = (s.getF (Reg.txDpdSwitches p) + 1) % 65536 ∧ t.event 39)

/-- What took effect depends on the path's own fields and the event alone. -/
theorem Took.of_same {s t s' t' : State} {p : Nat} (h : Took s t p) (hs : ∀ f ∈ pathChoice p, s'.getF f = s.getF f)
    (ht : ∀ f ∈ pathChoice p, t'.getF f = t.getF f) (he : t.event 39 → t'.event 39) : Took s' t' p := by
  obtain ⟨hpulse, hpending, hbank⟩ := h
  refine ⟨?_, ?_, fun h => ?_⟩
  · rw [ht _ (by simp [pathChoice]), hs _ (by simp [pathChoice]), hpulse]
  · rwa [ht _ (by simp [pathChoice])]
  · obtain ⟨hb, hc, hev⟩ := hbank (by rwa [hs _ (by simp [pathChoice])] at h)
    rw [ht _ (by simp [pathChoice]), hs _ (by simp [pathChoice]), ht _ (by simp [pathChoice]),
      hs _ (by simp [pathChoice])]
    exact ⟨hb, hc, he hev⟩

/-- The fields that a bank switch writes are apart. -/
theorem switchFields_ne (p : Nat) :
    (Reg.txDpdPending p).key ≠ (Reg.txStatusDpdSwitched p).key ∧
      (Reg.txDpdPending p).key ≠ (Reg.txDpdSwitches p).key ∧
      (Reg.txDpdBankActive p).key ≠ (Reg.txStatusDpdSwitched p).key ∧
      (Reg.txDpdBankActive p).key ≠ (Reg.txDpdSwitches p).key ∧
      (Reg.txDpdBankActive p).key ≠ (Reg.txDpdPending p).key ∧
      (Reg.txDpdSwitches p).key ≠ (Reg.txStatusDpdSwitched p).key ∧
      (Reg.txDpdSwitches p).key ≠ (Reg.txDpdPending p).key ∧
      (Reg.txDpdSwitches p).key ≠ (Reg.txDpdBankActive p).key := by
  simp only [Fld.key, Reg.txDpdPending, Reg.txDpdBankActive, Reg.txDpdSwitches, Reg.txStatusDpdSwitched]
  omega

/-- A pending switch makes the requested bank active, counts and is told (R153). -/
theorem switchBank_pending {p : Nat} (h : s.getF (Reg.txDpdPending p) = 1) :
    (s.switchBank p).getF (Reg.txDpdPending p) = 0 ∧
      (s.switchBank p).getF (Reg.txDpdBankActive p) = s.getF (Reg.txDpdReqBank p) % 2 ∧
      (s.switchBank p).getF (Reg.txDpdSwitches p) = (s.getF (Reg.txDpdSwitches p) + 1) % 65536 ∧
      (s.switchBank p).event 39 := by
  have hp : s.flag (Reg.txDpdPending p) = true := by simp [State.flag, h]
  have low {x : Fld} (hx : 0x400000 ≤ x.addr) : x.key ≠ (Reg.evStatus (39 / 32)).key := by
    simp only [Fld.key, Reg.evStatus]
    omega
  obtain ⟨pendingTold, pendingCount, bankTold, bankCount, bankPending, countTold, countPending, countBank⟩ :=
    switchFields_ne p
  simp only [State.switchBank, hp, Bool.not_true, Bool.false_eq_true, if_false, State.addWrap]
  refine ⟨?_, ?_, ?_, raise_status _ 39⟩ <;>
    rw [raise_getF _ _ (low (by simp [Reg.txDpdPending, Reg.txDpdBankActive, Reg.txDpdSwitches]; omega))]
  · rw [getF_setF_ne _ pendingTold, getF_setF_ne _ pendingCount, getF_setF_same]
    rfl
  · rw [getF_setF_ne _ bankTold, getF_setF_ne _ bankCount, getF_setF_ne _ bankPending, getF_setF_same]
    rfl
  · rw [getF_setF_ne _ countTold, getF_setF_same, getF_setF_ne _ countPending, getF_setF_ne _ countBank]
    rfl

theorem switchBank_idle {p : Nat} (h : s.getF (Reg.txDpdPending p) ≠ 1) : s.switchBank p = s := by
  simp [State.switchBank, State.flag, h]

/-- A path as its bank may switch: attenuation, pulse set and enables have taken effect. -/
def beforeSwitch (p : Nat) : State :=
  [Reg.txCfrThreshold p, Reg.txCfrStages p, Reg.txCtrlCfrEn p, Reg.txCtrlDpdEn p].foldl State.force
    ((s.setF (Reg.txAttenAttenActive p) (s.attenTarget p)).setF (Reg.txCfrPulseActive p)
      ((s.setF (Reg.txAttenAttenActive p) (s.attenTarget p)).getF (Reg.txCfrPulseSel p)))

theorem applyTx_eq (p : Nat) : s.applyTx p = (beforeSwitch s p).switchBank p := rfl

theorem beforeSwitch_getF {f : Fld} {p : Nat} (ha : f.key ≠ (Reg.txAttenAttenActive p).key)
    (hp : f.key ≠ (Reg.txCfrPulseActive p).key) : (beforeSwitch s p).getF f = s.getF f := by
  have none_forced : Beside (fun _ => False) fun s => s.getF f := beside_getF fun _ h => h.elim
  exact (none_forced.forced _ _).trans ((getF_setF_ne _ hp _).trans (getF_setF_ne _ ha _))

theorem beforeSwitch_pulse (p : Nat) :
    (beforeSwitch s p).getF (Reg.txCfrPulseActive p) = s.getF (Reg.txCfrPulseSel p) % 2 := by
  have ne : (Reg.txCfrPulseSel p).key ≠ (Reg.txAttenAttenActive p).key := by
    simp only [Fld.key, Reg.txCfrPulseSel, Reg.txAttenAttenActive]
    omega
  have none_forced : Beside (fun _ => False) fun s => s.getF (Reg.txCfrPulseActive p) := beside_getF fun _ h => h.elim
  refine (none_forced.forced _ _).trans ?_
  rw [getF_setF_same, getF_setF_ne _ ne]
  rfl

/-- A path's settings take effect on the path itself (R143). -/
theorem applyTx_took (p : Nat) : Took s (s.applyTx p) p := by
  have kept {f : Fld} (hf : f ∈ [Reg.txDpdPending p, Reg.txDpdReqBank p, Reg.txDpdSwitches p]) :
      (beforeSwitch s p).getF f = s.getF f := by
    simp only [List.mem_cons, List.not_mem_nil, or_false] at hf
    refine beforeSwitch_getF s ?_ ?_ <;> rcases hf with rfl | rfl | rfl <;>
      simp only [Fld.key, Reg.txDpdPending, Reg.txDpdReqBank, Reg.txDpdSwitches, Reg.txAttenAttenActive,
        Reg.txCfrPulseActive] <;> omega
  have unswitched : Beside (· ∈ pathSwitched p) fun s => s.getF (Reg.txCfrPulseActive p) := by
    refine beside_getF fun x hx => ?_
    simp only [pathSwitched, List.mem_cons, List.not_mem_nil, or_false] at hx
    rcases hx with rfl | rfl | rfl | rfl | rfl <;>
      simp only [Fld.key, Reg.txCfrPulseActive, Reg.txDpdBankActive, Reg.txDpdPending, Reg.txDpdSwitches,
        Reg.txStatusDpdSwitched, Reg.evStatus] <;> omega
  have pulse : (s.applyTx p).getF (Reg.txCfrPulseActive p) = s.getF (Reg.txCfrPulseSel p) % 2 :=
    (unswitched.switchBank _).trans (beforeSwitch_pulse s p)
  by_cases h : s.getF (Reg.txDpdPending p) = 1
  · obtain ⟨hpending, hbank, hcount, hev⟩ := switchBank_pending (beforeSwitch s p) ((kept (by simp)).trans h)
    rw [kept (by simp)] at hbank hcount
    exact ⟨pulse, by rw [applyTx_eq, hpending]; decide, fun _ => ⟨hbank, hcount, hev⟩⟩
  · refine ⟨pulse, ?_, fun h1 => absurd h1 h⟩
    rwa [applyTx_eq, switchBank_idle _ (by rwa [kept (by simp)]), kept (by simp)]

/-- The choice of a path lies in its TX_CFR and TX_DPD registers. -/
theorem pathChoice_addr {p : Nat} {f : Fld} (h : f ∈ pathChoice p) :
    (f.addr = 0x40010C + p * 0x4000 ∨ f.addr = 0x400110 + p * 0x4000) ∧ f.lo < 32 := by
  simp only [pathChoice, List.mem_cons, List.not_mem_nil, or_false] at h
  rcases h with rfl | rfl | rfl | rfl | rfl | rfl <;>
    simp [Reg.txCfrPulseSel, Reg.txCfrPulseActive, Reg.txDpdReqBank, Reg.txDpdBankActive, Reg.txDpdPending,
      Reg.txDpdSwitches]

/-- The settings of another path leave the choice of a path. -/
theorem applyTx_other {p q : Nat} (hpq : p ≠ q) {f : Fld} (hf : f ∈ pathChoice p) :
    (s.applyTx q).getF f = s.getF f := by
  obtain ⟨hf, hl⟩ := pathChoice_addr hf
  have apart : Beside (· ∈ pathApplied q) fun s => s.getF f := by
    refine beside_getF fun x hx => ?_
    simp only [pathApplied, pathSwitched, List.mem_cons, List.not_mem_nil, or_false] at hx
    rcases hx with rfl | rfl | rfl | rfl | rfl | rfl | rfl <;>
      simp only [Fld.key, Reg.txAttenAttenActive, Reg.txCfrPulseActive, Reg.txDpdBankActive, Reg.txDpdPending,
        Reg.txDpdSwitches, Reg.txStatusDpdSwitched, Reg.evStatus] <;> omega
  exact apart.applyTx s

/-- The event of a bank switch stands until it is cleared. -/
theorem applyTx_event (q : Nat) (h : s.event 39) : (s.applyTx q).event 39 := by
  have before : (beforeSwitch s q).getF (Reg.evStatus (39 / 32)) = s.getF (Reg.evStatus (39 / 32)) := by
    refine beforeSwitch_getF s ?_ ?_ <;>
      simp only [Fld.key, Reg.evStatus, Reg.txAttenAttenActive, Reg.txCfrPulseActive] <;> omega
  rw [applyTx_eq]
  by_cases hp : (beforeSwitch s q).getF (Reg.txDpdPending q) = 1
  · obtain ⟨-, -, -, told⟩ := switchBank_pending _ hp
    exact told
  · rw [switchBank_idle _ hp, State.event, before]
    exact h

/-- Settings of paths without `p` leave its choice and the event. -/
theorem each_applyTx_other {p : Nat} {l : List Nat} (hp : p ∉ l) :
    (∀ f ∈ pathChoice p, (s.each l State.applyTx).getF f = s.getF f) ∧
      (s.event 39 → (s.each l State.applyTx).event 39) := by
  refine ⟨fun f hf => ?_, ?_⟩
  · exact each_frame_mem (·.getF f) _ l (fun q hq s => applyTx_other s (ne_of_mem_of_not_mem hq hp).symm hf) s
  · clear hp
    induction l generalizing s with
    | nil => exact id
    | cons q t ih => exact fun h => ih (s.applyTx q) (applyTx_event s q h)

/-- The settings of every path take effect (R143). -/
theorem applyTxAll_took {p : Nat} (hp : p < 64) : Took s s.applyTxAll p := by
  obtain ⟨a, b, hl⟩ := List.append_of_mem (List.mem_range.mpr hp)
  have hn : (a ++ p :: b).Nodup := hl ▸ List.nodup_range
  have ha : p ∉ a := fun h => (List.nodup_append.mp hn).2.2 p h p (List.mem_cons_self ..) rfl
  have hb : p ∉ b := (List.nodup_cons.mp (List.nodup_append.mp hn).2.1).1
  have split : s.each (List.range 64) State.applyTx = (((s.each a State.applyTx).applyTx p).each b State.applyTx) := by
    rw [hl]
    exact List.foldl_append ..
  obtain ⟨before, -⟩ := each_applyTx_other s ha
  obtain ⟨later, told⟩ := each_applyTx_other ((s.each a State.applyTx).applyTx p) hb
  have took : Took s (s.each (List.range 64) State.applyTx) p := by
    rw [split]
    exact (applyTx_took _ p).of_same (fun f hf => (before f hf).symm) later told
  simp only [State.applyTxAll]
  generalize s.each (List.range 64) State.applyTx = t at took ⊢
  exact took

/-- A field is written as some path's settings take effect. -/
def Applied (f : Fld) : Prop := ∃ p < 64, f ∈ pathApplied p

theorem Beside.applyTxAll {β : Type} {g : State → β} (a : Beside Applied g) : g s.applyTxAll = g s := by
  simp only [State.applyTxAll]
  rw [a.tx]
  exact each_frame_mem g _ _ (fun p hp s => (a.mono fun f hf => ⟨p, List.mem_range.mp hp, hf⟩).applyTx s) s

/-! ### A downlink symbol of the timing carrier in LATHED -/

section
variable {β : Type} {g : State → β} {w : Fld → Prop}

theorem Beside.dpdCapture (a : Beside w g) (s : State) : g s.dpdCapture = g s := by
  simp only [State.dpdCapture]
  split
  · rfl
  · split
    · rfl
    · split
      · rfl
      · exact a.tx s _

/-- What follows the settings at a symbol start of the timing carrier touches no register. -/
theorem Beside.timingStart (a : Beside w g) (s : State) : g s.timingStart = g s.applyTxAll := by
  have started : g s.applyTxAll.closeMutes.dpdCapture.obsStarts = g s.applyTxAll :=
    (a.tx _ _).trans ((a.dpdCapture _).trans (a.tx _ _))
  simp only [State.timingStart]
  split
  · exact (a.doze _ _).trans ((a.tx _ _).trans started)
  · exact (a.tx _ _).trans started

/-- In LATHED no downlink symbol is in progress (R186). -/
theorem Beside.symbolFate (a : Beside w g) {s : State} (hd : s.dev = .lathed) (c ns : Nat) :
    g (s.symbolFate c ns) = g s := by
  have idle : s.symbolFate c ns = { s with tx := { s.tx with dueNow := s.tx.dueNow.filter fun k => k % 4 != c } } := by
    simp [State.symbolFate, State.inService, hd]
  rw [idle]
  exact a.tx s _

/-- The chains have worked through what came before a symbol start of a carrier. -/
def chainsWorked (s : State) (c : Nat) (runs : List TxRun) : State :=
  let s := s.each runs State.txRun
  { s with tx := { s.tx with restarting := s.tx.restarting.filter fun x => x != c } }

theorem Beside.worked (a : Beside Counted g) (s : State) (c : Nat) (runs : List TxRun) :
    g (chainsWorked s c runs) = g s := (a.tx _ _).trans (each_frame g _ (fun s r => a.txRun r s) runs s)

end

theorem dev_of_still {s t : State} (h : still t = still s) : t.dev = s.dev := congrArg (·.1.1) h

/-- The timing carrier goes by the carriers' enables alone. -/
theorem beside_timingCarrier : Beside Counted State.timingCarrier := by
  constructor
  case set =>
    rintro s f v ⟨p, hp, hf⟩
    have enable (c : Nat) : (s.setF f v).getF (Reg.txcCtrlEnable c) = s.getF (Reg.txcCtrlEnable c) := by
      refine getF_setF_ne s ?_ v
      simp only [pathCounts, List.mem_cons, List.not_mem_nil, or_false] at hf
      rcases hf with rfl | rfl | rfl | rfl | rfl | rfl <;>
        simp only [Fld.key, Reg.txcCtrlEnable, Reg.rxInvalidSamplesCount, Reg.txSatCountCount, Reg.txStatusSaturated,
          Reg.txCfrCountCancelled, Reg.txCfrCountResidual, Reg.txStatusCfrResidual] <;> omega
    simp only [State.timingCarrier, State.flag, enable]
  all_goals intros; rfl

/-- In LATHED a symbol start of the timing carrier makes the path-wide settings take effect, and no more (R143). -/
theorem Beside.txSymbol {β : Type} {g : State → β} {w : Fld → Prop} (a : Beside w g) {c : Nat}
    (hd : s.dev = .lathed) (ht : s.timingCarrier = some c) (ns : Nat) (runs : List TxRun) :
    g (s.txSymbol c ns runs) = g (chainsWorked s c runs).applyTxAll := by
  have timing : (chainsWorked s c runs).timingCarrier = some c := (beside_timingCarrier.worked s c runs).trans ht
  have start : s.txSymbol c ns runs = (chainsWorked s c runs).timingStart.symbolFate c ns := by
    rw [chainsWorked] at timing ⊢
    simp only [State.txSymbol, timing, if_true]
  have stands : still (chainsWorked s c runs).timingStart = still s :=
    ((beside_still w).timingStart _).trans (((beside_still _).applyTxAll _).trans ((beside_still _).worked s c runs))
  rw [start, a.symbolFate ((dev_of_still stands).trans hd), a.timingStart]

/-- The enable of a carrier's transform is no field that the chains or the settings write. -/
theorem carEnable_apart (c : Nat) : (∀ x, Counted x → (Reg.carConfigEnable 1 c).key ≠ x.key) ∧
    ∀ x, Applied x → (Reg.carConfigEnable 1 c).key ≠ x.key := by
  constructor <;> rintro x ⟨p, hp, hx⟩ <;>
    simp only [pathCounts, pathApplied, pathSwitched, List.mem_cons, List.not_mem_nil, or_false] at hx
  · rcases hx with rfl | rfl | rfl | rfl | rfl | rfl <;>
      simp only [Fld.key, Reg.carConfigEnable, Reg.rxInvalidSamplesCount, Reg.txSatCountCount, Reg.txStatusSaturated,
        Reg.txCfrCountCancelled, Reg.txCfrCountResidual, Reg.txStatusCfrResidual] <;> omega
  · rcases hx with rfl | rfl | rfl | rfl | rfl | rfl | rfl <;>
      simp only [Fld.key, Reg.carConfigEnable, Reg.txAttenAttenActive, Reg.txCfrPulseActive, Reg.txDpdBankActive,
        Reg.txDpdPending, Reg.txDpdSwitches, Reg.txStatusDpdSwitched, Reg.evStatus] <;> omega

/-- Such a start leaves the device in LATHED, and the carrier without a transform. -/
theorem txSymbol_lathed {c : Nat} (hd : s.dev = .lathed) (ht : s.timingCarrier = some c)
    (he : s.getF (Reg.carConfigEnable 1 c) = 0) (ns : Nat) (runs : List TxRun) :
    (s.txSymbol c ns runs).dev = .lathed ∧ (s.txSymbol c ns runs).flag (Reg.carConfigEnable 1 c) = false := by
  have apart {β : Type} {g : State → β} (a : Beside Counted g) (b : Beside Applied g) :
      g (s.txSymbol c ns runs) = g s :=
    (b.txSymbol s hd ht ns runs).trans ((b.applyTxAll _).trans (a.worked s c runs))
  have enable : (s.txSymbol c ns runs).getF (Reg.carConfigEnable 1 c) = 0 :=
    (apart (beside_getF (carEnable_apart c).1) (beside_getF (carEnable_apart c).2)).trans he
  exact ⟨(dev_of_still (apart (beside_still _) (beside_still _))).trans hd, by rw [State.flag, enable]; rfl⟩

/-- In LATHED no symbol is formed. -/
theorem dlForm_lathed {s : State} (hd : s.dev = .lathed) (c : Nat) (y : SymbolAt) : s.dlForm c y = s := by
  simp [State.dlForm, State.inService, hd]

/-- Without a transform a downlink symbol's start spends the accepted sections alone. -/
theorem Beside.dlSymbolStart {β : Type} {g : State → β} {w : Fld → Prop} (a : Beside w g) {s : State} {c : Nat}
    (h : s.flag (Reg.carConfigEnable 1 c) = false) (ns : Nat) : g (s.dlSymbolStart c ns) = g s := by
  simp only [State.dlSymbolStart, h, Bool.not_false, if_true]
  exact a.fh s _

/-- The state in which the settings of a downlink symbol start take effect: time has come to it, and the chains have
worked through what came before. -/
def atStart (c : Nat) (runs : List TxRun) : State :=
  chainsWorked (s.passTo (max s.nowNs (s.nextSymbol 1 c).ns)) c runs

/-- In LATHED a symbol start of the timing carrier, without a transform, is noted, and what stands beside it is as the
settings leave it. -/
theorem symbolStart_timing {c : Nat} (hs : s.symbolsOf 1 c = true) (hd : s.dev = .lathed)
    (ht : s.timingCarrier = some c) (he : s.getF (Reg.carConfigEnable 1 c) = 0)
    (hf : s.beyondFret (max s.nowNs (s.nextSymbol 1 c).ns) = false) (runs : List TxRun) (before ended : List RxRun) :
    mapGet 0 (4 + c) (s.symbolStart 1 c runs before ended).spectral.symbols = (s.nextSymbol 1 c).ns + 1 ∧
      ∀ {β : Type} {g : State → β} {w : Fld → Prop}, Beside w g →
        g (s.symbolStart 1 c runs before ended) = g (atStart s c runs).applyTxAll := by
  have came := (beside_still _).passTo (max s.nowNs (s.nextSymbol 1 c).ns) s
  have hd' := (dev_of_still came).trans hd
  have ht' := (beside_timingCarrier.passTo (max s.nowNs (s.nextSymbol 1 c).ns) s).trans ht
  have he' := ((beside_getF (carEnable_apart c).1).passTo (max s.nowNs (s.nextSymbol 1 c).ns) s).trans he
  obtain ⟨dev, off⟩ := txSymbol_lathed _ hd' ht' he' (s.nextSymbol 1 c).ns runs
  simp only [State.symbolStart, hs, State.reachNs, hf, Bool.not_true, Bool.false_eq_true, if_false, if_true, off,
    Bool.not_false, Bool.true_or, dlForm_lathed dev, Nat.one_ne_zero]
  refine ⟨mapGet_mapSet_same .., fun a => ?_⟩
  rw [a.spectral, a.dlSymbolStart off, a.txSymbol _ hd' ht']
  rfl

/-- Settling leaves the choice of a path. -/
theorem settled_pathChoice {p : Nat} {f : Fld} (hf : f ∈ pathChoice p) : settled true f = false := by
  obtain ⟨ha, hl⟩ := pathChoice_addr hf
  simp only [settled, Bool.or_eq_false_iff, List.any_eq_false, List.mem_range, Bool.true_and, Bool.or_eq_true, not_or,
    beq_iff_eq, Fld.key, Reg.pathStateState, Reg.pathStateFenceReason, Reg.tileStatusDrain, Reg.obsStatusBusy]
  refine ⟨⟨⟨fun q hq => ?_, fun t ht => ?_⟩, fun q hq => ?_⟩, fun x hx => ?_⟩
  · omega
  · omega
  · omega
  · simp only [List.mem_cons, List.not_mem_nil, or_false] at hx
    rcases hx with rfl | rfl | rfl | rfl | rfl | rfl <;>
      simp only [Reg.arg, Reg.cmdStatusCode, Reg.cmdStatusRunning, Reg.cmdStatusSeq, Reg.evStatus] <;> omega

/-- The choice of a path is no count. -/
theorem pathChoice_uncounted {p : Nat} {f : Fld} (hf : f ∈ pathChoice p) : ∀ x, Counted x → f.key ≠ x.key := by
  obtain ⟨ha, hl⟩ := pathChoice_addr hf
  rintro x ⟨q, hq, hx⟩
  simp only [pathCounts, List.mem_cons, List.not_mem_nil, or_false] at hx
  rcases hx with rfl | rfl | rfl | rfl | rfl | rfl <;>
    simp only [Fld.key, Reg.rxInvalidSamplesCount, Reg.txSatCountCount, Reg.txStatusSaturated,
      Reg.txCfrCountCancelled, Reg.txCfrCountResidual, Reg.txStatusCfrResidual] <;> omega

theorem pathSample_spectral (x : SpectralState) : State.pathSample { s with spectral := x } = s.pathSample := rfl

/-- An uplink symbol start is noted, and its symbol latched from the path sample of the start on. -/
theorem symbolStart_uplink {c : Nat} (hs : s.symbolsOf 0 c = true)
    (hf : s.beyondFret (max s.nowNs (s.nextSymbol 0 c).ns) = false) (runs : List TxRun) (before ended : List RxRun) :
    mapGet 0 c (s.symbolStart 0 c runs before ended).spectral.symbols = (s.nextSymbol 0 c).ns + 1 ∧
      (mapGet [] c (s.symbolStart 0 c runs before ended).spectral.latched).head?.map SymLatch.start =
        some (s.symbolStart 0 c runs before ended).pathSample ∧
      standing (s.symbolStart 0 c runs before ended) = standing s := by
  have came : standing (s.passTo (max s.nowNs (s.nextSymbol 0 c).ns)) = standing s :=
    congrArg Prod.fst ((beside_still Counted).passTo _ s)
  simp only [State.symbolStart, hs, State.reachNs, hf, Bool.not_true, Bool.false_eq_true, if_false, if_true,
    Nat.zero_ne_one, Nat.mul_zero, Nat.zero_add]
  refine ⟨mapGet_mapSet_same .., ?_, ?_⟩
  · rw [pathSample_spectral]
    exact rxSymbol_latches _ c _ before ended
  · rw [standing_spectral, standing_rxSymbol]
    split
    · exact came
    · rw [standing_engineReads]
      exact (each_frame standing _ standing_layerSymbol _ _).trans came

/-- What stands holds the sessions' roles. -/
theorem role_of_standing {t : State} (h : standing t = standing (silent s)) (p : Port) :
    (t.session p).role = (s.session p).role := by
  cases p
  · exact congrArg (·.2.2.1.role) h
  · exact congrArg (·.2.2.2.role) h

/-- Settles O39: each part follows the start through time that passes, the chains, and the settings or the latched
symbol; what stands is carried through each of them, and settling keeps it. -/
theorem symbolsStartAndSettingsTakeEffect : Obligations.SymbolsStartAndSettingsTakeEffect := by
  intro c runs before ended s
  refine ⟨fun ⟨hs, hd, ht, he, hf⟩ => ?_, fun ⟨hs, hf⟩ => ?_, fun d hs => ?_⟩
  · obtain ⟨noted, stays⟩ := symbolStart_timing (silent s) hs hd ht he hf runs before ended
    have chains (f : Fld) (hf : ∀ x, Counted x → f.key ≠ x.key) :
        (atStart (silent s) c runs).getF f = s.getF f :=
      ((beside_getF hf).worked _ c runs).trans ((beside_getF hf).passTo _ (silent s))
    have keeps : still ((silent s).symbolStart 1 c runs before ended) = still (silent s) :=
      (stays (beside_still Applied)).trans (((beside_still _).applyTxAll _).trans
        (((beside_still _).worked _ c runs).trans ((beside_still _).passTo _ (silent s))))
    refine ⟨_, exec_symbolStart s 1 c runs before ended, ?_, fun p hp => ?_, fun m => ?_, fun p => ?_, ?_, ?_⟩
    · rw [after_spectral]
      exact noted
    · have took := applyTxAll_took (atStart (silent s) c runs) (List.mem_range.mp hp)
      have none_touched (f : Fld) := stays (beside_getF (w := fun _ => False) (f := f) fun _ h => h.elim)
      refine took.of_same (fun f hf => (chains f (pathChoice_uncounted hf)).symm) (fun f hf => ?_) fun hev => ?_
      · rw [after_getF _ _ (settled_pathChoice hf)]
        exact none_touched f
      · rw [State.event, after_getF _ _ (settled_outside (by decide) (by decide))]
        exact (congrArg (testBit · 7) (none_touched (Reg.evStatus 1))).trans hev
    · rw [after_mem]
      exact (congrFun (congrArg Prod.snd keeps) m).trans (by cases m <;> rfl)
    · rw [after_role]
      exact role_of_standing s (congrArg Prod.fst keeps) p
    · rw [after_dev]
      exact congrArg (·.1.1) keeps
    · rw [after_journal]
      exact congrArg (·.1.2.1) keeps
  · obtain ⟨noted, latched, stays⟩ := symbolStart_uplink (silent s) hs hf runs before ended
    refine ⟨_, exec_symbolStart s 0 c runs before ended, ?_, ?_, fun p => ?_, ?_, ?_⟩
    · rw [after_spectral]
      exact noted
    · rw [after_spectral, State.pathSample, after_drone]
      exact latched
    · rw [after_role]
      exact role_of_standing s stays p
    · rw [after_dev]
      exact congrArg (·.1) stays
    · rw [after_journal]
      exact congrArg (·.2.1) stays
  · refine ⟨_, exec_symbolStart s d c runs before ended, after_id_onlyRegs s ?_⟩
    have hs' : (silent s).symbolsOf d c = false := hs
    simp only [State.symbolStart, hs', Bool.not_false, if_true]

/-! ## The fret boundary -/

/-- A running unlathed device with the sag policy enabled at stage 0 and a commit armed for the next fret boundary. Its
map of shadow copies holds 4 under the key of SAG_STATUS.STAGE, a field that hardware alone writes. -/
def stageInShadow : State :=
  { (({ State.reset with phase := .run, dev := .unlathed } : State).setF Reg.sagCtrlEnable 1).setF
      Reg.commitCtrlArm 1 with shadow := [(Reg.sagStatusStage.key, 4)] }

/-- The commit copies every entry of the shadow map, whatever the access of its field (R415), so that the stage is 4 as
the boundary's last work asks whether to enter Deep Hold (R17, R470). -/
theorem fretBoundary_stageInShadow :
    (State.fretBoundary [] [] (silent stageInShadow)).phase = .deepEntry := by decide +kernel

/-- Refutes O38: its second part bounds the sag stage before the boundary, but not the shadow copies, which the armed
commit makes active within it. A copy of 4 under SAG_STATUS.STAGE sends an unlathed device into Deep Hold, so that its
phase does not stay `run`. -/
theorem not_fretBoundaryNumbersTheFret : ¬ Obligations.FretBoundaryNumbersTheFret := by
  intro h
  obtain ⟨t, ht, -, -, -, hrun, -⟩ := (h [] [] stageInShadow).2.1
    ⟨rfl, by decide +kernel, rfl, rfl, rfl, rfl, rfl, by decide +kernel, by decide +kernel, by decide +kernel,
      by decide +kernel⟩
  have hdeep : t.phase = .deepEntry := by
    rw [exec_fretBoundary] at ht
    obtain rfl := Host.Outcome.next.inj ht
    simp only [after_phase, List.map_nil, fretBoundary_stageInShadow]
  exact absurd (hrun.symm.trans hdeep) (by decide)

end Sys2Proof.Proofs.AirSteps
end

section
/-! The receive paths (chapter 04): RX_SYNC (R139) and OVERLOAD_BACKOFF (R123, R124). -/

namespace Sys2Proof.Proofs.ReceivePaths

open Sys2Proof Sys2Proof.Machine Sys2Proof.Laws Sys2Proof.Proofs.AirSteps

variable {s t : State} {l : List Fld}

/-! ## Frames of a command, update by update -/

theorem onlyRegs_refl (s : State) (l : List Fld) : s.onlyRegs s l :=
  ⟨fun _ _ _ => rfl, fun _ => rfl, fun _ => rfl, by simp [State.sameEngines]⟩

/-- Emptying the outputs changes nothing that the frame speaks of. -/
theorem onlyRegs_silent (s : State) (l : List Fld) : s.onlyRegs (silent s) l := onlyRegs_refl s l

theorem onlyRegs_setF (h : s.onlyRegs t l) {g : Fld} (hg : g ∈ l) (v : Nat) : s.onlyRegs (t.setF g v) l := by
  obtain ⟨regs, mem, roles, engines⟩ := h
  refine ⟨fun f hf hl => ?_, mem, roles, engines⟩
  rw [getF_setF_ne t (hl g hg)]
  exact regs f hf hl

/-- The receive state is outside the frame. -/
theorem onlyRegs_rx (h : s.onlyRegs t l) (x : RxState) : s.onlyRegs { t with rx := x } l := h

/-- The running command is outside the frame. -/
theorem onlyRegs_job (h : s.onlyRegs t l) (j : Option Job) : s.onlyRegs { t with job := j } l := h

theorem onlyRegs_addSpan (h : s.onlyRegs t l) (lo hi : Nat) (c : Option Nat) (k : SpanCause) (a : Nat)
    (b : Option Nat) : s.onlyRegs (t.addSpan lo hi c k a b) l := onlyRegs_rx h _

/-- What settles by itself, as the frame excepts it. -/
theorem onlyRegs_after {f : State → State} (h : s.onlyRegs (f (silent s)) l) : s.onlyRegs (after s f) l := by
  obtain ⟨regs, mem, roles, engines⟩ := h
  refine ⟨fun x hx hl => ?_, fun m => ?_, fun p => ?_, ?_⟩
  · exact (after_getF s f (settled_of_not_follows hx)).trans (regs x hx hl)
  · exact (after_mem s f m).trans (mem m)
  · exact (after_role s f p).trans (roles p)
  · simpa [State.sameEngines, after] using engines

/-- A port's access comes as a frame, which cancels at most the enable of DRONE_RESET (R526). -/
theorem onlyRegs_of_framed {p : Port} (h : (s.framed p).onlyRegs t l) : s.onlyRegs t l := by
  cases p <;> exact h

theorem reported_of_not_follows {f : Fld} (h : f.follows = false) : reported f = false := by
  simp only [Fld.follows, Bool.or_eq_false_iff, List.any_cons, List.any_nil, beq_eq_false_iff_ne] at h
  obtain ⟨-, -, -, code, running, seq, port, opcode, status, -⟩ := h
  exact reported_iff.mpr ⟨code, running, port, opcode, seq, status⟩

/-- Starting a command writes nothing but its status (R529). -/
theorem onlyRegs_begin (h : s.onlyRegs t l) (p : Port) (op : Nat) : s.onlyRegs (t.begin p op) l := by
  obtain ⟨regs, mem, roles, engines⟩ := h
  refine ⟨fun f hf hl => ?_, fun m => ?_, fun q => ?_, ?_⟩
  · exact (begin_getF t (reported_of_not_follows hf) p op).trans (regs f hf hl)
  · exact (begin_mem t p op m).trans (mem m)
  · exact (congrArg Session.role (begin_session t p op q)).trans (roles q)
  · simpa [State.sameEngines] using engines

/-! ## Commands that go on -/

/-- What a command that goes on leaves for the reader of CMD_STATUS, through settling (R529). -/
theorem settle_goesOn {p : Port} {op : Nat} {j : Job} (hop : op < 256)
    (hq : quietJob { t.begin p op with job := some j } = true)
    (hs : t.getF Reg.cmdStatusSeq = s.getF Reg.cmdStatusSeq) :
    s.goesOn (settle { t.begin p op with job := some j }) p op := by
  refine ⟨⟨?_, ?_, ?_, ?_⟩, ?_, ?_⟩
  · exact (settle_getF_quiet _ hq (by decide +kernel)).trans (begin_port t p op)
  · exact (settle_getF_quiet _ hq (by decide +kernel)).trans
      ((begin_opcode t p op).trans (Nat.mod_eq_of_lt hop))
  · exact (settle_getF_quiet _ hq (by decide +kernel)).trans (begin_code t p op)
  · exact (settle_getF_quiet _ hq (by decide +kernel)).trans (begin_running t p op)
  · exact (settle_getF_quiet _ hq (by decide +kernel)).trans ((begin_seq t p op).trans hs)
  · rw [settle_job _ hq]
    exact Option.some_ne_none j

/-! ## RX_SYNC (R139) -/

theorem exec_rxSync (s : State) (p : Port) :
    exec (.rxSync p) s = .next (after (s.framed p) (rxSyncSpec.issue p)) := rfl

/-- RX_SYNC passes every check for a ready port, in LATHED or SERVICE and with a role that may issue it; then it waits
with its path mask. -/
theorem rxSync_issue {p : Port} (hr : s.ready p) (hd : s.dev = .lathed ∨ s.dev = .service)
    (hp : RoleRule.permits .both s.dev (s.session p).role = true) :
    rxSyncSpec.issue p s = { s.begin p 0x64 with job := some (.rxSync (s.argW 0 + 2 ^ 32 * s.argW 1)) } := by
  have hstate : lathedUp s.dev = true := by rcases hd with h | h <;> rw [h] <;> rfl
  have hdoze : s.dev ≠ .doze := by rcases hd with h | h <;> rw [h] <;> decide
  calc rxSyncSpec.issue p s = rxSyncSpec.check p (s.begin p 0x64) := issue_ready s hr _ _
    _ = { s.begin p 0x64 with job := some (.rxSync ((s.begin p 0x64).maskArg 0)) } := by
      refine check_runs _ rxSyncSpec p ?_ ?_ rfl rfl fun _ => ?_
      · rwa [begin_dev]
      · rw [begin_session]
        exact hp
      · rwa [begin_dev]
    _ = _ := by
      rw [State.maskArg, begin_argW s (by decide), begin_argW s (by decide)]

/-- RX_SYNC goes on, and waits with its mask for the next fret boundary, which resets the paths. -/
theorem rxSync_waits {p : Port} (hr : s.ready p) (hd : s.dev = .lathed ∨ s.dev = .service)
    (hp : RoleRule.permits .both s.dev (s.session p).role = true) :
    ∃ t, exec (.rxSync p) s = .next t ∧ s.goesOn t p 0x64 ∧
      t.job = some (.rxSync (s.argW 0 + 2 ^ 32 * s.argW 1)) ∧ s.onlyRegs t [] := by
  let u : State := silent (s.framed p)
  have hdev : u.dev = s.dev := framed_dev s p
  have hrole : (u.session p).role = (s.session p).role := by cases p <;> rfl
  have harg (i : Nat) : u.argW i = s.argW i := framed_getF s p _
  have issued := rxSync_issue (s := u) (ready_out _ (framed_ready s hr)) (hdev ▸ hd) (by rwa [hdev, hrole])
  rw [harg, harg] at issued
  have quiet : quietJob { u.begin p 0x64 with job := some (.rxSync (s.argW 0 + 2 ^ 32 * s.argW 1)) } = true := by
    rcases hd with h | h <;> simp [quietJob, hdev, h]
  refine ⟨_, exec_rxSync s p, ?_, ?_, onlyRegs_of_framed (onlyRegs_after ?_)⟩
  · rw [after, issued]
    exact settle_goesOn (by decide) quiet (framed_getF s p _)
  · rw [after, issued]
    exact settle_job _ quiet
  · rw [issued]
    exact onlyRegs_job (onlyRegs_begin (onlyRegs_silent _ _) p 0x64) _

/-! ## Marks, through settling

Settling adds and closes the runs of paths that are not ACTIVE; it leaves the runs of every other cause. -/

/-- The runs of samples that a cause of their own marks. -/
def causedSpans (s : State) : List Span := s.rx.spans.filter fun x => x.cause != .notActive

theorem mem_causedSpans {x : Span} : x ∈ causedSpans s ↔ x ∈ s.rx.spans ∧ x.cause ≠ .notActive := by
  simp [causedSpans]

theorem causedSpans_congr (h : t.rx = s.rx) : causedSpans t = causedSpans s := by rw [causedSpans, h, causedSpans]

theorem causedSpans_addSpan_notActive (s : State) (lo hi : Nat) (c : Option Nat) (a : Nat) (b : Option Nat) :
    causedSpans (s.addSpan lo hi c .notActive a b) = causedSpans s := by
  simp [causedSpans, State.addSpan]

/-- A change of runs of paths that are not ACTIVE alone is none of the others. -/
theorem filter_map_notActive (q : Span → Bool) (g : Span → Span) (hq : ∀ x, q x = true → x.cause = .notActive)
    (hg : ∀ x, (g x).cause = x.cause) (l : List Span) :
    (l.map fun x => if q x then g x else x).filter (fun x => x.cause != .notActive) =
      l.filter fun x => x.cause != .notActive := by
  induction l with
  | nil => rfl
  | cons x l ih =>
    by_cases hx : q x = true
    · simp [hx, hg, hq x hx, ih]
    · simp [hx, List.filter_cons, ih]

theorem causedSpans_nowActive (s : State) (p : Nat) : causedSpans (s.nowActive p) = causedSpans s := by
  simp only [State.nowActive]
  split
  · refine filter_map_notActive _ (fun x => { x with stop := some s.pathSample }) (fun x hx => ?_) (fun _ => rfl) _
    simp only [Bool.and_eq_true, beq_iff_eq] at hx
    exact hx.1.1
  · exact causedSpans_addSpan_notActive ..

theorem causedSpans_settleActive (s : State) : causedSpans s.settleActive = causedSpans s := by
  simp only [State.settleActive]
  split
  · rfl
  · refine (each_frame causedSpans _ (fun s p => causedSpans_addSpan_notActive ..) _ _).trans ?_
    exact each_frame causedSpans _ causedSpans_nowActive _ s

theorem settleJobs_rx (s : State) : s.settleJobs.rx = s.rx := by
  simp only [State.settleJobs]
  split
  · rfl
  · split
    · simp
    · split
      · split <;> simp [State.completeDone]
      · split <;> simp
      · split <;> simp
      · rfl

theorem settleObs_rx (s : State) : s.settleObs.rx = s.rx := by
  refine each_frame State.rx _ (fun s q => ?_) _ s
  repeat' split
  all_goals rfl

theorem settlePaths_rx (s : State) : s.settlePaths.rx = s.rx := by
  simp only [State.settlePaths]
  split
  · rfl
  · refine each_frame State.rx _ (fun s p => ?_) _ s
    split <;> rfl

theorem settleDrains_rx (s : State) : s.settleDrains.rx = s.rx :=
  each_frame State.rx _ (fun s t => setFlag_rx s _ (s.drainLevel t)) _ s

theorem settleChain_rx (s : State) : s.settleChain.rx = s.rx := by
  simp only [State.settleChain]
  split <;> rfl

theorem settleEvents_rx (s : State) : s.settleEvents.rx = s.rx := by
  refine each_frame State.rx _ (fun s v => ?_) _ _
  simp only [State.sendVector]
  split <;> rfl

theorem settleSessions_rx (s : State) : s.settleSessions.rx = s.rx := rfl
theorem settleMutes_rx (s : State) : s.settleMutes.rx = s.rx := rfl
theorem settleLink_rx (s : State) : s.settleLink.rx = s.rx := rfl

/-- Settling leaves every run of samples that a cause of its own marks. -/
theorem causedSpans_settle (s : State) : causedSpans (settle s) = causedSpans s := by
  rw [settle, causedSpans_congr (settleLink_rx _), causedSpans_congr (settleEvents_rx _),
    causedSpans_congr (settleChain_rx _), causedSpans_congr (settleMutes_rx _), causedSpans_congr (settleDrains_rx _),
    causedSpans_settleActive, causedSpans_congr (settlePaths_rx _), causedSpans_congr (settleObs_rx _),
    causedSpans_congr (settleJobs_rx _), causedSpans_congr (settleSessions_rx _)]

theorem after_causedSpans (s : State) (f : State → State) :
    causedSpans (after s f) = causedSpans (f (silent s)) := causedSpans_settle _

@[simp] theorem after_backedOff (s : State) (f : State → State) :
    (after s f).rx.backedOff = (f (silent s)).rx.backedOff :=
  (congrArg RxState.backedOff (settle_rx (f (silent s))) :)

/-- Marks that an effect leaves as they are get no more by its step but for paths that are not ACTIVE. -/
theorem after_marks_subset {f : State → State} (h : (f (silent s)).rx = s.rx) :
    ∀ x ∈ (after s f).rx.spans, x.cause ≠ .notActive → x ∈ s.rx.spans := by
  intro x hx hc
  have hmem := mem_causedSpans.mpr ⟨hx, hc⟩
  rw [after_causedSpans, causedSpans_congr h] at hmem
  exact (mem_causedSpans.mp hmem).1

/-! ## The receive fields of a path -/

section
variable {p : Nat}

/-- The fields that an overload of a path may write (R119, R123, R124). -/
def overloadFields (p : Nat) : List Fld :=
  [Reg.rxStatusOverload p, Reg.rxStatusBackoff p, Reg.rxGainIndexActive p, Reg.rxStatusGainStep p]

theorem overloadFields_keys (p : Nat) :
    ((Reg.rxStatusOverload p).key ≠ (Reg.rxStatusBackoff p).key ∧
      (Reg.rxStatusOverload p).key ≠ (Reg.rxGainIndexActive p).key ∧
      (Reg.rxStatusOverload p).key ≠ (Reg.rxStatusGainStep p).key) ∧
    ((Reg.rxStatusBackoff p).key ≠ (Reg.rxGainIndexActive p).key ∧
      (Reg.rxStatusBackoff p).key ≠ (Reg.rxStatusGainStep p).key) ∧
    (Reg.rxGainIndexActive p).key ≠ (Reg.rxStatusGainStep p).key := by
  simp only [Fld.key, Reg.rxStatusOverload, Reg.rxStatusBackoff, Reg.rxGainIndexActive, Reg.rxStatusGainStep]
  omega

/-- The fields that a back-off goes by and does not write. -/
def backoffChoice (p : Nat) : List Fld :=
  [Reg.rxCtrlOvlBackoffEn p, Reg.rxAgcMinIndex p, Reg.rxAgcMaxIndex p]

theorem backoffChoice_key_ne {f : Fld} (hf : f ∈ backoffChoice p) :
    f.key ≠ (Reg.rxStatusOverload p).key ∧ f.key ≠ (Reg.rxStatusBackoff p).key := by
  simp only [backoffChoice, List.mem_cons, List.not_mem_nil, or_false] at hf
  rcases hf with rfl | rfl | rfl <;>
    simp only [Fld.key, Reg.rxCtrlOvlBackoffEn, Reg.rxAgcMinIndex, Reg.rxAgcMaxIndex, Reg.rxStatusOverload,
      Reg.rxStatusBackoff] <;>
    omega

/-- Settling writes nothing in the registers of a path that come before its state. -/
theorem settled_pathRegister (hp : p < 64) {f : Fld} (hl : f.lo < 32)
    (hlow : 0x400000 + p * 0x4000 ≤ f.addr) (hhigh : f.addr < 0x400200 + p * 0x4000) : settled true f = false := by
  simp only [settled, Bool.or_eq_false_iff, List.any_eq_false, List.mem_range, Bool.true_and, Bool.or_eq_true, not_or,
    beq_iff_eq, Fld.key, Reg.pathStateState, Reg.pathStateFenceReason, Reg.tileStatusDrain, Reg.obsStatusBusy]
  refine ⟨⟨⟨fun q hq => ?_, fun t ht => ?_⟩, fun q hq => ?_⟩, fun x hx => ?_⟩
  · omega
  · omega
  · omega
  · simp only [List.mem_cons, List.not_mem_nil, or_false] at hx
    rcases hx with rfl | rfl | rfl | rfl | rfl | rfl <;>
      simp only [Reg.arg, Reg.cmdStatusCode, Reg.cmdStatusRunning, Reg.cmdStatusSeq, Reg.evStatus] <;> omega

theorem settled_overloadFields (hp : p < 64) {f : Fld} (h : f ∈ overloadFields p) :
    settled true f = false := by
  have haddr : 0x400000 + p * 0x4000 ≤ f.addr ∧ f.addr < 0x400200 + p * 0x4000 ∧ f.lo < 32 := by
    simp only [overloadFields, List.mem_cons, List.not_mem_nil, or_false] at h
    rcases h with rfl | rfl | rfl | rfl <;>
      simp only [Reg.rxStatusOverload, Reg.rxStatusBackoff, Reg.rxGainIndexActive, Reg.rxStatusGainStep] <;> omega
  obtain ⟨hlow, hhigh, hl⟩ := haddr
  exact settled_pathRegister hp hl hlow hhigh

theorem after_overloadField (s : State) (f : State → State) (hp : p < 64) {x : Fld}
    (hx : x ∈ overloadFields p) : (after s f).getF x = (f (silent s)).getF x :=
  after_getF s f (settled_overloadFields hp hx)

/-! ## The gain index (R119) -/

/-- With the limits in order, the index that acts is the one asked for, held within them. -/
theorem gainIndex_of_le (h : s.getF (Reg.rxAgcMinIndex p) ≤ s.getF (Reg.rxAgcMaxIndex p)) (i : Nat) :
    s.gainIndex p i = max (s.getF (Reg.rxAgcMinIndex p)) (min (s.getF (Reg.rxAgcMaxIndex p)) i) := by
  simp only [State.gainIndex]
  repeat' split
  all_goals omega

theorem setGain_gainIndexActive (s : State) (p i : Nat) :
    (s.setGain p i).getF (Reg.rxGainIndexActive p) % 32 = s.gainIndex p i % 32 := by
  simp only [State.setGain]
  split
  next h => rw [h]
  next =>
    rw [State.markPath, getF_setF_ne _ (overloadFields_keys p).2.2, addSpan_getF, getF_setF_same]
    exact Nat.mod_mod ..

/-- A change of gain writes the active index and GAIN_STEP alone. -/
theorem setGain_getF (s : State) {f : Fld} (ha : f.key ≠ (Reg.rxGainIndexActive p).key)
    (hg : f.key ≠ (Reg.rxStatusGainStep p).key) (i : Nat) : (s.setGain p i).getF f = s.getF f := by
  simp only [State.setGain]
  split
  · rfl
  · rw [State.markPath, getF_setF_ne _ hg, addSpan_getF, getF_setF_ne _ ha]

theorem setGain_backedOff (s : State) (p i : Nat) : (s.setGain p i).rx.backedOff = s.rx.backedOff := by
  simp only [State.setGain]
  split <;> rfl

theorem mem_setGain_spans {x : Span} (h : x ∈ s.rx.spans) (i : Nat) : x ∈ (s.setGain p i).rx.spans := by
  simp only [State.setGain]
  split
  · exact h
  · exact List.mem_append_left _ h

theorem onlyRegs_setGain (h : s.onlyRegs t l) (ha : Reg.rxGainIndexActive p ∈ l) (hg : Reg.rxStatusGainStep p ∈ l)
    (i : Nat) : s.onlyRegs (t.setGain p i) l := by
  simp only [State.setGain]
  split
  · exact h
  · exact onlyRegs_setF (onlyRegs_addSpan (onlyRegs_setF h ha _) ..) hg _

/-! ## OVERLOAD_BACKOFF (R123, R124) -/

/-- A half that is not powered overloads no path. -/
theorem overload_unpowered (h : s.analogOn (halfOf p) = false) : s.overload p = s := by
  simp [State.overload, h]

/-- Without back-off in force, an overload sets OVERLOAD alone. -/
theorem overload_held (hd : s.domain (dfeOf (halfOf p)) = .on) (ha : s.analogOn (halfOf p) = true)
    (hb : s.getF (Reg.rxCtrlOvlBackoffEn p) = 0 ∨ p ∈ s.rx.backedOff) :
    s.overload p = s.setF (Reg.rxStatusOverload p) 1 := by
  have hen : (s.setF (Reg.rxStatusOverload p) 1).getF (Reg.rxCtrlOvlBackoffEn p) =
      s.getF (Reg.rxCtrlOvlBackoffEn p) := getF_setF_ne s (backoffChoice_key_ne (by simp [backoffChoice])).1 1
  rcases hb with h | h <;> simp [State.overload, State.flag, hd, ha, hen, h]

/-- The state in which a back-off changes the gain: OVERLOAD and BACKOFF are set, the path has backed off in this fret,
and its samples are marked from here on. -/
def backedOffMarked (s : State) (p : Nat) : State :=
  let u := (s.setF (Reg.rxStatusOverload p) 1).setF (Reg.rxStatusBackoff p) 1
  { u with rx := { u.rx with backedOff := insertOnce p u.rx.backedOff } }.addSpan p p none .backOff s.pathSample
    (some (s.pathSample + 1))

theorem backedOffMarked_getF (s : State) {f : Fld} (ho : f.key ≠ (Reg.rxStatusOverload p).key)
    (hb : f.key ≠ (Reg.rxStatusBackoff p).key) : (backedOffMarked s p).getF f = s.getF f :=
  (getF_setF_ne _ hb 1).trans (getF_setF_ne s ho 1)

theorem backedOffMarked_overload (s : State) (p : Nat) : (backedOffMarked s p).getF (Reg.rxStatusOverload p) = 1 :=
  (getF_setF_ne _ (overloadFields_keys p).1.1 1).trans (getF_setF_same s _ 1)

theorem backedOffMarked_backoff (s : State) (p : Nat) : (backedOffMarked s p).getF (Reg.rxStatusBackoff p) = 1 :=
  getF_setF_same _ _ 1

/-- A back-off leaves the limits of the index. -/
theorem backedOffMarked_choice (s : State) {f : Fld} (hf : f ∈ backoffChoice p) :
    (backedOffMarked s p).getF f = s.getF f :=
  backedOffMarked_getF s (backoffChoice_key_ne hf).1 (backoffChoice_key_ne hf).2

/-- The first overload of a fret, where back-off is enabled, makes the index 6 higher. -/
theorem overload_backsOff (hd : s.domain (dfeOf (halfOf p)) = .on) (ha : s.analogOn (halfOf p) = true)
    (he : s.getF (Reg.rxCtrlOvlBackoffEn p) = 1) (hb : p ∉ s.rx.backedOff) :
    s.overload p = (backedOffMarked s p).setGain p (s.getF (Reg.rxGainIndexActive p) + 6) := by
  have hen : (s.setF (Reg.rxStatusOverload p) 1).getF (Reg.rxCtrlOvlBackoffEn p) = 1 :=
    (getF_setF_ne s (backoffChoice_key_ne (by simp [backoffChoice])).1 1).trans he
  obtain ⟨⟨-, overload, -⟩, ⟨backoff, -⟩, -⟩ := overloadFields_keys p
  have hgain : (backedOffMarked s p).getF (Reg.rxGainIndexActive p) = s.getF (Reg.rxGainIndexActive p) :=
    backedOffMarked_getF s overload.symm backoff.symm
  rw [← hgain]
  simp [State.overload, State.flag, hd, ha, hen, hb, backedOffMarked, State.pathSample]

end

theorem exec_overloadBackoff (s : State) (p : Fin 64) :
    exec (.overloadBackoff p) s = .next (after s (State.overload p.val)) := rfl

/-- On a half that is not powered, OVERLOAD_BACKOFF changes nothing. -/
theorem overloadBackoff_unpowered {p : Fin 64} (ha : s.analogOn (p / 32) = false) :
    ∃ t, exec (.overloadBackoff p) s = .next t ∧ s.onlyRegs t [] ∧ t.rx.backedOff = s.rx.backedOff ∧
      ∀ x ∈ t.rx.spans, x.cause ≠ .notActive → x ∈ s.rx.spans := by
  have stays : (silent s).overload p.val = silent s := overload_unpowered ha
  refine ⟨_, exec_overloadBackoff s p, after_id_onlyRegs s stays, ?_, after_marks_subset ?_⟩
  · rw [after_backedOff, stays]
  · rw [stays]

/-- Where back-off is not enabled, or the path has backed off in this fret, OVERLOAD_BACKOFF sets OVERLOAD and leaves
gain and marks (R123). -/
theorem overloadBackoff_held {p : Fin 64} (hd : s.domain (dfeOf (p / 32)) = .on) (ha : s.analogOn (p / 32) = true)
    (hb : s.getF (Reg.rxCtrlOvlBackoffEn p) = 0 ∨ p.val ∈ s.rx.backedOff) :
    ∃ t, exec (.overloadBackoff p) s = .next t ∧ t.getF (Reg.rxStatusOverload p) = 1 ∧
      t.rx.backedOff = s.rx.backedOff ∧ (∀ x ∈ t.rx.spans, x.cause ≠ .notActive → x ∈ s.rx.spans) ∧
      s.onlyRegs t [Reg.rxStatusOverload p] := by
  have held : (silent s).overload p.val = (silent s).setF (Reg.rxStatusOverload p) 1 := overload_held hd ha hb
  refine ⟨_, exec_overloadBackoff s p, ?_, ?_, after_marks_subset ?_, onlyRegs_after ?_⟩
  · rw [after_overloadField s _ p.isLt (by simp [overloadFields]), held, getF_setF_same]
    rfl
  · rw [after_backedOff, held, setF_rx]
  · rw [held, setF_rx]
  · rw [held]
    exact onlyRegs_setF (onlyRegs_silent s _) (by simp) 1

theorem mem_insertOnce (n : Nat) (l : List Nat) : n ∈ insertOnce n l := by
  induction l with
  | nil => simp [insertOnce]
  | cons x l ih =>
    simp only [insertOnce]
    split
    · simp
    · split
      next h => simp [h]
      next => exact List.mem_cons_of_mem _ ih

/-- Where back-off is enabled, the first overload of a fret sets BACKOFF too, makes the index 6 higher within its
limits, and marks the path's samples from here on (R119, R123, R124). -/
theorem overloadBackoff_backsOff {p : Fin 64} (hd : s.domain (dfeOf (p / 32)) = .on)
    (ha : s.analogOn (p / 32) = true) (he : s.getF (Reg.rxCtrlOvlBackoffEn p) = 1) (hb : p.val ∉ s.rx.backedOff)
    (hl : s.getF (Reg.rxAgcMinIndex p) ≤ s.getF (Reg.rxAgcMaxIndex p)) :
    ∃ t, exec (.overloadBackoff p) s = .next t ∧ t.getF (Reg.rxStatusOverload p) = 1 ∧
      t.getF (Reg.rxStatusBackoff p) = 1 ∧ p.val ∈ t.rx.backedOff ∧
      t.getF (Reg.rxGainIndexActive p) % 32 = max (s.getF (Reg.rxAgcMinIndex p))
        (min (s.getF (Reg.rxAgcMaxIndex p)) (s.getF (Reg.rxGainIndexActive p) + 6)) % 32 ∧
      (∃ x ∈ t.rx.spans, x.lo = p ∧ x.hi = p ∧ x.carrier = none ∧ x.cause = .backOff ∧ x.first ≤ s.pathSample) ∧
      s.onlyRegs t (overloadFields p) := by
  let u := backedOffMarked (silent s) p
  have backs : (silent s).overload p.val = u.setGain p (s.getF (Reg.rxGainIndexActive p) + 6) :=
    overload_backsOff hd ha he hb
  have hmin : u.getF (Reg.rxAgcMinIndex p) = s.getF (Reg.rxAgcMinIndex p) :=
    backedOffMarked_choice (silent s) (by simp [backoffChoice])
  have hmax : u.getF (Reg.rxAgcMaxIndex p) = s.getF (Reg.rxAgcMaxIndex p) :=
    backedOffMarked_choice (silent s) (by simp [backoffChoice])
  obtain ⟨⟨-, overloadGain, overloadStep⟩, ⟨backoffGain, backoffStep⟩, -⟩ := overloadFields_keys p
  refine ⟨_, exec_overloadBackoff s p, ?_, ?_, ?_, ?_, ?_, onlyRegs_after ?_⟩
  · rw [after_overloadField s _ p.isLt (by simp [overloadFields]), backs,
      setGain_getF _ overloadGain overloadStep]
    exact backedOffMarked_overload _ _
  · rw [after_overloadField s _ p.isLt (by simp [overloadFields]), backs,
      setGain_getF _ backoffGain backoffStep]
    exact backedOffMarked_backoff _ _
  · rw [after_backedOff, backs, setGain_backedOff]
    exact mem_insertOnce _ _
  · rw [after_overloadField s _ p.isLt (by simp [overloadFields]), backs, setGain_gainIndexActive,
      gainIndex_of_le (by rwa [hmin, hmax]), hmin, hmax]
  · let x : Span := ⟨p, p, none, .backOff, s.pathSample, some (s.pathSample + 1)⟩
    have marked : x ∈ u.rx.spans := List.mem_append_right _ (List.mem_singleton_self x)
    have stays : x ∈ causedSpans (after s (State.overload p)) := by
      rw [after_causedSpans, backs]
      exact mem_causedSpans.mpr ⟨mem_setGain_spans marked _, nofun⟩
    exact ⟨x, (mem_causedSpans.mp stays).1, rfl, rfl, rfl, rfl, Nat.le_refl _⟩
  · rw [backs]
    refine onlyRegs_setGain (onlyRegs_addSpan (onlyRegs_rx ?_ _) ..) (by simp [overloadFields])
      (by simp [overloadFields]) _
    exact onlyRegs_setF (onlyRegs_setF (onlyRegs_silent s _) (by simp [overloadFields]) 1) (by simp [overloadFields]) 1

/-- Settles O40: RX_SYNC passes its checks and waits, and OVERLOAD_BACKOFF goes by the power of the half and by whether
a back-off is in force. -/
theorem receivePathsSyncAndBackOff : Obligations.ReceivePathsSyncAndBackOff := by
  intro s
  refine ⟨fun p ⟨hr, hd, hp⟩ => rxSync_waits hr hd hp, fun p ⟨hd, ha, he, hb, hl⟩ => ?_,
    fun p ⟨hd, ha, hb⟩ => overloadBackoff_held hd ha hb, fun p ha => overloadBackoff_unpowered ha⟩
  exact overloadBackoff_backsOff hd ha he hb hl

end Sys2Proof.Proofs.ReceivePaths
end
